-- ==== Sys2Proof/Word.lean ====
section
/-!
DEFINITION. The byte, and the raw types the whole model uses.

Element codes, addresses, counters and payload fields are natural numbers below the width the spec gives them
(widths differ from format to format, and a width in the type would cost a cast at every use); bytes are bit vectors.
-/
namespace Sys2Proof

/-- One byte (00: R9 lays every wider field out as little-endian bytes). -/
abbrev Byte := BitVec 8

/-- The plainest arithmetic: `n` reduced to `w` bits. -/
abbrev lowBits (w n : Nat) : Nat := n % 2 ^ w

end Sys2Proof
end

