-- ==== Sys2Proof/Syntax.lean ====
section
/-!
DEFINITION. The commands of the block: one constructor for each row of spec/opcode_table.json, in the table's order, with what
the event brings in as its operands. Timer rows carry no duration: such a command is the report that the time has passed.

A compute stage has the number 30 * die + unit, units in the order of 07: R594. A die has the code of 07: R212 (0 to 11 compute,
12 to 15 plinths, 16 to 23 beacons); `plinth` operands are 0 to 3 and `beacon` operands 0 to 7. A link end is
8 * die + instance (21: R576). A ring or line of a beacon is 288 * side + 18 * port + λ (21: R572). Mailbox MBm of PTi is
8 * i + m, and SB is 128.
-/
namespace Sys2Proof

/-- What a local store's code reports of the words an operation reads (03: R72). -/
inductive LsRead where
  | clean
  | corrected
  | uncorrectable
  deriving DecidableEq, Repr

/-- The causes of a squash (05: R163). -/
inductive SquashCause where
  | invocationEnd
  | stopDrain
  | error (epoch : Nat)
  | powerGate
  deriving DecidableEq, Repr

/-- What a start meets that no rule computes: straps, self-tests, store integrity, rails, links, subordinates, draws, stacks
and beacons (14: R427 to R437). `modulesDown` names a beacon and the lowest module of its attach that does not train, `badWord` a link end whose word
comes with BASE 0 (07: R218, R220). -/
structure StartInput where
  bootSel : Nat := 0
  testEn : Bool := false
  selfTestA : Bool := true
  selfTestB : Bool := true
  standbyLoads : Bool := true
  recordLost : Bool := false
  castOpens : Bool := true
  prevOpens : Bool := true
  keysOpen : Bool := true
  railsUp : Bool := true
  laneFault : Option (Nat × Nat) := none
  modulesDown : Option (Nat × Nat) := none
  badWord : Option Nat := none
  lateSubs : List (Nat × Nat) := []
  keyDraws : List (List Nat) := []
  seed : Nat := 0
  phyFails : List Nat := []
  stackTemps : List (Nat × Int) := []
  pd0Temp : Int := 100
  lasersAbsent : List Nat := []
  retiredRings : List (Nat × Nat) := []
  deriving DecidableEq, Repr

/-- An Ethernet frame as the port takes it (12: R375 to R377). -/
structure EthFrame where
  pcp : Nat := 0
  vlan : Option Nat := none
  length : Nat
  udpPort : Option Nat := none
  fragment : Bool := false
  checksumOk : Bool := true
  deriving DecidableEq, Repr

/-- A Helm frame and where it came from (12: R378). -/
structure HelmFrame where
  magic : Nat := 0x4D48
  version : Nat := 1
  session : Nat := 0
  seq : Nat := 0
  ackSeq : Nat := 0
  flags : Nat := 0
  body : List Byte := []
  mac : List Byte := []
  srcAddr : Nat := 0
  srcPort : Nat := 0
  deriving DecidableEq, Repr

/-- Error values met by one read of an HBM block: for symbol `p` (0 to 17) and lane `j` (0 to 7), entry 8 * p + j is added to that
element of GF(2^16) (06: R180). `index` is the index the read really came from, where it is not the block's own. -/
structure ErrPattern where
  errors : List (Nat × Nat) := []
  index : Option Nat := none
  deriving DecidableEq, Repr

/-- A flit as it comes in: its bundle, and its 128 bytes (07: R208, R209). -/
structure RxFlit where
  bundle : Nat := 0
  bytes : List Byte
  deriving DecidableEq, Repr

/-- An access a controller serves: local address, and the bank and row it places the block in (06: R174, R176). `op` is the operation of a store
that an atomic unit makes of its operands (08: R257), `partition` that of the request (07: R212), `inner` whether the stack reports its first and
its second read of the block as corrected (06: R179, R183). -/
structure HbmAccess where
  addr : Nat
  op : Option Nat := none
  partition : Nat := 0
  bank : Nat := 0
  row : Nat := 0
  inner : Bool × Bool := (false, false)
  deriving DecidableEq, Repr

/-- A request of a unit of the package at its entry hub (07: R212). -/
structure UnitReq where
  src : Nat
  partition : Nat
  tag : Nat
  addr : Nat
  deriving DecidableEq, Repr

/-- A request packet from another package at its home (08: R241). -/
structure FabReq where
  srcNode : Nat
  hallTag : Nat
  srcUnit : Nat
  reqId : Nat
  addr : Nat
  arg : Nat := 0
  twin : Bool := false
  deriving DecidableEq, Repr

/-- A LINK_HELLO (10: R321). -/
structure Hello where
  node : Nat
  beacon : Nat
  port : Nat
  session : Nat
  mode : Nat
  tRef : Nat
  deriving DecidableEq, Repr

/-- One command. The rule and meaning of each is that of its row in the table. -/
inductive Instr where
  | powerOn
  | resetNFall
  | resetNRise (i : StartInput)
  | railRegulationTimeout (rail : Nat)
  | subordinateHeartbeatTimeout (die : Nat)
  | deviceReady
  | i3cEntdaa (addr : Nat)
  | i3cSetdasa (static dyn : Nat)
  | i3cGetstatus
  | setEndpointId (eid : Nat)
  | getEndpointId
  | getMctpVersionSupport (msgType : Nat)
  | getMessageTypeSupport
  | sidebandMessage (body : List Byte)
  | jtagTapReset
  | bypass
  | idcode
  | samplePreload (lands : Nat) (load : Option Nat)
  | extest
  | clamp
  | highz
  | ethFrameRx (f : EthFrame)
  | pfcXoff (prio : Nat)
  | pfcXon (prio : Nat)
  | neighbourDiscovery (target : Nat)
  | icmpEcho (v6 : Bool) (payload : List Byte)
  | arpRequest (target : Nat)
  | open1 (f : HelmFrame) (rand : Nat)
  | open3 (f : HelmFrame)
  | halfOpenExpiry (session : Nat)
  | command (f : HelmFrame)
  | ack (f : HelmFrame)
  | bulk (f : HelmFrame)
  | close (f : HelmFrame)
  | helmFrameSend (session : Nat)
  | helmRetransmitTimeout (session : Nat)
  | helmAckDelayExpiry (session : Nat)
  | helmKeepaliveAck (session : Nat)
  | helmSessionTimeout (session : Nat)
  | queryCaps (mb seq : Nat) (body : List Byte)
  | deviceState (mb seq : Nat) (body : List Byte)
  | telemetryRead (mb seq : Nat) (body : List Byte)
  | logbookRead (mb seq : Nat) (body : List Byte)
  | logbookClear (mb seq : Nat) (body : List Byte)
  | subscribe (mb seq : Nat) (body : List Byte)
  | hostPortConfig (mb seq : Nat) (body : List Byte)
  | powerBudgetSet (mb seq : Nat) (body : List Byte)
  | powerBudgetGet (mb seq : Nat) (body : List Byte)
  | partitionCreate (mb seq : Nat) (body : List Byte)
  | partitionSet (mb seq : Nat) (body : List Byte)
  | partitionRemove (mb seq : Nat) (body : List Byte)
  | partitionQuery (mb seq : Nat) (body : List Byte)
  | windowSet (mb seq : Nat) (body : List Byte)
  | windowRead (mb seq : Nat) (body : List Byte)
  | keySlotSet (mb seq : Nat) (body : List Byte)
  | keySlotRead (mb seq : Nat) (body : List Byte)
  | tagMembers (mb seq : Nat) (body : List Byte)
  | tagMembersRead (mb seq : Nat) (body : List Byte)
  | pipelineLoad (mb seq : Nat) (body : List Byte)
  | pipelineInvoke (mb seq : Nat) (body : List Byte)
  | pipelineStopDrain (mb seq : Nat) (body : List Byte)
  | pipelineStopAbort (mb seq : Nat) (body : List Byte)
  | pipelineQuery (mb seq : Nat) (body : List Byte)
  | pipelineRelease (mb seq : Nat) (body : List Byte)
  | memoryRead (mb seq : Nat) (body : List Byte)
  | memoryWrite (mb seq : Nat) (body : List Byte)
  | hbmRepair (mb seq : Nat) (body : List Byte)
  | hardRepairRowDone (stack : Nat)
  | tenderStart (mb seq : Nat) (body : List Byte)
  | tenderPause (mb seq : Nat) (body : List Byte)
  | tenderResume (mb seq : Nat) (body : List Byte)
  | tenderAbort (mb seq : Nat) (body : List Byte)
  | tenderWeight (mb seq : Nat) (body : List Byte)
  | tenderRateCap (mb seq : Nat) (body : List Byte)
  | tenderReset (mb seq : Nat) (body : List Byte)
  | tenderQuery (mb seq : Nat) (body : List Byte)
  | tenderAssign (mb seq : Nat) (body : List Byte)
  | bulkOpen (mb seq : Nat) (body : List Byte)
  | bulkClose (mb seq : Nat) (body : List Byte)
  | fabricJoin (mb seq : Nat) (body : List Byte)
  | routeWrite (mb seq : Nat) (body : List Byte)
  | routeRead (mb seq : Nat) (body : List Byte)
  | waypointAdvance (mb seq : Nat) (body : List Byte)
  | waypointRead (mb seq : Nat) (body : List Byte)
  | regionFix (mb seq : Nat) (body : List Byte)
  | regionUnfix (mb seq : Nat) (body : List Byte)
  | regionList (mb seq : Nat) (body : List Byte)
  | collectiveStart (mb seq : Nat) (body : List Byte)
  | beaconRepoint (mb seq : Nat) (body : List Byte)
  | beaconLaneReturn (mb seq : Nat) (body : List Byte)
  | beaconLaneRetire (mb seq : Nat) (body : List Byte)
  | maquetteSet (mb seq : Nat) (body : List Byte)
  | maquetteRead (mb seq : Nat) (body : List Byte)
  | maquetteDiscard (mb seq : Nat) (body : List Byte)
  | castCommit (mb seq : Nat) (body : List Byte) (draws : List (List Nat))
  | castCommitArm (mb seq : Nat) (body : List Byte)
  | castCommitDisarm (mb seq : Nat) (body : List Byte)
  | castReturn (mb seq : Nat) (body : List Byte)
  | updateStage (mb seq : Nat) (body : List Byte)
  | updateArmNextStart (mb seq : Nat) (body : List Byte)
  | updateArmWaypoint (mb seq : Nat) (body : List Byte)
  | updateDisarm (mb seq : Nat) (body : List Byte)
  | updateStatus (mb seq : Nat) (body : List Byte)
  | attest (mb seq : Nat) (body : List Byte)
  | unlockChallenge (mb seq : Nat) (body : List Byte) (rand : List Byte)
  | unlockResponsePassword (mb seq : Nat) (body : List Byte)
  | unlockResponseSm2 (mb seq : Nat) (body : List Byte)
  | lock (mb seq : Nat) (body : List Byte)
  | serviceRead (mb seq : Nat) (body : List Byte)
  | serviceWrite (mb seq : Nat) (body : List Byte)
  | twinState (mb seq : Nat) (body : List Byte)
  | twinResync (mb seq : Nat) (body : List Byte)
  | dieReset (mb seq : Nat) (body : List Byte)
  | registerWrite (addr width value : Nat)
  | counterLowRead (addr : Nat)
  | chCtrlPauseWrite (plinth chan : Nat) (v : Bool)
  | chCtrlAbortWrite (plinth chan : Nat)
  | chCtrlWeightWrite (plinth chan w : Nat)
  | rateCapWrite (plinth chan v : Nat)
  | snapIndex (index : Nat)
  | record (pl stream epoch : Nat) (segEnd : Bool) (payload : List Byte)
  | streamCredit (pl stream count : Nat)
  | batchEnd (pl stream epoch : Nat)
  | gapMark (pl stream epoch : Nat)
  | gemm (st : Nat) (ls : LsRead)
  | gemmSlice (st : Nat) (ls : LsRead)
  | accumulatorDrain (st : Nat)
  | add (st : Nat) (ls : LsRead)
  | sub (st : Nat) (ls : LsRead)
  | mul (st : Nat) (ls : LsRead)
  | fma (st : Nat) (ls : LsRead)
  | min (st : Nat) (ls : LsRead)
  | max (st : Nat) (ls : LsRead)
  | abs (st : Nat) (ls : LsRead)
  | neg (st : Nat) (ls : LsRead)
  | cmpEq (st : Nat) (ls : LsRead)
  | cmpLt (st : Nat) (ls : LsRead)
  | cmpLe (st : Nat) (ls : LsRead)
  | select (st : Nat) (ls : LsRead)
  | and (st : Nat) (ls : LsRead)
  | or (st : Nat) (ls : LsRead)
  | xor (st : Nat) (ls : LsRead)
  | shl (st : Nat) (ls : LsRead)
  | shrArithmetic (st : Nat) (ls : LsRead)
  | shrLogical (st : Nat) (ls : LsRead)
  | cvt (st : Nat) (ls : LsRead)
  | cvtMx (st : Nat) (ls : LsRead)
  | rowScale (st : Nat) (ls : LsRead)
  | rowBias (st : Nat) (ls : LsRead)
  | reduceAdd (st : Nat) (ls : LsRead)
  | reduceMax (st : Nat) (ls : LsRead)
  | reduceMin (st : Nat) (ls : LsRead)
  | prune24 (st : Nat) (ls : LsRead)
  | store (st : Nat) (ls : LsRead)
  | scatter (st : Nat) (ls : LsRead)
  | sliceSplit (st : Nat) (ls : LsRead)
  | sliceAcc (st : Nat) (ls : LsRead)
  | control (st : Nat) (ls : LsRead)
  | load (st : Nat) (ls : LsRead)
  | gatherRows (st : Nat) (ls : LsRead)
  | gatherElem (st : Nat) (ls : LsRead)
  | csrWalk (st : Nat) (ls : LsRead)
  | prefetch (st : Nat) (ls : LsRead)
  | atomic (st : Nat) (ls : LsRead)
  | gatherResponse (st tag status : Nat) (data : List Byte)
  | exp (st : Nat) (ls : LsRead)
  | sigmoid (st : Nat) (ls : LsRead)
  | tanh (st : Nat) (ls : LsRead)
  | recip (st : Nat) (ls : LsRead)
  | rsqrt (st : Nat) (ls : LsRead)
  | log (st : Nat) (ls : LsRead)
  | erf (st : Nat) (ls : LsRead)
  | softmaxAssist (st : Nat) (ls : LsRead)
  | topk (st : Nat) (ls : LsRead)
  | topkMerge (st : Nat) (ls : LsRead)
  | scrubWalkerVisit (st word : Nat) (ls : LsRead)
  | stageZeroingDone (st : Nat)
  | stageTestDone (st : Nat) (pass : Bool)
  | stageTestIntervalExpiry (st : Nat)
  | tokenBucketRefill (pl src : Nat)
  | batchAdmission (pl : Nat)
  | feedRecord (pl src status : Nat) (data : List Byte)
  | channelGrant (plinth : Nat) (feed : Bool)
  | loadComplete (pl chan status : Nat) (data : List Byte)
  | repetitionEnd (pl : Nat)
  | invocationComplete (pl : Nat)
  | gapOpen (pl : Nat)
  | gapHoldExpiry (pl : Nat)
  | gapRelease (pl beacon : Nat)
  | drainTimeoutExpiry (pl : Nat)
  | epochCommit (pl : Nat)
  | epochSquash (pl : Nat) (cause : SquashCause)
  | batchReadmission (pl : Nat)
  | heldStoreResume (st : Nat)
  | hbmRead (r : HbmAccess) (e1 e2 : ErrPattern) (len : Nat)
  | hbmStore (r : HbmAccess) (data : List Byte) (e1 e2 : ErrPattern)
  | repairLogWrite
  | scrubStep (stack pc bank row : Nat) (e1 e2 : ErrPattern) (inner : Bool × Bool)
  | stackSensorRead (stack : Nat) (reading : Option Int)
  | skewWindowEnd (plinth : Nat)
  | relayDone (plinth : Nat)
  | pdIdleExpiry (stack : Nat)
  | srIdleExpiry (stack : Nat)
  | flitRx (link : Nat) (flit : RxFlit)
  | linkAckTimer (link : Nat)
  | linkBackstopExpiry (link : Nat)
  | laneLossOfLock (link lane bundles : Nat)
  | linkRetrainDone (link : Nat) (hardLane : Option Nat) (peerWord : Nat)
  | linkCredit (link : Nat) (counts : List Nat)
  | memRd (q : UnitReq) (rlenM1 : Nat)
  | memWr (q : UnitReq) (data : List Byte)
  | atomicRequest (q : UnitReq) (op : Nat) (payload : List Byte)
  | hint (q : UnitReq)
  | completion (unit tag status : Nat) (data : List Byte)
  | controlMessage (dst opcode : Nat) (payload : List Byte)
  | svcRd (src dst tag addr : Nat)
  | svcWr (src dst tag addr : Nat) (data : List Byte)
  | event (src code ref : Nat) (data : List Byte)
  | cap (link word : Nat)
  | profile (link word atSeq : Nat)
  | heartbeatTimeout (die : Nat)
  | dieFence (die cause : Nat)
  | dieReadmission (die : Nat) (ok : Bool) (retiredRings : List Nat)
  | rd (q : FabReq)
  | wr (q : FabReq) (payload : List Byte)
  | fabricAtomic (q : FabReq) (payload : List Byte)
  | fabricHint (q : FabReq)
  | fabricCompletion (reqId status : Nat) (data : List Byte)
  | mirrorWr (q : FabReq) (payload : List Byte)
  | mirrorAck (reqId : Nat)
  | addI32 (q : UnitReq) (payload : List Byte)
  | addI64 (q : UnitReq) (payload : List Byte)
  | addF32 (q : UnitReq) (payload : List Byte)
  | addF64 (q : UnitReq) (payload : List Byte)
  | minI32 (q : UnitReq) (payload : List Byte)
  | maxI32 (q : UnitReq) (payload : List Byte)
  | minI64 (q : UnitReq) (payload : List Byte)
  | maxI64 (q : UnitReq) (payload : List Byte)
  | minF32 (q : UnitReq) (payload : List Byte)
  | maxF32 (q : UnitReq) (payload : List Byte)
  | and64 (q : UnitReq) (payload : List Byte)
  | or64 (q : UnitReq) (payload : List Byte)
  | xor64 (q : UnitReq) (payload : List Byte)
  | swap32 (q : UnitReq) (payload : List Byte)
  | swap64 (q : UnitReq) (payload : List Byte)
  | cas32 (q : UnitReq) (payload : List Byte)
  | cas64 (q : UnitReq) (payload : List Byte)
  | cas128 (q : UnitReq) (payload : List Byte)
  | leaseSweep (plinth : Nat)
  | waypointStoresDrained (tag : Nat)
  | arrive (tag child : Nat)
  | waypointCommit (tag value : Nat) (seeds : List (Nat × Nat)) (draws : List (List Nat))
  | waypointAbort (tag : Nat) (missing : List Nat)
  | rootWaypointTimeout (tag : Nat)
  | memberWaypointTimeout (tag : Nat)
  | waypointReportRequest (tag asker : Nat)
  | waypointReport (tag value : Nat) (missing : List Nat) (seeds : List (Nat × Nat)) (draws : List (List Nat))
  | fix (tag node base length asker : Nat)
  | unfixInvalidate (tag node base length asker : Nat)
  | unfixRelease (tag node base length asker : Nat)
  | collData (collId member : Nat) (data : List Byte)
  | collectivePhaseDone (collId : Nat) (status : Nat)
  | collTimeoutExpiry (collId : Nat)
  | resyncDone
  | heaterLoopStep (beacon ring monitor : Nat)
  | feedForwardNotice (beacon rate : Nat)
  | exsarHeartbeatMiss (beacon : Nat)
  | exsarHeartbeat (beacon : Nat)
  | heartbeatAutonomyTimeout (beacon : Nat)
  | matrixFit (beacon bank : Nat)
  | matrixFitDone (beacon bank residual : Nat) (entries : List Nat)
  | sight (beacon ring : Nat)
  | sightDone (beacon ring peak code : Nat)
  | gapNotice (beacon pl hold : Nat)
  | idleWindowExpiry (beacon port : Nat)
  | forcedSight (beacon ring : Nat)
  | laneBerEvaluation (beacon line : Nat) (long : Bool)
  | codewordRx (beacon line header errors : Nat) (payload : List Byte)
  | silentLaneTimeout (beacon line : Nat) (mislocked : Option Nat)
  | repoint (beacon step : Nat)
  | linkLanes (beacon port side mask : Nat)
  | cmisFlagPoll (beacon flags : Nat) (lost : List Nat) (dark : List Nat)
  | lsmInterrupt (beacon flags : Nat) (lost : List Nat) (dark : List Nat)
  | laserModuleTimeout (beacon : Nat)
  | fabricFlitRx (beacon port : Nat) (flit : List Byte)
  | fabricAckTimer (beacon port : Nat)
  | replayTimerExpiry (beacon port : Nat)
  | spillMove (beacon port count : Nat)
  | linkHello (beacon port : Nat) (h : Hello)
  | linkAck (beacon port session ackSeq flags echo : Nat)
  | fabricLinkCredit (beacon port session : Nat) (granted : List Nat)
  | creditReportTimer (beacon port : Nat)
  | routeFail (cause hop word : Nat)
  | routeFailHoldExpiry (word : Nat)
  | channelBringup (beacon port lanes : Nat) (sender : Bool)
  | lockLossTimeout (beacon port : Nat)
  | poolStallExpiry (beacon port : Nat)
  | completionTimeoutExpiry (reqId : Nat)
  | hallRepointRelease (beacon : Nat)
  | descriptorStart (plinth chan : Nat)
  | tenderReadCompletion (plinth chan tag status : Nat) (data : List Byte)
  | tenderStoreCompletion (plinth chan tag status : Nat)
  | descriptorEnd (plinth chan : Nat)
  | requestLineAssert (plinth line : Nat) (data : List Byte)
  | channelPaused (plinth chan : Nat)
  | pausePwrTimeout (plinth chan : Nat)
  | sensorSample (die : Nat) (samples : List Int)
  | rateMonitorEvaluation (die : Nat) (tj : Int)
  | voltageLoopStep (die : Nat)
  | budgetExchange (reports : List (Nat × Nat × Nat × Nat))
  | powerEstimate (die watts : Nat)
  | budgetTimeout (die : Nat)
  | railTelemetryRead (rail : Nat) (reading : Option (Nat × Nat × Nat × Nat))
  | smbalert (rail status : Nat)
  | shutdownTrip (die : Nat) (tj : Int) (exsarRuns : Bool)
  | domainIdleExpiry (die dom : Nat)
  | powerShed
  | domainWake (die dom : Nat)
  | fuseProgram
  | serviceCoreHung (plinth : Nat)
  | coreHeartbeatMiss (coreB : Bool)
  | coreFailover (gapUs : Nat)
  | coreRestart (pass : Bool)
  | binnacleLost (coreB : Bool)
  | failureStop (cause : Nat) (exsarRuns : Bool)
  | plinthReferenceLoss (plinth : Nat)
  | unlockLifetimeExpiry
  | powerOff
  | ethernetLinkLoss
  | ethernetLinkUp
  | refresh (stack : Nat)
  | softRepairDone (stack : Nat) (blocks : Option (List (Nat × ErrPattern × ErrPattern × Bool × Bool)))
  | phyLinkFailure (stack : Nat)
  | bundleSleep (link bundle : Nat)
  | membershipRequestRetry (tag : Nat)
  | fixAck (tag member phase : Nat)
  | regionFixTimeout (tag : Nat)
  | norProgramDone
  deriving DecidableEq, Repr

end Sys2Proof
end

