-- ==== Sys2Proof/WellFormed.lean ====
section
/-!
DEFINITION. When a command names things the package has: numbers inside the ranges of 00: R6, 04: R117, 07: R212, 07: R594 and
21: R572. The meanings are total on every command; this predicate says which commands can come from the part.
-/
namespace Sys2Proof

/-- A mailbox: MB0 to MB7 of 16 partitions, or SB (12: R382, R395). -/
def mbOk (mb : Nat) : Bool := decide (mb ≤ 128)

/-- A unit's request: 12-bit unit, 16 partitions, 16-bit tag, 56-bit address (07: R212). -/
def UnitReq.ok (q : UnitReq) : Bool :=
  decide (q.src < 4096) && decide (q.partition < 16) && decide (q.tag < 65536) && decide (q.addr < 2 ^ 56)

/-- A request packet from another package (08: R241). -/
def FabReq.ok (q : FabReq) : Bool :=
  decide (q.srcNode < 16384) && decide (q.hallTag < 65536) && decide (q.srcUnit < 4096) && decide (q.reqId < 2 ^ 32) &&
    decide (q.addr < 2 ^ 56) && decide (q.arg < 256)

/-- An access of a controller: `n` bytes, 1 to 256 inside one block (06: R176), in one of 16 partitions. -/
def HbmAccess.ok (r : HbmAccess) (n : Nat) : Bool :=
  decide (r.addr < 2 ^ 42) && decide (r.partition < 16) && decide (1 ≤ n) && decide (r.addr % 256 + n ≤ 256)

/-- Does the command name only what the package has? -/
def Instr.wf : Instr → Bool
  | .powerOn | .resetNFall | .resetNRise _ | .deviceReady | .i3cEntdaa _ | .i3cSetdasa _ _ | .i3cGetstatus
  | .setEndpointId _ | .getEndpointId | .getMctpVersionSupport _ | .getMessageTypeSupport | .sidebandMessage _
  | .jtagTapReset | .bypass | .idcode | .samplePreload _ _ | .extest | .clamp | .highz | .ethFrameRx _
  | .neighbourDiscovery _ | .icmpEcho _ _ | .arpRequest _ | .open1 _ _ | .open3 _ | .halfOpenExpiry _ | .command _
  | .ack _ | .bulk _ | .close _ | .helmFrameSend _ | .helmRetransmitTimeout _ | .helmAckDelayExpiry _
  | .helmKeepaliveAck _ | .helmSessionTimeout _ | .registerWrite _ _ _ | .counterLowRead _ | .snapIndex _
  | .repairLogWrite | .event _ _ _ _ | .mirrorAck _ | .collData _ _ _ | .collTimeoutExpiry _ | .resyncDone
  | .routeFail _ _ _ | .routeFailHoldExpiry _ | .completionTimeoutExpiry _ | .budgetExchange _ | .powerShed
  | .fuseProgram | .coreHeartbeatMiss _ | .coreFailover _ | .coreRestart _ | .binnacleLost _ | .failureStop _ _
  | .unlockLifetimeExpiry | .powerOff | .ethernetLinkLoss | .ethernetLinkUp | .norProgramDone => true
  | .railRegulationTimeout rail | .railTelemetryRead rail _ => decide (rail < 20)
  | .subordinateHeartbeatTimeout die | .heartbeatTimeout die | .dieFence die _ | .dieReadmission die _ _
  | .sensorSample die _ | .rateMonitorEvaluation die _ | .voltageLoopStep die | .powerEstimate die _
  | .budgetTimeout die | .shutdownTrip die _ _ => decide (die < 24)
  | .pfcXoff prio | .pfcXon prio => decide (prio < 8)
  | .queryCaps mb _ _ | .deviceState mb _ _ | .telemetryRead mb _ _ | .logbookRead mb _ _ | .logbookClear mb _ _
  | .subscribe mb _ _ | .hostPortConfig mb _ _ | .powerBudgetSet mb _ _ | .powerBudgetGet mb _ _
  | .partitionCreate mb _ _ | .partitionSet mb _ _ | .partitionRemove mb _ _ | .partitionQuery mb _ _
  | .windowSet mb _ _ | .windowRead mb _ _ | .keySlotSet mb _ _ | .keySlotRead mb _ _ | .tagMembers mb _ _
  | .tagMembersRead mb _ _ | .pipelineLoad mb _ _ | .pipelineInvoke mb _ _ | .pipelineStopDrain mb _ _
  | .pipelineStopAbort mb _ _ | .pipelineQuery mb _ _ | .pipelineRelease mb _ _ | .memoryRead mb _ _
  | .memoryWrite mb _ _ | .hbmRepair mb _ _ | .tenderStart mb _ _ | .tenderPause mb _ _ | .tenderResume mb _ _
  | .tenderAbort mb _ _ | .tenderWeight mb _ _ | .tenderRateCap mb _ _ | .tenderReset mb _ _ | .tenderQuery mb _ _
  | .tenderAssign mb _ _ | .bulkOpen mb _ _ | .bulkClose mb _ _ | .fabricJoin mb _ _ | .routeWrite mb _ _
  | .routeRead mb _ _ | .waypointAdvance mb _ _ | .waypointRead mb _ _ | .regionFix mb _ _ | .regionUnfix mb _ _
  | .regionList mb _ _ | .collectiveStart mb _ _ | .beaconRepoint mb _ _ | .beaconLaneReturn mb _ _
  | .beaconLaneRetire mb _ _ | .maquetteSet mb _ _ | .maquetteRead mb _ _ | .maquetteDiscard mb _ _
  | .castCommit mb _ _ _ | .castCommitArm mb _ _ | .castCommitDisarm mb _ _ | .castReturn mb _ _ | .updateStage mb _ _
  | .updateArmNextStart mb _ _ | .updateArmWaypoint mb _ _ | .updateDisarm mb _ _ | .updateStatus mb _ _
  | .attest mb _ _ | .unlockChallenge mb _ _ _ | .unlockResponsePassword mb _ _ | .unlockResponseSm2 mb _ _
  | .lock mb _ _ | .serviceRead mb _ _ | .serviceWrite mb _ _ | .twinState mb _ _ | .twinResync mb _ _
  | .dieReset mb _ _ => mbOk mb
  | .hardRepairRowDone stack | .stackSensorRead stack _ | .pdIdleExpiry stack | .srIdleExpiry stack | .refresh stack
  | .softRepairDone stack _ | .phyLinkFailure stack => decide (stack < 32)
  | .chCtrlPauseWrite plinth chan _ | .chCtrlAbortWrite plinth chan | .chCtrlWeightWrite plinth chan _
  | .rateCapWrite plinth chan _ | .descriptorStart plinth chan | .descriptorEnd plinth chan
  | .channelPaused plinth chan | .pausePwrTimeout plinth chan => decide (plinth < 4) && decide (chan < 64)
  | .record pl stream epoch _ _ | .batchEnd pl stream epoch | .gapMark pl stream epoch => decide (pl < 256) && decide (stream < 512) && decide (epoch < 65536)
  | .streamCredit pl stream _ => decide (pl < 256) && decide (stream < 512)
  | .gemm st _ | .gemmSlice st _ | .accumulatorDrain st | .add st _ | .sub st _ | .mul st _ | .fma st _ | .min st _
  | .max st _ | .abs st _ | .neg st _ | .cmpEq st _ | .cmpLt st _ | .cmpLe st _ | .select st _ | .and st _ | .or st _
  | .xor st _ | .shl st _ | .shrArithmetic st _ | .shrLogical st _ | .cvt st _ | .cvtMx st _ | .rowScale st _
  | .rowBias st _ | .reduceAdd st _ | .reduceMax st _ | .reduceMin st _ | .prune24 st _ | .store st _ | .scatter st _
  | .sliceSplit st _ | .sliceAcc st _ | .control st _ | .load st _ | .gatherRows st _ | .gatherElem st _
  | .csrWalk st _ | .prefetch st _ | .atomic st _ | .exp st _ | .sigmoid st _ | .tanh st _ | .recip st _ | .rsqrt st _
  | .log st _ | .erf st _ | .softmaxAssist st _ | .topk st _ | .topkMerge st _ | .scrubWalkerVisit st _ _
  | .stageZeroingDone st | .stageTestDone st _ | .stageTestIntervalExpiry st | .heldStoreResume st => decide (st < 360)
  | .gatherResponse st _ status _ => decide (st < 360) && decide (status < 256)
  | .tokenBucketRefill pl _ | .batchAdmission pl | .repetitionEnd pl | .invocationComplete pl | .gapOpen pl
  | .gapHoldExpiry pl | .drainTimeoutExpiry pl | .epochCommit pl | .epochSquash pl _ | .batchReadmission pl => decide (pl < 256)
  | .feedRecord pl _ status _ => decide (pl < 256) && decide (status < 256)
  | .channelGrant plinth _ | .skewWindowEnd plinth | .relayDone plinth | .leaseSweep plinth | .serviceCoreHung plinth
  | .plinthReferenceLoss plinth => decide (plinth < 4)
  | .loadComplete pl chan status _ => decide (pl < 256) && decide (chan < 64) && decide (status < 256)
  | .gapRelease pl beacon => decide (pl < 256) && decide (beacon < 8)
  | .hbmRead r _ _ len => r.ok len
  | .hbmStore r data _ _ => r.ok (if r.op.isSome then 1 else data.length)
  | .scrubStep stack pc _ _ _ _ _ => decide (stack < 32) && decide (pc < 32)
  | .flitRx link _ | .linkAckTimer link | .linkBackstopExpiry link | .linkRetrainDone link _ _ | .linkCredit link _
  | .cap link _ | .profile link _ _ => decide (link < 192)
  | .laneLossOfLock link lane _ => decide (link < 192) && decide (lane < 768)
  | .memRd q _ | .memWr q _ | .atomicRequest q _ _ | .hint q | .rd q | .wr q _ | .fabricAtomic q _ | .fabricHint q
  | .mirrorWr q _ | .addI32 q _ | .addI64 q _ | .addF32 q _ | .addF64 q _ | .minI32 q _ | .maxI32 q _ | .minI64 q _
  | .maxI64 q _ | .minF32 q _ | .maxF32 q _ | .and64 q _ | .or64 q _ | .xor64 q _ | .swap32 q _ | .swap64 q _
  | .cas32 q _ | .cas64 q _ | .cas128 q _ => q.ok
  | .completion unit _ status _ => decide (unit < 4096) && decide (status < 256)
  | .controlMessage dst _ _ => decide (dst < 4096)
  | .svcRd src dst _ _ | .svcWr src dst _ _ _ => decide (src < 4096) && decide (dst < 4096)
  | .fabricCompletion _ status _ | .collectivePhaseDone _ status => decide (status < 256)
  | .waypointStoresDrained tag | .arrive tag _ | .waypointCommit tag _ _ _ | .waypointAbort tag _
  | .rootWaypointTimeout tag | .memberWaypointTimeout tag | .waypointReportRequest tag _ | .waypointReport tag _ _ _ _
  | .membershipRequestRetry tag | .fixAck tag _ _ | .regionFixTimeout tag => decide (tag < 65536)
  | .fix tag node _ _ _ | .unfixInvalidate tag node _ _ _ | .unfixRelease tag node _ _ _ => decide (tag < 65536) && decide (node < 16384)
  | .heaterLoopStep beacon ring _ | .sight beacon ring | .sightDone beacon ring _ _ | .forcedSight beacon ring => decide (beacon < 8) && decide (ring < 576)
  | .feedForwardNotice beacon _ | .exsarHeartbeatMiss beacon | .exsarHeartbeat beacon
  | .heartbeatAutonomyTimeout beacon | .repoint beacon _ | .cmisFlagPoll beacon _ _ _ | .lsmInterrupt beacon _ _ _
  | .laserModuleTimeout beacon | .hallRepointRelease beacon => decide (beacon < 8)
  | .matrixFit beacon bank | .matrixFitDone beacon bank _ _ => decide (beacon < 8) && decide (bank < 32)
  | .gapNotice beacon pl _ => decide (beacon < 8) && decide (pl < 256)
  | .idleWindowExpiry beacon port | .linkLanes beacon port _ _ | .fabricFlitRx beacon port _
  | .fabricAckTimer beacon port | .replayTimerExpiry beacon port | .spillMove beacon port _ | .linkHello beacon port _
  | .linkAck beacon port _ _ _ _ | .fabricLinkCredit beacon port _ _ | .creditReportTimer beacon port
  | .channelBringup beacon port _ _ | .lockLossTimeout beacon port | .poolStallExpiry beacon port => decide (beacon < 8) && decide (port < 16)
  | .laneBerEvaluation beacon line _ | .codewordRx beacon line _ _ _ | .silentLaneTimeout beacon line _ => decide (beacon < 8) && decide (line < 576)
  | .tenderReadCompletion plinth chan _ status _ | .tenderStoreCompletion plinth chan _ status => decide (plinth < 4) && decide (chan < 64) && decide (status < 256)
  | .requestLineAssert plinth line _ => decide (plinth < 4) && decide (line < 32)
  | .smbalert rail status => decide (rail < 20) && decide (status < 65536)
  | .domainIdleExpiry die dom | .domainWake die dom => decide (die < 12) && decide (dom < 12)
  | .bundleSleep link bundle => decide (link < 192) && decide (bundle < 48)

end Sys2Proof
end

