-- ==== Sys2Proof/Decode.lean ====
section
/-!
DEFINITION. Reading a command from a word. The spec gives the block's commands no encoding as words of one numbered bit string: no
row of spec/opcode_table.json has bits. Every word is therefore refused.
-/
namespace Sys2Proof

/-- The command a word spells by the table's bits: none, since no row gives any. -/
def decodeTableWord (_nbits _w : Nat) : Option Instr := none

end Sys2Proof
end

