-- ==== Sys2Proof/Config.lean ====
section
/-!
DEFINITION. What one part, one board or another standard fixes, and the free values of the model. Every constant here is opaque:
it has no body that a proof or an evaluation can use, so a statement holds whatever it is.

SM2, SM3, SM4 and HMAC are standards outside the spec (17: R502, R504); the model uses them as unknown functions (assumption
5). Free values (assumption 8) are applied to a counter of the state.
-/
namespace Sys2Proof.Config

open Sys2Proof

/-! ### Cryptography (17) -/

/-- SM3 of a byte string, 32 bytes. -/
opaque sm3 : List Byte → List Byte

/-- HMAC-SM3: key, message. -/
opaque hmacSm3 : List Byte → List Byte → List Byte

/-- Does a 64-byte SM2 signature verify: public key, message, signature. -/
opaque sm2Verify : List Byte → List Byte → List Byte → Bool

/-- Signature by the device identity key (17: R502, R509). -/
opaque signDik : List Byte → List Byte

/-- Signature by the attestation key made from the given measurements (17: R502, R510). -/
opaque signAk : List Byte → List Byte → List Byte

/-- Public key of the attestation key made from MR0, MR1 and MR2 (17: R502). -/
opaque akPub : List Byte → List Byte

/-- Public half of the device identity key (17: R502). -/
opaque dikPub : List Byte

/-- Certificate over the identity key, made at manufacture (17: R510). -/
opaque dikCert : List Byte

/-- The device's half of the SM2 key exchange of 12: R381: host key, R_A, draw, PARTITION, KEY_SLOT, MAILBOX. -/
opaque exchange : List Byte → List Byte → Nat → Nat → Nat → Nat → List Byte

/-- ROOT_HASH0, ROOT_HASH1 and SERVICE_HASH (17: R503). -/
opaque rootHash0 : List Byte
opaque rootHash1 : List Byte
opaque serviceHash : List Byte

/-! ### The part -/

/-- Unicast MAC address of the host port (12: R376). -/
opaque macAddress : Nat

/-- Die revision (07: R220). -/
opaque dieRevision : Nat → Nat

/-- Features past BASE and maker of a link end's capability word (07: R220; 21: R579). -/
opaque ownWord : Nat → Nat

/-- Revision of the boot ROM (17: R508). -/
opaque romRevision : List Byte

/-- The image that leaves the factory in bank A: header and body (18: R525). -/
opaque factoryHeader : List Byte
opaque factoryBody : List Byte

/-- The owner's public key of PT0 slot 3 (17: R506, R507). -/
opaque ownerKey : List Byte

/-- FORMAT of a key in an image's format table, none where the image does not read the key (18: R533). -/
opaque imageFormat : List Byte → Nat → Option Nat

/-- The section of an image body that a subordinate runs (17: R508; 14: R434). -/
opaque imageSection : List Byte → Nat → List Byte

/-- What the first sweep and fit after a start find, beacon by beacon: matrix entries (bank, place), residuals and line codes
(09: R293, R294, R297). -/
opaque startMatrix : Nat → Nat → Nat → Nat
opaque startResidual : Nat → Nat → Nat
opaque startLine : Nat → Nat → Nat
opaque startPeak : Nat → Nat → Nat

/-- Codes per degree of beacon rise in a ring's line-table entry (09: R291). -/
opaque codesPerDegree : Nat → Nat → Nat

/-- The bank in which a pseudo-channel holds the block of an index (06: R174). -/
opaque bankOf : Nat → Nat

/-! ### Free values -/

/-- A free number: a counter of the state, and a tag that tells uses apart. -/
opaque freeNat : Nat → Nat → Nat

/-- Flow keys of packets for which 07: R205 names none, by TYPE (assumption 76). -/
opaque flowKey : Nat → Nat

/-- The state from which a lane's scrambler starts, by λ (09: R279). -/
opaque prbsSeed : Nat → Nat

/-- The port, 16 times the beacon plus the port's number, that a switch configuration gives toward a node (08: R268; 09: R298; assumption 59). -/
opaque collPort : Nat → Nat → Nat

/-- Opcodes of the control packets by which a home sequencer tells the dies of a commit (0) or a squash (1) (assumption 71). -/
opaque controlCode : Nat → Nat

end Sys2Proof.Config
end

