-- ==== Sys2Proof/Machine/Bits.lean ====
section
/-!
DEFINITION. Bit fields, byte order, two's complement, saturating counters, CRCs, and the sparse tables and
the canonical memory in which the state keeps everything that is indexed.
-/
namespace Sys2Proof.Machine

open Sys2Proof

/-- Bits `hi` down to `lo` of a word (00: R8). -/
def bits (hi lo w : Nat) : Nat := (w / 2 ^ lo) % 2 ^ (hi + 1 - lo)

/-- Bit `i` of a word (00: R8). -/
def bit (i w : Nat) : Bool := w / 2 ^ i % 2 == 1

/-- A Bool as the bit it is. -/
def b2n (b : Bool) : Nat := if b then 1 else 0

/-- Two's-complement value of the low `w` bits. -/
def toSigned (w n : Nat) : Int :=
  let m := n % 2 ^ w
  if m < 2 ^ (w - 1) then (m : Int) else (m : Int) - (2 ^ w : Nat)

/-- Low `w` bits of an integer (02: R60, integer arithmetic wraps modulo 2^n). -/
def ofSigned (w : Nat) (i : Int) : Nat := (i % ((2 ^ w : Nat) : Int)).toNat

/-- Little-endian value of a byte string (00: R9). -/
def leNat : List Byte → Nat
  | [] => 0
  | b :: bs => b.toNat + 256 * leNat bs

/-- `n` bytes, little-endian (00: R9). -/
def leBytes : Nat → Nat → List Byte
  | 0, _ => []
  | k + 1, n => BitVec.ofNat 8 n :: leBytes k (n / 256)

/-- The `len`-byte little-endian field at byte `off` of a byte string. -/
def field (bs : List Byte) (off len : Nat) : Nat := leNat ((bs.drop off).take len)

/-- The bytes at `off`, `len` of them. -/
def slice (bs : List Byte) (off len : Nat) : List Byte := (bs.drop off).take len

/-- `bs` cut or zero-filled to exactly `n` bytes. -/
def padTo (n : Nat) (bs : List Byte) : List Byte := (bs ++ List.replicate (n - bs.length) 0).take n

/-- The sum that stops at the width's largest value (16: R484, saturating counters). -/
def satAdd (w a b : Nat) : Nat := min (a + b) (2 ^ w - 1)

/-- Serial comparison of `w`-bit numbers: `a` is newer than `b` (16: R482). -/
def serialNewer (w a b : Nat) : Bool :=
  let d := (a + 2 ^ w - b % 2 ^ w) % 2 ^ w
  0 < d && d < 2 ^ (w - 1)

/-- Sum modulo 2^w. -/
def addMod (w a b : Nat) : Nat := (a + b) % 2 ^ w

/-- Difference modulo 2^w. -/
def subMod (w a b : Nat) : Nat := (a % 2 ^ w + 2 ^ w - b % 2 ^ w) % 2 ^ w

/-- Exclusive or of the bits of a word: 1 when an odd number of bits is set. -/
def parity : Nat → Nat → Nat
  | 0, _ => 0
  | w + 1, n => (n % 2 + parity w (n / 2)) % 2

/-- Number of set bits among the low `w`. -/
def popCount : Nat → Nat → Nat
  | 0, _ => 0
  | w + 1, n => n % 2 + popCount w (n / 2)

/-- The positions of the set bits among bits `i` to `i + w - 1`, lowest first. -/
def setBits : Nat → Nat → Nat → List Nat
  | 0, _, _ => []
  | w + 1, i, n => if n % 2 = 1 then i :: setBits w (i + 1) (n / 2) else setBits w (i + 1) (n / 2)

/-! ### Sparse tables -/

/-- A table by key. Keys strictly rising; an unlisted key holds the default its reader names. -/
abbrev Tbl (α : Type) := List (Nat × α)

/-- The entry at a key, if one is listed. -/
def Tbl.get? {α : Type} : Tbl α → Nat → Option α
  | [], _ => none
  | (k, v) :: t, i => if k = i then some v else Tbl.get? t i

/-- The entry at a key, `d` where none is listed. -/
def Tbl.getD {α : Type} (t : Tbl α) (i : Nat) (d : α) : α := (Tbl.get? t i).getD d

/-- The table with `v` at key `i`. -/
def Tbl.set {α : Type} : Tbl α → Nat → α → Tbl α
  | [], i, v => [(i, v)]
  | (k, w) :: t, i, v =>
    if i < k then (i, v) :: (k, w) :: t
    else if i = k then (i, v) :: t
    else (k, w) :: Tbl.set t i v

/-- The table without key `i`. -/
def Tbl.erase {α : Type} (t : Tbl α) (i : Nat) : Tbl α := t.filter (fun p => p.1 ≠ i)

/-- The table with the entry at `i` (default `d`) changed by `f`. -/
def Tbl.upd {α : Type} (t : Tbl α) (i : Nat) (d : α) (f : α → α) : Tbl α := Tbl.set t i (f (Tbl.getD t i d))

/-- The table with the entry at `i` changed by `f` where one is listed. -/
def Tbl.adjust {α : Type} (t : Tbl α) (i : Nat) (f : α → α) : Tbl α :=
  t.map (fun p => if p.1 = i then (p.1, f p.2) else p)

/-- The table's values in key order. -/
def Tbl.vals {α : Type} (t : Tbl α) : List α := t.map (fun p => p.2)

/-- The table's keys in order. -/
def Tbl.keys {α : Type} (t : Tbl α) : List Nat := t.map (fun p => p.1)

/-- Is the key listed? -/
def Tbl.has {α : Type} (t : Tbl α) (i : Nat) : Bool := (Tbl.get? t i).isSome

/-- A list in order, equal items kept in theirs (insertion; structural, so that it evaluates). -/
def insertBy {α : Type} (le : α → α → Bool) (x : α) : List α → List α
  | [] => [x]
  | y :: ys => if le x y then x :: y :: ys else y :: insertBy le x ys

def sortBy {α : Type} (le : α → α → Bool) : List α → List α
  | [] => []
  | x :: xs => insertBy le x (sortBy le xs)

/-! ### Memory in canonical form (06: R173, R195; 03: R69, R74) -/

/-- Bytes by address: addresses strictly rising, no listed byte equal to the 0 that an unlisted address reads as
(06: R195 and 03: R74 zero every store before its first use). -/
abbrev Memory := List Host.Cell

/-- Does every entry of the list lie strictly above `a`, rising, and hold a non-zero byte? -/
def Memory.above : Nat → Memory → Bool
  | _, [] => true
  | a, (k, v) :: t => decide (a < k) && (v != 0) && Memory.above k t

/-- The canonical form. -/
def Memory.wf : Memory → Bool
  | [] => true
  | (k, v) :: t => (v != 0) && Memory.above k t

/-- One byte. -/
def Memory.read : Memory → Nat → Byte
  | [], _ => 0
  | (k, v) :: t, a => if k = a then v else Memory.read t a

/-- One byte written; writing 0 removes the entry. -/
def Memory.write : Memory → Nat → Byte → Memory
  | [], a, b => if b = 0 then [] else [(a, b)]
  | (k, v) :: t, a, b =>
    if a < k then (if b = 0 then (k, v) :: t else (a, b) :: (k, v) :: t)
    else if a = k then (if b = 0 then t else (a, b) :: t)
    else (k, v) :: Memory.write t a b

/-- Every byte of `[a, a + n)` returned to 0. -/
def Memory.clear (m : Memory) (a n : Nat) : Memory := m.filter (fun c => c.1 < a || a + n ≤ c.1)

/-! ### CRCs -/

/-- One reflected CRC step of `k` bits. -/
def crcBits (poly : Nat) : Nat → Nat → Nat
  | 0, c => c
  | k + 1, c => crcBits poly k (if c % 2 = 1 then Nat.xor (c / 2) poly else c / 2)

/-- A reflected CRC register run over bytes. -/
def crcRun (poly : Nat) (c : Nat) (bs : List Byte) : Nat :=
  bs.foldl (fun acc b => crcBits poly 8 (Nat.xor acc b.toNat)) c

/-- CRC-32C of a byte string: polynomial 0x1EDC6F41 reflected, register all ones at the start, result complemented
(07: R208, 10: R316, 11: R362 give the parameters). -/
def crc32c (bs : List Byte) : Nat := Nat.xor (crcRun 0x82F63B78 0xFFFFFFFF bs) 0xFFFFFFFF

/-- CRC-64/XZ of a byte string (11: R362). -/
def crc64xz (bs : List Byte) : Nat :=
  Nat.xor (crcRun 0xC96C5795D7870F42 0xFFFFFFFFFFFFFFFF bs) 0xFFFFFFFFFFFFFFFF

/-- Zero bytes up to a multiple of eight. -/
def pad8 (bs : List Byte) : List Byte := bs ++ List.replicate ((8 - bs.length % 8) % 8) 0

end Sys2Proof.Machine
end

