-- ==== Sys2Proof/Machine/Num.lean ====
section
/-!
DEFINITION. Number formats and exact arithmetic (02: R31 to R63): decoding every format to an exact value, rounding an
exact value to nearest even into every format, conversions, the canonical NaN, and the flags each result raises.
-/
namespace Sys2Proof.Machine

open Sys2Proof

/-- The four sticky exception flags of 02: R64. -/
structure Flags where
  overflow : Bool := false
  nanProduced : Bool := false
  saturation : Bool := false
  scaleClamp : Bool := false
  deriving DecidableEq, Repr

/-- No flag. -/
def Flags.none : Flags := ⟨false, false, false, false⟩

/-- Flags raised by either of two pieces of work. -/
def Flags.or (a b : Flags) : Flags :=
  ⟨a.overflow || b.overflow, a.nanProduced || b.nanProduced, a.saturation || b.saturation,
    a.scaleClamp || b.scaleClamp⟩

/-- Bits [3:0] of the stage status word (02: R64). -/
def Flags.word (f : Flags) : Nat :=
  b2n f.overflow + 2 * b2n f.nanProduced + 4 * b2n f.saturation + 8 * b2n f.scaleClamp

/-- The flags a 4-bit word names. -/
def Flags.ofWord (w : Nat) : Flags := ⟨bit 0 w, bit 1 w, bit 2 w, bit 3 w⟩

/-- An exact number or a special: `fin neg m e` is (-1)^neg * m * 2^e, zero keeping its sign. -/
inductive Fp where
  | nan
  | inf (neg : Bool)
  | fin (neg : Bool) (m : Nat) (e : Int)
  deriving DecidableEq, Repr

/-- What a format does with its top exponent (02: R36, R37). -/
inductive Specials where
  | ieee      -- Inf at mantissa 0, NaN elsewhere
  | e4m3      -- NaN only, at mantissa 7
  | none
  deriving DecidableEq, Repr

/-- A binary floating-point layout (02: R36, R37). -/
structure FloatFmt where
  ebits : Nat
  mbits : Nat
  bias : Nat
  specials : Specials
  deriving DecidableEq, Repr

/-- Every element format of 02: R36 to R40 and R42. -/
inductive Fmt where
  | fp64 | fp32 | bf16 | fp16 | e5m2 | e4m3 | e3m2 | e2m3 | e2m1 | mxint8 | int8 | int4 | int32 | int64
  deriving DecidableEq, Repr

/-- The layout of a floating-point format; none for the integers and MXINT8. -/
def Fmt.float? : Fmt → Option FloatFmt
  | .fp64 => some ⟨11, 52, 1023, .ieee⟩
  | .fp32 => some ⟨8, 23, 127, .ieee⟩
  | .bf16 => some ⟨8, 7, 127, .ieee⟩
  | .fp16 => some ⟨5, 10, 15, .ieee⟩
  | .e5m2 => some ⟨5, 2, 15, .ieee⟩
  | .e4m3 => some ⟨4, 3, 7, .e4m3⟩
  | .e3m2 => some ⟨3, 2, 3, .none⟩
  | .e2m3 => some ⟨2, 3, 1, .none⟩
  | .e2m1 => some ⟨2, 1, 1, .none⟩
  | .mxint8 | .int8 | .int4 | .int32 | .int64 => Option.none

/-- Width of one element in bits (02: R36, R37, R40). -/
def Fmt.width : Fmt → Nat
  | .fp64 | .int64 => 64
  | .fp32 | .int32 => 32
  | .bf16 | .fp16 => 16
  | .e5m2 | .e4m3 | .mxint8 | .int8 => 8
  | .e3m2 | .e2m3 => 6
  | .e2m1 | .int4 => 4

/-- The formats that carry a shared scale (02: R37, R39). -/
def Fmt.isMx : Fmt → Bool
  | .e5m2 | .e4m3 | .e3m2 | .e2m3 | .e2m1 | .mxint8 => true
  | _ => false

/-- The MX floating formats. -/
def Fmt.isMxFp (f : Fmt) : Bool := f.isMx && f != .mxint8

/-- The plain integers. -/
def Fmt.isInt : Fmt → Bool
  | .int8 | .int4 | .int32 | .int64 => true
  | _ => false

/-- emax of the element table (02: R37). -/
def Fmt.emax : Fmt → Int
  | .e5m2 => 15 | .e4m3 => 8 | .e3m2 => 4 | .e2m3 => 2 | .e2m1 => 2 | _ => 0

/-- The exact value of a code in a floating layout (02: R36). -/
def FloatFmt.decode (f : FloatFmt) (w : Nat) : Fp :=
  let m := w % 2 ^ f.mbits
  let e := w / 2 ^ f.mbits % 2 ^ f.ebits
  let s := w / 2 ^ (f.mbits + f.ebits) % 2 == 1
  let top := e == 2 ^ f.ebits - 1
  let value : Fp :=
    if e = 0 then .fin s m (1 - (f.bias : Int) - f.mbits)
    else .fin s (2 ^ f.mbits + m) ((e : Int) - f.bias - f.mbits)
  match f.specials with
  | .ieee => if top then (if m = 0 then .inf s else .nan) else value
  | .e4m3 => if top && m == 7 then .nan else value
  | .none => value

/-- The integer as an exact number. -/
def Fp.ofInt (i : Int) : Fp := .fin (i < 0) i.natAbs 0

/-- The exact value of an element code (02: R36 to R40). -/
def Fmt.decode (f : Fmt) (w : Nat) : Fp :=
  match f.float? with
  | some l => l.decode w
  | Option.none =>
    match f with
    | .mxint8 => let i := toSigned 8 w; .fin (i < 0) i.natAbs (-6)      -- R38
    | .int8 => Fp.ofInt (toSigned 8 w)
    | .int4 => Fp.ofInt (toSigned 4 w)
    | .int32 => Fp.ofInt (toSigned 32 w)
    | _ => Fp.ofInt (toSigned 64 w)

/-- The canonical quiet NaN of a floating layout (02: R34). -/
def FloatFmt.nanCode (f : FloatFmt) : Nat :=
  match f.specials with
  | .e4m3 => 2 ^ (f.ebits + f.mbits) - 1
  | _ => (2 ^ f.ebits - 1) * 2 ^ f.mbits + 2 ^ (f.mbits - 1)

/-- Magnitude code of infinity in an IEEE-style layout. -/
def FloatFmt.infMag (f : FloatFmt) : Nat := (2 ^ f.ebits - 1) * 2 ^ f.mbits

/-- Magnitude code of the largest finite value (02: R36, R37). -/
def FloatFmt.maxMag (f : FloatFmt) : Nat :=
  match f.specials with
  | .ieee => f.infMag - 1
  | .e4m3 => 2 ^ (f.ebits + f.mbits) - 2
  | .none => 2 ^ (f.ebits + f.mbits) - 1

/-- The sign bit in place. -/
def FloatFmt.signed (f : FloatFmt) (neg : Bool) (mag : Nat) : Nat := b2n neg * 2 ^ (f.ebits + f.mbits) + mag

/-- m / 2^k rounded to nearest, ties to even (02: R32). -/
def shiftRne (m k : Nat) : Nat :=
  let q := m / 2 ^ k
  let r := 2 * (m % 2 ^ k)
  if r > 2 ^ k then q + 1 else if r = 2 ^ k then q + q % 2 else q

/-- m * 2^e rounded to an integer to nearest even. -/
def scaleRne (m : Nat) (e : Int) : Nat := if 0 ≤ e then m * 2 ^ e.toNat else shiftRne m (-e).toNat

/-- Magnitude code of m * 2^e rounded to nearest even, without the limit of the format's range: codes of a binary
floating format are ordered as its values, so a value beyond the range gets a code beyond `maxMag`. -/
def FloatFmt.roundMag (f : FloatFmt) (m : Nat) (e : Int) : Nat :=
  if m = 0 then 0
  else
    let emin : Int := 1 - f.bias
    let top := (m.log2 : Int) + e
    let expo := if top < emin then emin else top
    let q := expo - f.mbits
    let r := scaleRne m (e - q)          -- r < 2^(mbits+1), or equal to it after a carry
    (expo - emin).toNat * 2 ^ f.mbits + r

/-- Round an exact value into a floating format under RNE: overflow gives Inf and sets the overflow flag, or with `sat` the
largest finite value and the saturation flag (02: R32, R33, R34, R41). A format without Inf always saturates (R44). -/
def FloatFmt.encode (f : FloatFmt) (sat : Bool) : Fp → Nat × Flags
  | .nan => (f.nanCode, Flags.none)
  | .inf s =>
    match f.specials with
    | .ieee => (f.signed s f.infMag, Flags.none)
    | _ => (f.signed s f.maxMag, { Flags.none with saturation := true })
  | .fin s m e =>
    let mag := f.roundMag m e
    if mag ≤ f.maxMag then (f.signed s mag, Flags.none)
    else
      match f.specials, sat with
      | .ieee, false => (f.signed s f.infMag, { Flags.none with overflow := true })
      | _, _ => (f.signed s f.maxMag, { Flags.none with saturation := true })

/-- Conversion to a two's-complement integer of `w` bits: RNE, saturating; NaN gives 0 (02: R42). -/
def toIntSat (w : Nat) : Fp → Nat × Flags
  | .nan => (0, { Flags.none with saturation := true })
  | .inf s => (if s then 2 ^ (w - 1) else 2 ^ (w - 1) - 1, { Flags.none with saturation := true })
  | .fin s m e =>
    let r := scaleRne m e
    if s then
      if r ≤ 2 ^ (w - 1) then (ofSigned w (-(r : Int)), Flags.none)
      else (2 ^ (w - 1), { Flags.none with saturation := true })
    else
      if r < 2 ^ (w - 1) then (r, Flags.none) else (2 ^ (w - 1) - 1, { Flags.none with saturation := true })

/-- An element of an MX block or a scalar: the code an exact value takes in a format. `sat` is the SATFINITE option.
For the MX elements the value has already been divided by the block's scale (02: R41 to R44). -/
def Fmt.encode (f : Fmt) (sat : Bool) (v : Fp) : Nat × Flags :=
  match f.float? with
  | some l => l.encode (sat || f.isMx) v
  | Option.none =>
    match f with
    | .mxint8 =>
      match v with
      | .nan => (0, { Flags.none with nanProduced := true })
      | .inf s => (if s then 0x81 else 0x7F, { Flags.none with saturation := true })   -- R38, R44: symmetric
      | .fin s m e =>
        let r := scaleRne m (e + 6)
        let c := min r 127
        (if s then ofSigned 8 (-(c : Int)) else c, { Flags.none with saturation := decide (127 < r) })
    | .int8 => toIntSat 8 v
    | .int4 => toIntSat 4 v
    | .int32 => toIntSat 32 v
    | _ => toIntSat 64 v

/-- Is the code a NaN of its format? -/
def Fmt.isNan (f : Fmt) (w : Nat) : Bool := f.decode w == .nan

/-- A code as a result: a NaN in its canonical form (02: R34). -/
def Fmt.canon (f : Fmt) (c : Nat) : Nat :=
  match f.float? with
  | some l => if f.isNan c then l.nanCode else c
  | none => c

/-! ### Exact operations -/

/-- Is the value a zero? -/
def Fp.isZero : Fp → Bool
  | .fin _ 0 _ => true
  | _ => false

/-- Signed mantissa over a common exponent. -/
def alignTo (e0 : Int) (s : Bool) (m : Nat) (e : Int) : Int :=
  let v : Int := (m * 2 ^ (e - e0).toNat : Nat)
  if s then -v else v

/-- The value with its sign turned. -/
def Fp.neg : Fp → Fp
  | .nan => .nan
  | .inf s => .inf (!s)
  | .fin s m e => .fin (!s) m e

/-- The value without its sign. -/
def Fp.abs : Fp → Fp
  | .nan => .nan
  | .inf _ => .inf false
  | .fin _ m e => .fin false m e

/-- Exact sum, and whether a NaN was created from operands that are not NaN (02: R35, R50). An exact zero sum of operands of
unlike sign is +0 (IEEE 754 under RNE). -/
def Fp.add : Fp → Fp → Fp × Bool
  | .nan, _ => (.nan, false)
  | _, .nan => (.nan, false)
  | .inf s, .inf t => if s = t then (.inf s, false) else (.nan, true)
  | .inf s, .fin _ _ _ => (.inf s, false)
  | .fin _ _ _, .inf t => (.inf t, false)
  | .fin s m e, .fin t n f =>
    let e0 := min e f
    let v := alignTo e0 s m e + alignTo e0 t n f
    if v = 0 then (.fin (s && t) 0 e0, false) else (.fin (v < 0) v.natAbs e0, false)

/-- Exact product (02: R35: 0 times Inf creates a NaN). -/
def Fp.mul : Fp → Fp → Fp × Bool
  | .nan, _ => (.nan, false)
  | _, .nan => (.nan, false)
  | .inf s, .inf t => (.inf (s != t), false)
  | .inf s, .fin t m _ => if m = 0 then (.nan, true) else (.inf (s != t), false)
  | .fin s m _, .inf t => if m = 0 then (.nan, true) else (.inf (s != t), false)
  | .fin s m e, .fin t n f => (.fin (s != t) (m * n) (e + f), false)

/-- Exact a * b + c. -/
def Fp.fma (a b c : Fp) : Fp × Bool :=
  let p := Fp.mul a b
  let r := Fp.add p.1 c
  (r.1, (p.2 && c != .nan) || r.2)

/-- The value times 2^k. -/
def Fp.scale (k : Int) : Fp → Fp
  | .nan => .nan
  | .inf s => .inf s
  | .fin s m e => .fin s m (e + k)

/-- Numeric order of two values that are not NaN: `a < b`. -0 and +0 are equal. -/
def Fp.lt : Fp → Fp → Bool
  | .nan, _ => false
  | _, .nan => false
  | .inf s, .inf t => s && !t
  | .inf s, .fin _ _ _ => s
  | .fin _ _ _, .inf t => !t
  | .fin s m e, .fin t n f =>
    let e0 := min e f
    decide (alignTo e0 s m e < alignTo e0 t n f)

/-- Numeric equality; a NaN equals nothing. -/
def Fp.eq (a b : Fp) : Bool := a != .nan && b != .nan && !Fp.lt a b && !Fp.lt b a

/-- floor(log2 v) of a finite non-zero magnitude. -/
def Fp.ilog2 : Fp → Int
  | .fin _ m e => (m.log2 : Int) + e
  | _ => 0

/-! ### One rounded operation in a scalar format -/

/-- Round the exact result of an operation into `f`, adding the NaN-produced flag (02: R32, R34, R35, R60). -/
def roundResult (f : Fmt) (sat : Bool) (r : Fp × Bool) : Nat × Flags :=
  let e := f.encode sat r.1
  (e.1, Flags.or e.2 { Flags.none with nanProduced := r.2 })

/-- Correctly rounded sum. -/
def fAdd (f : Fmt) (a b : Nat) : Nat × Flags := roundResult f false (Fp.add (f.decode a) (f.decode b))

/-- Correctly rounded difference. -/
def fSub (f : Fmt) (a b : Nat) : Nat × Flags := roundResult f false (Fp.add (f.decode a) (f.decode b).neg)

/-- Correctly rounded product. -/
def fMul (f : Fmt) (a b : Nat) : Nat × Flags := roundResult f false (Fp.mul (f.decode a) (f.decode b))

/-- Correctly rounded fused multiply-add. -/
def fFma (f : Fmt) (a b c : Nat) : Nat × Flags :=
  roundResult f false (Fp.fma (f.decode a) (f.decode b) (f.decode c))

/-! ### MX blocks -/

/-- One MX block: its scale byte and its element codes (02: R39). -/
structure MxBlock where
  scale : Nat
  elems : List Nat
  deriving DecidableEq, Repr

/-- Value of element code `p` under scale `x` (02: R39). -/
def mxValue (f : Fmt) (x p : Nat) : Fp := if x = 0xFF then .nan else (f.decode p).scale ((x : Int) - 127)

/-- The largest finite magnitude of a block (02: R43). -/
def mxAmax (vs : List Fp) : Fp :=
  vs.foldl (fun a v => match v with
    | .fin _ m e => if Fp.lt a (.fin false m e) then .fin false m e else a
    | _ => a) (.fin false 0 0)

/-- Conversion of one block to an MX format (02: R43, R44). -/
def toMx (f : Fmt) (vs : List Fp) : MxBlock × Flags :=
  if vs.any (fun v => v == .nan) then
    (⟨0xFF, vs.map (fun _ => 0)⟩, { Flags.none with nanProduced := true })
  else
    let amax := mxAmax vs
    let zero := amax.isZero
    let e0 : Int := if zero then -127 else amax.ilog2 - f.emax
    let e : Int := if e0 < -127 then -127 else if 127 < e0 then 127 else e0
    let clampF : Flags := { Flags.none with scaleClamp := decide (e ≠ e0) }
    let rs := vs.map (fun v => match v with
      | .inf s => f.encode true (.inf s)
      | _ => if zero then (0, Flags.none) else f.encode true (v.scale (-e)))
    (⟨(e + 127).toNat, rs.map Prod.fst⟩, rs.foldl (fun acc r => Flags.or acc r.2) clampF)

/-! ### Accumulation (02: R31, R46 to R50) -/

/-- Exact sum of a list of exact values, with the NaN-created mark. -/
def sumExact (vs : List (Fp × Bool)) : Fp × Bool :=
  vs.foldl (fun acc v =>
    let r := Fp.add acc.1 v.1
    (r.1, acc.2 || v.2 || r.2)) (.fin false 0 0, false)

/-- One rounding of `acc + t` into the FP32 accumulator: the flags of R50 cover a T beyond the range too, since T itself is
then already infinite. -/
def accAdd (acc : Nat) (t : Fp × Bool) : Nat × Flags :=
  -- a scaled group sum beyond the FP32 range becomes Inf and sets overflow (R50)
  let t1 : Fp × Flags := match t.1 with
    | .fin s m e =>
      if (FloatFmt.roundMag ⟨8, 23, 127, .ieee⟩ m e) ≤ FloatFmt.maxMag ⟨8, 23, 127, .ieee⟩ then (.fin s m e, Flags.none)
      else (.inf s, { Flags.none with overflow := true })
    | v => (v, Flags.none)
  let r := roundResult .fp32 false (Fp.add (Fmt.decode .fp32 acc) t1.1)
  (r.1, Flags.or r.2 (Flags.or t1.2 { Flags.none with nanProduced := t.2 }))

/-- One MX block pair: the 32 exact products summed exactly (the 72-bit tree holds every such sum, R46), times both scales. -/
def mxGroup (fa fb : Fmt) (xa xb : Nat) (as bs : List Nat) : Fp × Bool :=
  if xa = 0xFF || xb = 0xFF then (.nan, false)
  else
    let ps := List.zipWith (fun a b => Fp.mul (fa.decode a) (fb.decode b)) as bs
    let s := sumExact ps
    (s.1.scale ((xa : Int) - 127 + ((xb : Int) - 127)), s.2)

/-- The product of largest magnitude's leading-bit position among finite non-zero products (R47). -/
def leadOf (ps : List (Fp × Bool)) : Option Int :=
  ps.foldl (fun acc p => match p.1 with
    | .fin _ 0 _ => acc
    | .fin _ m e => let l := (m.log2 : Int) + e
                    match acc with
                    | Option.none => some l
                    | some a => some (if a < l then l else a)
    | _ => acc) Option.none

/-- A product's bits that stand at or above 2^q, truncated toward zero (R47). -/
def truncBelow (q : Int) : Fp → Fp
  | .fin s m e => if e < q then .fin s (m / 2 ^ (q - e).toNat) q else .fin s m e
  | v => v

/-- One group of 16 BF16 or FP16 products in the 80-bit group adder: least significant bit 2^-72 of the leading bit of
the largest product, dropped bits truncated toward zero (02: R47). -/
def groupAdd (f : Fmt) (as bs : List Nat) : Fp × Bool :=
  let ps := List.zipWith (fun a b => Fp.mul (f.decode a) (f.decode b)) as bs
  match leadOf ps with
  | Option.none => sumExact ps
  | some l => sumExact (ps.map (fun p => (truncBelow (l - 72) p.1, p.2)))

/-- The INT32 accumulator after one K tile's exact sum: it stops at the INT32 limits and sets overflow (02: R48). -/
def accAddInt (acc : Nat) (t : Int) : Nat × Flags :=
  let v := toSigned 32 acc + t
  if v > 2 ^ 31 - 1 then (2 ^ 31 - 1, { Flags.none with overflow := true })
  else if v < -(2 ^ 31) then (2 ^ 31, { Flags.none with overflow := true })
  else (ofSigned 32 v, Flags.none)

/-! ### Slice mode (02: R55 to R59) -/

/-- The exponent s for which the largest finite magnitude times 2^s lies in [2^53, 2^54); 0 for an all-zero line (R55). -/
def sliceExp (vs : List Fp) : Int :=
  let a := mxAmax vs
  if a.isZero then 0 else 53 - a.ilog2

/-- N = v * 2^s rounded to an integer by RNE (R55). -/
def sliceInt (s : Int) : Fp → Int
  | .fin neg m e => let r : Int := scaleRne m (e + s); if neg then -r else r
  | _ => 0

/-- Seven signed digits of N, d(0) first: 56-bit two's-complement bytes with a carry for each byte of 128 or more (R55). -/
def sliceDigits (n : Int) : List Int :=
  let w := ofSigned 56 n
  let rec go : Nat → Nat → Nat → List Int
    | 0, _, _ => []
    | k + 1, v, c =>
      let b := v % 256 + c
      -- the top byte (k = 0) keeps its sign; a lower byte of 128 or more passes 1 upward
      if k = 0 then [toSigned 8 b]
      else if b ≥ 128 then ((b : Int) - 256) :: go k (v / 256) 1 else (b : Int) :: go k (v / 256) 0
  (go 7 w 0).reverse

/-- The 28 digit pairs i + j ≤ 6, from the largest i + j to the smallest (R56, R57). -/
def slicePairs : List (Nat × Nat) :=
  ((List.range 7).reverse).flatMap (fun t => (List.range (t + 1)).map (fun i => (i, t - i)))

/-- One INT32 slice product times 2^(8(12-i-j)-sr-sc), an exact FP64 term, added to the FP64 running sum under RNE (R57). -/
def sliceTerm (acc : Nat) (v : Int) (i j : Nat) (sr sc : Int) : Nat × Flags :=
  let t : Fp := .fin (v < 0) v.natAbs (8 * ((12 : Int) - i - j) - sr - sc)
  roundResult .fp64 false (Fp.add (Fmt.decode .fp64 acc) t)

end Sys2Proof.Machine
end

