-- ==== Sys2Proof/Machine/Store.lean ====
section
/-!
DEFINITION. A byte store whose contents the spec may leave undefined for a while: the memory in canonical form, and the runs of bytes that
hold free values until something writes them (11: R363, R367; 13: R410; 16: R481).
-/
namespace Sys2Proof.Machine

open Sys2Proof

/-- Runs of undefined bytes: first address, length, and the number that their free values are drawn by (assumption 8). -/
abbrev Fog := List (Nat × Nat × Nat)

/-- The runs without the bytes of `[a, a + n)`. -/
def Fog.cut (f : Fog) (a n : Nat) : Fog :=
  f.flatMap (fun e =>
    (if e.1 < a then [(e.1, min e.2.1 (a - e.1), e.2.2)] else []) ++
      (if a + n < e.1 + e.2.1 then [(max e.1 (a + n), e.1 + e.2.1 - max e.1 (a + n), e.2.2)] else []))

/-- The run that an address lies in, if it is undefined. -/
def Fog.at? (f : Fog) (a : Nat) : Option (Nat × Nat × Nat) := f.find? (fun e => decide (e.1 ≤ a) && decide (a < e.1 + e.2.1))

/-- A byte store: HBM of the package, or the local store of a stage. -/
structure Store where
  cells : Memory := []
  fog : Fog := []
  deriving DecidableEq, Repr

/-- One byte: a free value where it is undefined. -/
def Store.read (m : Store) (a : Nat) : Byte :=
  match m.fog.at? a with
  | some e => BitVec.ofNat 8 (Config.freeNat e.2.2 a)
  | none => m.cells.read a

/-- One byte written. -/
def Store.write (m : Store) (a : Nat) (b : Byte) : Store := { cells := m.cells.write a b, fog := m.fog.cut a 1 }

/-- `n` bytes from `a` upward. -/
def Store.readN (m : Store) (a : Nat) : Nat → List Byte
  | 0 => []
  | n + 1 => m.read a :: m.readN (a + 1) n

/-- A byte string written from `a` upward. -/
def Store.writeN : Store → Nat → List Byte → Store
  | m, _, [] => m
  | m, a, b :: bs => Store.writeN (m.write a b) (a + 1) bs

/-- A byte string written under a byte mask (the first mask entry governs the first byte). -/
def Store.writeMasked : Store → Nat → List Byte → List Bool → Store
  | m, a, b :: bs, e :: es => Store.writeMasked (if e then m.write a b else m) (a + 1) bs es
  | m, _, _, _ => m

/-- Every byte of `[a, a + n)` left undefined; `seed` draws their values. -/
def Store.undefine (m : Store) (a n seed : Nat) : Store :=
  if n = 0 then m else { cells := m.cells.clear a n, fog := m.fog.cut a n ++ [(a, n, seed)] }

end Sys2Proof.Machine
end

