-- ==== Sys2Proof/Machine/TypesStage.lean ====
section
/-!
DEFINITION. State of the compute stages, the held-store buffers and the pipelines (03; 04; 05).
-/
namespace Sys2Proof.Machine

open Sys2Proof

/-- STATE of the stage status word (03: R111). -/
inductive StageSt where
  | free | bound | running | draining | fault | fenced | zeroing
  deriving DecidableEq, Repr

/-- The code of a stage state (03: R111). -/
def StageSt.code : StageSt → Nat
  | .free => 0 | .bound => 1 | .running => 2 | .draining => 3 | .fault => 4 | .fenced => 5 | .zeroing => 6

/-- RTYPE of a record (03: R77; 07: R212). -/
inductive RecType where
  | data | batchEnd | gapMark
  deriving DecidableEq, Repr

/-- One stream record in a FIFO (03: R77, 05: R146). `stamp` orders arrivals at one port (04: R134). -/
structure Rec where
  typ : RecType
  segEnd : Bool
  epoch : Nat
  payload : List Byte
  stamp : Nat := 0
  deriving DecidableEq, Repr

/-- One request of a G-stage window (03: R100 to R104): `addr` and `len` are what it asks memory for, `pa` and `pn` the bytes its
entry takes of that. A request with a `leader` is served by that one's response. -/
structure GReq where
  tag : Nat
  window : Nat
  epoch : Nat
  addr : Nat
  len : Nat
  pa : Nat
  pn : Nat
  item : Nat              -- the item it belongs to, and the entry of it
  ent : Nat
  issuedAt : Nat          -- reference count of its die at issue (LAT_SUM_REF)
  issued : Bool := true   -- false: an atomic or a read held until its epoch commits
  op : Option Nat := none -- atomic operation code
  operand : List Byte := []
  leader : Option Nat := none
  discard : Bool := false
  status : Option Nat := none   -- completed with this status (08: R243)
  data : List Byte := []
  deriving DecidableEq, Repr

/-- What a window emits in turn: the entries of one index record, one record of a LOAD, or a part of a CSR row in one of its phases
(0 row pointers, 1 columns and values, 2 x, 3 complete, 4 the part of the row that is still to be read, 5 the record that names the rows). -/
structure GItem where
  id : Nat
  epoch : Nat
  window : Nat
  bytes : Nat                       -- bytes of each entry
  pos : Nat                         -- position of its first entry in the batch
  segEnd : Bool := false
  todo : List (Option Nat) := []    -- entries not yet issued
  asks : List (Nat × Nat × Nat × Nat) := []   -- pieces of issued entries not yet asked for: entry, region, address, bytes
  gone : Nat := 0                   -- bytes emitted
  row : Nat := 0                    -- CSR_WALK: the row, by the item that began it
  rest : Nat × Nat := (0, 0)        -- CSR_WALK: positions of the row still to be read
  nulls : List Nat := []            -- null entries
  count : Nat := 0                  -- entries issued, null ones included
  operands : List Byte := []        -- ATOMIC: operands of the entries still to issue
  sent : List Nat := []             -- ARRIVAL: entries emitted
  phase : Nat := 0
  cols : List Nat := []
  vals : List Byte := []
  xs : List Byte := []
  deriving DecidableEq, Repr

/-- A saved V row (05: R155). -/
structure UndoRow where
  row : Nat
  epoch : Nat
  bytes : List Byte
  deriving DecidableEq, Repr

/-- One segment's state in an S-stage (03: R108, R109). -/
structure SSeg where
  m : Nat := 0xFF800000     -- FP32 -Inf: the running maximum before any input (02: R62)
  s : Nat := 0
  pos : Nat := 0
  best : List (Nat × Nat) := []   -- top-k so far: value code, identifier; best first
  deriving DecidableEq, Repr

/-- M-stage cursor and accumulators (03: R84, R85, R89, R592). A tile is listed by entry r * 512 + c. -/
structure MState where
  rt : Nat := 0             -- row tile
  nt : Nat := 0             -- column tile
  kt : Nat := 0             -- K tile or chunk
  pair : Nat := 0           -- digit pair of GEMM_SLICE
  row : Nat := 0            -- next row of the row tile
  started : Bool := false   -- the tile in use holds its C0
  c0Row : Nat := 0          -- rows of C0 taken from IN1
  tile : Tbl Nat := []      -- accumulator tile in use
  full : Bool := false      -- it is finished and waits for the other tile to drain
  drain : Option (Nat × Nat × Nat) := none  -- the tile that drains: row tile, column tile, next line
  drainTile : Tbl Nat := []
  bCur : Option (List Byte) := none   -- B tile from IN1 in the cells
  bShadow : List Byte := []     -- B bytes taken into shadow
  aPart : List Byte := []       -- A row bytes taken from IN0 so far
  computed : Bool := false      -- every tile of the batch is computed
  deriving DecidableEq, Repr

/-- V-stage run (04: R123, R124; 03: R95). -/
structure VState where
  ip : Nat := 0
  run0 : Option Rec := none
  run1 : Option Rec := none
  inRun : Bool := false
  ran : Bool := false          -- a stage without data input has made its run of the batch
  atEnd : Bool := false        -- the BATCH_END_ONLY pass is under way
  ended : Bool := false        -- and done
  seg : Nat := 0               -- segment counter s
  acc : Tbl Nat := []          -- running reduction per instruction (03: R93)
  pos : Nat × Nat := (0, 0)    -- bytes stored so far by descriptors 0 and 1
  posKey : Option (Nat × Nat) := none   -- invocation and repetition they count in
  snaps : List (Nat × Nat × Nat) := []  -- their values at the start of each epoch
  undo : List UndoRow := []
  sliceTerm : Nat := 0         -- records of the slice stream taken in this batch
  stores : List (Nat × Nat) := []       -- stores under way: tag, epoch
  nextTag : Nat := 0
  line : Tbl (List Nat) := []  -- SLICE_SPLIT, per instruction: elements of the line taken so far (02: R55)
  run2 : Option (Nat × Rec) := none     -- the index record of the run, with its producer's place (04: R124)
  placed : Nat := 0            -- requests of the STORE or SCATTER at hand already in the held-store buffer (05: R153)
  waitHeld : Bool := false     -- stopped for a full held-store buffer (05: R153)
  undoWait : Option Nat := none         -- stopped for a 65th undo row until this epoch commits (05: R155)
  deriving DecidableEq, Repr

/-- G-stage windows and hints (03: R100 to R105; 05: R158, R159). `ended` lists the batches whose inputs have ended here while their work goes
on; what stands under `pos`, `loaded`, `loadDone` and `histNow` belongs to the batch that the stage takes up. -/
structure GState where
  ended : List Nat := []             -- epochs
  windows : List (Nat × Nat) := []   -- window number, epoch
  reqs : List GReq := []
  items : List GItem := []
  nextTag : Nat := 0
  nextItem : Nat := 0
  pos : Nat := 0                     -- position within the batch
  hist : List Nat := []              -- ROUTE_HISTORY of the last finished batch
  histNow : List Nat := []           -- of the batch in progress
  lastRange : Option (Nat × Nat) := none
  loaded : Nat := 0                  -- LOAD: bytes of the span requested
  loadDone : Bool := false           -- LOAD: the whole span is requested
  rowPtrs : List (Nat × List Byte) := []   -- row-pointer blocks of the batch last read, newest first: address and bytes (03: R105)
  curRow : Option Nat := none        -- CSR_WALK: the row whose records are being emitted
  hintQ : List (Nat × Nat) := []     -- hints waiting: epoch, address (05: R150)
  deriving DecidableEq, Repr

/-- S-stage buffers (03: R108 to R110). -/
structure SState where
  segs : Tbl SSeg := []                  -- open segments
  block : List (Nat × Nat) := []         -- the block being filled: value, identifier
  blockIdx : Nat := 0                    -- blocks closed in the batch
  ids : List Nat := []                   -- identifiers taken from IN1 and not yet paired
  cur : Tbl (List (Nat × Nat)) := []     -- TOPK_MERGE: list in progress, by producer
  listNo : Tbl Nat := []                 -- lists finished, by producer
  lists : Tbl (Nat × List (Nat × Nat)) := []   -- by group: lists that have come, their entries
  deriving DecidableEq, Repr

/-- One compute stage (03). Its key is 30 * die + unit, units in the order of 07: R594. -/
structure Stage where
  st : StageSt := .free
  flags : Flags := Flags.none
  lsCe : Bool := false
  cause : Nat := 0
  partition : Nat := 0
  store : Store := {}
  bind : Option (Nat × Nat) := none      -- pipeline, stage-table index
  headEpoch : Option Nat := none         -- HEAD_EPOCH (05: R149); none until a batch has been head
  pendFlags : List (Nat × Flags) := []   -- by epoch (02: R66)
  ports : Tbl (Option Nat) := []         -- producer in mid-segment on each input port (04: R134)
  turns : Tbl Nat := []                  -- ROUND turn of each input port
  paired : List (Nat × Nat) := []        -- ARRIVAL from the same producers: a port and the producer stage it has to take next (04: R134)
  outbox : List (Nat × Bool × List Byte) := []   -- records not yet sent: port, SEG_END, payload (03: R78)
  m : MState := {}
  v : VState := {}
  g : GState := {}
  s : SState := {}
  counters : Tbl Nat := []               -- 03: R114, in table order
  busyTest : Bool := false               -- stage test under way (16: R479)
  lastPass : Nat := 0
  deriving DecidableEq, Repr

/-- One held store request (05: R153). -/
structure HeldStore where
  stage : Nat
  epoch : Nat
  pipe : Nat
  region : Nat
  addr : Nat
  data : List Byte
  mask : List Bool
  deriving DecidableEq, Repr

/-- STATE of a pipeline (04: R142). -/
inductive PipeSt where
  | idle | running | draining | suspended | failed | releasing
  deriving DecidableEq, Repr

/-- The code of a pipeline state (04: R142). -/
def PipeSt.code : PipeSt → Nat
  | .idle => 1 | .running => 2 | .draining => 3 | .suspended => 4 | .failed => 5 | .releasing => 6

/-- One queued or running invocation (04: R135 to R137; 13: R409). -/
structure Inv where
  seq : Nat
  mailbox : Nat
  nb : Nat
  bases : List Nat
  repeatMax : Nat
  after : Option Nat := none
  predict : Nat := 3
  admitted : Nat := 0       -- batches admitted: number t is batch t mod NB of repetition t div NB
  done : Nat := 0           -- batches completed in the current repetition
  reps : Nat := 0           -- repetitions completed
  tokens : Nat := 0
  squashed : Nat := 0
  exc : Flags := Flags.none
  control : Nat := 0
  controlIn : Bool := false -- the control word of this repetition has come
  endFlags : Nat := 0
  ending : Option Nat := none    -- status with which it will end
  stopped : Bool := false        -- a stop in mode DRAIN came before its last BATCH_END had left every stage (04: R144)
  deriving DecidableEq, Repr

/-- One admitted batch (05: R146, R148). -/
structure Batch where
  epoch : Nat
  inv : Nat                 -- INVOCATION_SEQ
  index : Nat
  rep : Nat
  stagesDone : List Nat := []    -- stage-table indices that have finished it
  stores : Nat := 0              -- stores and atomics not yet complete at home
  gap : Bool := false            -- a gap mark follows it (04: R141)
  taken : Tbl Nat := []          -- input records taken, by stage-table index
  unit : Nat := 0                -- number of the unit that a BATCH load with PINGPONG loads for it (04: R128)
  tokens : Nat := 0              -- tokens spent for it (04: R137; 05: R145)
  deriving DecidableEq, Repr

/-- A source's token bucket and feed position (04: R127, R138, R139; levels in 1/65,536 tokens). -/
structure SrcState where
  level : Nat := 0
  ref : Nat := 1250 * 65536
  fed : Nat := 0            -- records of the current batch delivered
  done : List Nat := []     -- epochs of admitted batches delivered whole
  spent : Nat := 0          -- tokens spent since the last refill
  recent : List Nat := []   -- tokens spent in each of the last 1,000 µs at F = 1 with work, newest first
  deriving DecidableEq, Repr

/-- One stream's receive FIFO, credits and the records on their way (04: R133, R134). -/
structure StreamSt where
  fifo : List Rec := []
  wire : List Rec := []              -- records on their way, the oldest first; between dies, their place in the hubs' queues of TC4
  hub : Nat := 0                     -- of these, the oldest ones that stand at the hub of the sending plinth (04: R134)
  far : Nat := 0                     -- and at the hub of the receiving plinth
  credits : Nat := 0
  due : Nat := 0
  newest : Option Nat := none
  deriving DecidableEq, Repr

/-- Batch-gap state of a pipeline (04: R141). -/
inductive GapSt where
  | none | marked | opened
  deriving DecidableEq, Repr

/-- A command that waits for a state of an object: its mailbox key and sequence number (13: R402). -/
abbrev Waiter := Nat × Nat

/-- A completion record that waits for stores and atomics still on their way home, by stage and tag (04: R137). -/
structure EndPost where
  inv : Inv
  status : Nat
  fault : List Byte
  waits : List (Nat × Nat)
  deriving DecidableEq, Repr

/-- One loaded pipeline (04: R117 to R144; 05). Streams have keys 0 to 254, FEED sources 256 + index. -/
structure Pipe where
  partition : Nat
  weight : Nat
  arm : List Byte
  dieMap : List Nat
  st : PipeSt := .idle
  runAhead : Nat := 0
  epochNext : Nat := 0
  unitNext : Nat := 0               -- number of the unit of the next batch
  posts : List EndPost := []        -- completion records of ended invocations not yet posted
  batches : List Batch := []        -- oldest first; the first is the head
  readmit : List (Nat × Nat × Nat) := []   -- invocation, repetition, index awaiting re-admission
  invs : List Inv := []             -- oldest first
  invNext : Nat := 0
  streams : Tbl StreamSt := []
  sources : Tbl SrcState := []
  loadsWait : List (Nat × Nat) := []   -- load-table index, unit key: requested, not yet complete
  loadsDone : List (Nat × Nat) := []   -- load-table index, unit key
  held : List (Nat × Nat) := []      -- control words held: epoch, word
  errs : List (Nat × Nat) := []      -- errors of loads and FEED records held against run-ahead epochs: epoch, status
  gone : List (Nat × Nat) := []      -- squashed epochs and their invocations
  clock : Nat := 0                   -- records arrived: stamps (04: R134)
  gap : GapSt := .none
  gapPassed : List Nat := []         -- stages the gap mark has left
  gapReleased : List Nat := []       -- beacons that have released the gap
  sinceGap : Nat := 0
  drainStop : Bool := false          -- a stop in mode DRAIN is under way
  gateStop : Bool := false           -- admission stopped for a power gate (04: R143)
  stopWait : List Waiter := []
  releaseWait : Option Waiter := none
  powerIdle : Bool := false          -- goes to IDLE when power returns (04: R142)
  loadWait : Option Waiter := none   -- the load waits for a stage test or a domain to wake (16: R479; 15: R468)
  counters : Tbl Nat := []           -- 05: R172, in table order
  hinted : List Nat := []            -- hinted blocks not yet used
  deriving DecidableEq, Repr

/-- A tender-channel request of a plinth's queues FEED and LOAD (04: R129). -/
structure ChanReq where
  pipe : Nat
  feed : Bool
  items : List (Nat × Nat)     -- FEED: source indices; LOAD: one (load index, unit)
  deriving DecidableEq, Repr

/-- A granted channel CH48 to CH63 (04: R129). -/
structure ChanGrant where
  chan : Nat
  pipe : Nat
  feed : Bool
  item : Nat × Nat
  deriving DecidableEq, Repr

end Sys2Proof.Machine
end

