-- ==== Sys2Proof/Machine/TypesHub.lean ====
section
/-!
DEFINITION. State of the HBM stacks, the die links, the hub's requests, the fabric memory space, waypoints, fixed regions,
collectives and twins (06; 07; 08).
-/
namespace Sys2Proof.Machine

open Sys2Proof

/-! ### HBM (06) -/

/-- POWER_STATE of a stack (06: R196, R198). -/
inductive StackPower where
  | active | powerDown | selfRefresh
  deriving DecidableEq, Repr

/-- A row of the weak-row table (06: R188): the row, and the blocks of it that were CORRECTED in this scrub period. -/
structure WeakRow where
  pc : Nat
  bank : Nat
  row : Nat
  hits : List (Nat × Nat) := []      -- block, reference count of its CORRECTED read
  weak : Bool := false
  deriving DecidableEq, Repr

/-- One row of the repair log: pending hard repair (06: R189, R190). -/
structure RepairRow where
  stack : Nat
  pc : Nat
  bank : Nat
  row : Nat
  hardDone : Bool := false
  deriving DecidableEq, Repr

/-- One HBM stack and its controller (06: R186 to R199). -/
structure Stack where
  band : Nat := 0
  bandDue : Option Nat := none       -- the band that falls due at the exit from SELF_REFRESH (06: R200)
  power : StackPower := .active
  ceSeen : Bool := false
  ueSeen : Bool := false
  pending : Bool := false
  exhausted : Bool := false
  temp : Nat := 0
  sensed : Bool := false             -- the sensor has been read in this start (06: R198, TEMP)
  tempQ : Int := 0                   -- stack sensor in quarter degrees (06: R186; 15: R449)
  counters : Tbl Nat := []           -- 06: R199, in table order
  weakRows : List WeakRow := []      -- oldest first, at most 64
  repairing : List (Nat × Nat × Nat) := []  -- pseudo-channel, bank, row under soft repair
  exhaustedBanks : List (Nat × Nat) := []
  scrubPos : Tbl Nat := []           -- scrub steps per pseudo-channel since the pass began (06: R185)
  ueRun : List Nat := []             -- pseudo-channels of consecutive doubly uncorrectable requests (16: R478)
  hardRepair : Option Waiter := none
  hardProgrammed : Nat := 0
  programming : Bool := false        -- a row is being programmed at a start (06: R190)
  lost : Bool := false
  deriving DecidableEq, Repr

/-- The hot-spot monitor of a plinth (06: R192, R193). -/
structure SkewMon where
  bytes : Tbl Nat := []              -- bytes per pseudo-channel in this window
  armed : Bool := true
  below : Nat := 0
  events : Nat := 0
  last : Nat := 0
  deriving DecidableEq, Repr

/-! ### Links (07) -/

/-- STATE of a link end (07: R232). -/
inductive LinkSt where
  | down | training | up | retraining | fenced | retired
  deriving DecidableEq, Repr

/-- The code of a link state (07: R232). -/
def LinkSt.code : LinkSt → Nat
  | .down => 0 | .training => 1 | .up => 2 | .retraining => 3 | .fenced => 4 | .retired => 5

/-- A packet of the hub (07: R212). -/
structure HubPkt where
  typ : Nat
  tc : Nat
  partition : Nat
  src : Nat
  dst : Nat
  tag : Nat := 0
  specific : Nat := 0
  payload : List Byte := []
  deriving DecidableEq, Repr

/-- A flit a link end has sent (07: R209). -/
structure Flit where
  fseq : Nat
  ftype : Nat
  ackSeq : Nat := 0
  ak : Nat := 0
  payload : List Byte := []
  bundle : Nat := 0                  -- the bundle it goes on (07: R208)
  deriving DecidableEq, Repr

/-- One link end (07: R205 to R232). -/
structure LinkEnd where
  st : LinkSt := .down
  baseline : Bool := true
  crcSeen : Bool := false
  hardFault : Bool := false
  faultLane : Nat := 0
  peerWord : Nat := 0
  profile : Nat := 0
  counters : Tbl Nat := []           -- 07: R231, in table order
  txSeq : Nat := 0                   -- FSEQ of the next DATA flit
  rxSeq : Nat := 0xFFF               -- newest accepted FSEQ (before the first flit, the one before 0)
  unacked : List Flit := []
  nakRef : Option Nat := none        -- reference count at which the last NAK left (07: R215)
  txCount : Nat := 0                 -- DATA and IDLE flits sent since the end of training (07: R208)
  rxCount : Nat := 0                 -- and taken in
  early : Tbl (List (List Byte)) := []    -- flits that wait for an older one, by bundle (07: R208)
  ackDue : Nat := 0                  -- accepted flits not yet acknowledged
  partialIn : List Byte := []        -- packet bytes so far
  sent : List Flit := []             -- flits put on the wire, newest last
  credits : Tbl Nat := []            -- per class TC0 to TC5, then shared (key 6), in 16-byte units
  owed : Tbl Nat := []               -- credits taken by received packets and not yet returned
  replayRefs : List Nat := []        -- reference counts of replays in the last 10 us (07: R217)
  retrainRefs : List Nat := []       -- and of retrains in the last second
  badLane : Nat := 0                 -- the lane that last lost lock
  switchAt : Option (Nat × Nat) := none   -- sequence number and word of a pending profile switch (07: R222)
  switchOut : Option Nat := none     -- the switch this end began, until its flit is acknowledged (07: R222, R229)
  asleep : List Nat := []            -- bundles in electrical idle (07: R220)
  eye : Option Nat := none           -- the draw behind the eyes that the last training read (07: R206, R231)
  deriving DecidableEq, Repr

/-! ### Hub requests -/

/-- What an outstanding request is (08: R241 to R246). -/
inductive ReqKind where
  | rd | wr | atomic | hint | mirror
  deriving DecidableEq, Repr

/-- A request in flight beyond its entry hub: to another package, or at home awaiting a re-lay or a twin (07: R212; 08: R246, R272, R337). -/
structure OutReq where
  plinth : Nat
  unit : Nat
  tag : Nat
  reqId : Nat
  partition : Nat
  hallTag : Nat
  kind : ReqKind
  addr : Nat
  len : Nat
  waypoint : Option Nat := none      -- the tag's waypoint W at sending (08: R246)
  stale : Bool := false              -- a store or atomic to the block left the plinth since (08: R246)
  route : Nat := 0
  aheadOf : Nat := 0                 -- waypoint entry at which it was issued (08: R262)
  twin : Bool := false               -- its home change is made, its twin leg is open (08: R272)
  fromNode : Option Nat := none      -- for a twin leg: the requesting package
  orig : Nat := 0                    -- for a twin leg: the identifier of the request it completes
  data : List Byte := []             -- for a twin leg: the completion's payload
  deriving DecidableEq, Repr

/-- A fabric packet (08: R241). -/
structure FabPkt where
  ftype : Nat
  tc : Nat
  twin : Bool := false
  srcNode : Nat
  dstNode : Nat
  hallTag : Nat
  srcUnit : Nat := 0
  reqId : Nat := 0
  addr : Nat := 0
  arg : Nat := 0
  status : Nat := 0
  waypoint : Nat := 0
  opcode : Nat := 0
  payload : List Byte := []
  deriving DecidableEq, Repr

/-- STATE of a fabric-cache line (08: R246). INVALID lines are not listed. -/
inductive LineSt where
  | leased (stamp : Nat)
  | fixed
  deriving DecidableEq, Repr

/-- One line of a plinth's fabric cache (08: R245 to R247). `age` orders use, larger is newer. -/
structure CacheLine where
  hallTag : Nat
  block : Nat            -- fabric address [55:8]
  st : LineSt
  data : List Byte
  age : Nat
  deriving DecidableEq, Repr

/-- A window entry (08: R237). -/
structure WinEntry where
  nodeLo : Nat
  nodeHi : Nat
  access : Nat
  base : Nat
  limit : Nat
  raw : List Byte
  deriving DecidableEq, Repr

/-- A partition PT1 to PT15 (04: R116; 08: R236, R237). The stage set is a 360-bit map in the bit order of 13: R405. -/
structure Partition where
  hallTag : Nat
  maxPipelines : Nat := 8
  weight : Nat := 16
  admitCap : Nat := 100
  runAheadMax : Nat := 3
  stageSet : Nat := 0
  window : Tbl WinEntry := []
  deriving DecidableEq, Repr

/-- STATE of a fixed region at a member (08: R252, R253, R256; 13: R416). -/
inductive RegionSt where
  | armed | inEffect | unfixing
  deriving DecidableEq, Repr

/-- The code REGION_LIST gives a state. -/
def RegionSt.code : RegionSt → Nat
  | .armed => 0 | .inEffect => 1 | .unfixing => 2

/-- One fixed region of a tag (08: R252). `afterNext` marks a FIX that arrived inside an advance (08: R276). -/
structure Region where
  node : Nat
  base : Nat
  length : Nat
  st : RegionSt
  afterNext : Bool := false
  asker : Nat := 0                     -- the member that began the fix
  deriving DecidableEq, Repr

/-- A region-fix or region-unfix this member began (08: R253, R256; 13: R416). -/
structure RegionOp where
  unfix : Bool
  phase : Nat              -- 1 INVALIDATE or FIX, 2 RELEASE
  node : Nat
  base : Nat
  length : Nat
  acked : List Nat := []
  waiter : Waiter
  deriving DecidableEq, Repr

/-- An advance in progress at this member (08: R262, R263). -/
structure Advance where
  target : Nat
  root : Nat
  entered : Bool := true         -- false: a hall advance that waits for tag advances (08: R265)
  drained : Bool := false
  arrived : Bool := false
  arrivals : List Nat := []
  waiter : Option Waiter := none
  asking : Bool := false         -- leases dropped, asking the root (08: R263)
  answered : Bool := false       -- the command has ended ABORTED
  deriving DecidableEq, Repr

/-- Everything kept for one HALL_TAG (08: R252, R260 to R265, R593). -/
structure TagSt where
  members : List (Nat × Nat) := []     -- node ranges as TAG_MEMBERS wrote them
  member : Bool := false
  waypoint : Option Nat := none
  asking : Bool := false               -- asking the root for the value (08: R593)
  lastMissing : List Nat := []         -- members missing from the last advance that this package aborted as root (08: R263)
  advance : Option Advance := none
  early : List Nat := []               -- children that arrived before this package entered
  entry : Nat := 0                     -- entries made: stores issued now count toward this one
  regions : List Region := []
  regionOp : Option RegionOp := none
  deriving DecidableEq, Repr

/-- A running collective (08: R266 to R270). -/
structure Coll where
  id : Nat
  slot : Nat                           -- which of the four the engine runs
  op : Nat
  dtype : Nat
  redop : Nat
  hallTag : Nat
  root : Nat
  src : Nat
  dst : Nat
  count : Nat
  phases : List (Nat × Nat × Nat)      -- kind, dimension, switch configuration
  dims : List Nat := []                -- members along each dimension
  phase : Nat := 0                     -- the phase under way; phase 0 is the combination inside the package
  step : Nat := 0                      -- the exchange of the phase under way
  sent : List Nat := []                -- members to whom the exchange's message has been sent
  items : Tbl (List Byte) := []        -- the parts held, as they are exchanged (Machine/CollOps.lean)
  inq : Tbl (List (List Byte)) := []   -- packets come and not yet taken, oldest first, by member index
  stored : Bool := false               -- DST is written; stores may still wait for a twin
  partition : Nat
  mailbox : Nat
  deriving DecidableEq, Repr

/-- Twin state (08: R271). -/
inductive TwinSt where
  | none | active | standby | solo | resync
  deriving DecidableEq, Repr

/-- The code of a twin state (13: R421). -/
def TwinSt.code : TwinSt → Nat
  | .none => 0 | .active => 1 | .standby => 2 | .solo => 3 | .resync => 4

/-- A resync (08: R274). `todo` holds the spans that each of its channels still has to copy: local address and length. -/
structure Resync where
  rateCap : Nat
  todo : Tbl (List (Nat × Nat))
  blocks : Nat := 0              -- blocks copied
  failed : Bool := false         -- a copy ended without DONE
  done : Bool := false
  deriving DecidableEq, Repr

/-- A switch-over armed for a hall waypoint (08: R264; 13: R421). -/
structure TwinArm where
  toSt : TwinSt
  v : Nat
  seq : Nat
  deriving DecidableEq, Repr

/-- The package's place in the fabric, its routing tables, its requests and its twin (08; 10: R340 to R343). `heldWords`: table place (256 times the
table, plus the index) and route word, NEXT aside, under hold. -/
structure FabricSt where
  node : Option Nat := none
  hallSize : Nat := 0
  switched : Nat := 0
  groupTable : Tbl (List Nat) := []     -- 4 route words per entry
  nodeTable : Tbl (List Nat) := []
  heldWords : List (Nat × Nat) := []
  s0 : Tbl Nat := []                    -- per plinth (10: R341)
  s1 : Tbl Nat := []
  twin : TwinSt := .none
  twinArm : Option TwinArm := none
  resync : Option Resync := none
  mirrorDiscards : Nat := 0
  nextReqId : Nat := 0
  outstanding : List OutReq := []
  closedIds : List (Nat × Nat) := []    -- identifier and plinth of requests ended LINK_LOST, not yet reusable (08: R244)
  mirrorWait : List FabPkt := []        -- MIRROR_WRs that wait for the path of their block (08: R273), oldest first
  arrived : List FabPkt := []           -- packets delivered to their home hubs (10: R342), oldest first
  colls : List Coll := []
  deriving DecidableEq, Repr

/-- A plinth's fabric cache and its counters (08: R245, R251). -/
structure Cache where
  lines : List CacheLine := []
  clock : Nat := 0
  counters : Tbl Nat := []              -- 08: R251 in order, WINDOW_VIOLATIONS last
  deriving DecidableEq, Repr

end Sys2Proof.Machine
end

