-- ==== Sys2Proof/Machine/TypesBeacon.lean ====
section
/-!
DEFINITION. State of the tenders, the beacons and the fabric link layer (09; 10; 11).
-/
namespace Sys2Proof.Machine

open Sys2Proof

/-! ### Tenders (11) -/

/-- STATE of a tender channel (11: R371). -/
inductive ChanSt where
  | idle | running | pausing | paused | error
  deriving DecidableEq, Repr

/-- The code of a channel state (11: R371). -/
def ChanSt.code : ChanSt → Nat
  | .idle => 0 | .running => 1 | .pausing => 2 | .paused => 3 | .error => 4

/-- One outstanding read or store of a channel (11: R349). `off` counts from the descriptor's first byte, `len` is the bytes of the
transfer it covers; `merge` marks the read of a word that a partial block shares (11: R360), at `addr`. -/
structure TReq where
  tag : Nat
  off : Nat
  len : Nat
  addr : Nat
  skip : Nat := 0                -- bytes the request begins before `off`
  merge : Bool := false
  deriving DecidableEq, Repr

/-- Transfer bytes of one destination block that wait for the words they share (11: R360). -/
structure TMerge where
  off : Nat
  data : List Byte
  words : Tbl (List Byte) := []  -- words read, by address
  need : List Nat                -- addresses of the words
  deriving DecidableEq, Repr

/-- One tender channel (11: R348 to R373). With `desc` empty the descriptor that `inlineCur`, `slot` and `curDesc` name is not taken yet. -/
structure Chan where
  st : ChanSt := .idle
  pause : Bool := false
  pausePwr : Bool := false
  weight : Nat := 8
  owner : Nat := 0
  badSeen : Bool := false
  powerSeen : Bool := false
  slot : Nat := 0
  inlineCur : Bool := false
  curDesc : Nat := 0
  srcCur : Nat := 0
  dstCur : Nat := 0
  remain : Nat := 0
  crcRun : Nat := 0
  rateCap : Nat := 0
  slots : Tbl (List Byte) := []      -- inline slots of 64 bytes
  desc : List Byte := []             -- the current descriptor
  issued : Nat := 0                  -- source bytes asked for
  arrived : Nat := 0                 -- bytes that have come without a hole
  reads : List TReq := []
  early : Tbl (List Byte) := []      -- read data beyond a hole, by offset
  ready : List Byte := []            -- bytes that have come and are not yet sent
  sentUpTo : Nat := 0
  merging : List TMerge := []
  stores : List TReq := []
  wbacks : List (Nat × Nat) := []    -- write-backs that a twin has not acknowledged: tag, descriptor address (08: R272; 11: R364)
  written : Nat := 0                 -- destination bytes whose stores completed, from DST without a hole
  doneRuns : List (Nat × Nat) := []  -- offset and length of completed stores beyond the hole
  err : Option Nat := none           -- first error status of the descriptor
  aborting : Bool := false           -- ABORT waits for the outstanding stores (11: R367)
  credit : Nat := 0                  -- bytes a request line has granted and the channel has not yet asked for
  nocrc : Bool := false              -- the descriptor in hand ends DONE_NOCRC
  prevMode : Nat := 0                -- CRC_MODE of the previous descriptor in the run
  prevOk : Bool := true              -- it ended DONE or DONE_NOCRC
  broken : Bool := false             -- the run's CRC chain is broken (11: R362)
  first : Bool := true               -- the first descriptor of a run is still to come
  waiters : List Waiter := []        -- PAUSE commands
  counters : Tbl Nat := []           -- 11: R373, in table order
  deriving DecidableEq, Repr

/-- A plinth's tender: its request lines (the channels that each serves, the first at once, the others in turn), the next TAG, and
BUF_FULL_REF (11: R358, R359, R373). -/
structure Tender where
  lines : Tbl (List Nat) := []
  nextTag : Nat := 0
  bufFull : Nat := 0
  deriving DecidableEq, Repr

/-! ### Beacons (09) -/

/-- LOOP_STATE (09: R309). -/
inductive LoopSt where
  | parked | sweeping | locked | frozen
  deriving DecidableEq, Repr

/-- The code of a loop state (09: R309). -/
def LoopSt.code : LoopSt → Nat
  | .parked => 0 | .sweeping => 1 | .locked => 2 | .frozen => 3

/-- One ring: key 288 * side + 18 * port + λ, side 0 transmit, 1 receive (21: R572) (09: R277, R289, R309). -/
structure Ring where
  st : LoopSt := .parked
  band : Nat := 0
  mislockSeen : Bool := false
  unlockSeen : Bool := false
  retired : Bool := false
  ratio : Nat := 0
  heater : Nat := 0
  integ : Int := 0             -- integrator of the loop, in 1/256 codes
  out : Int := 0               -- loop output u, in heater codes
  steps : Nat := 0             -- consecutive steps out of range, or steps of a sweep
  ramp : Int := 0              -- feed-forward still to apply, in 1/256 codes (09: R291)
  rampSteps : Nat := 0         -- over so many steps
  peak : Nat := 0              -- reference peak monitor current
  lineCode : Nat := 0          -- the line table's code
  lastSight : Nat := 0
  attempts : Nat := 0          -- recovery attempts in a row
  mislocks : List Nat := []    -- reference counts of mislocks (09: R301)
  counters : Tbl Nat := []     -- MISLOCKS, UNLOCKS, SIGHTS
  deriving DecidableEq, Repr

/-- STATE of a lane status word (09: R310). -/
inductive LaneSt where
  | off | spare | active | withdrawn | retired
  deriving DecidableEq, Repr

/-- The code of a lane state (09: R310). -/
def LaneSt.code : LaneSt → Nat
  | .off => 0 | .spare => 1 | .active => 2 | .withdrawn => 3 | .retired => 4

/-- One line of one direction, same keys as the rings (09: R279 to R283, R301 to R305, R310, R311). -/
structure Lane where
  st : LaneSt := .off
  lane : Nat := 0
  sighted : Bool := false      -- withdrawn by a sight and by nothing else
  degraded : Bool := false
  frameLock : Bool := false
  good : Nat := 0              -- consecutive good codewords, toward frame lock
  clean : Nat := 0             -- clean codewords since withdrawal
  wrong : Nat := 0             -- consecutive wrong tags
  fails : List Nat := []       -- reference counts of failures (09: R283)
  mark : Option Nat := none    -- receive: place in the MARK period of the next codeword, none before a MARK has come (09: R279)
  inq : List (Nat × Option (List Byte)) := []  -- receive: codewords that wait for the other lanes: place, and the block if it came (09: R280)
  nearWords : Nat := 0         -- codewords decoded since the last evaluation over 1 ms (09: R283)
  nearErrs : Nat := 0          -- symbols corrected in them
  nearLost : Nat := 0          -- uncorrectable codewords since then
  farWords : Nat := 0          -- codewords decoded since the last evaluation over 100 ms
  farErrs : Nat := 0           -- symbols corrected in them
  counters : Tbl Nat := []     -- FEC_CODEWORDS, FEC_CORRECTED_SYMBOLS, FEC_UNCORRECTABLE, TAG_MISMATCH, WITHDRAWN_REF
  deriving DecidableEq, Repr

/-- A compensation matrix with its header (09: R293). Entries are 16-bit codes in Q1.14, row-major. -/
structure Matrix where
  fitCount : Nat := 0
  residual : Nat := 0
  entries : Tbl Nat := []
  fitting : Bool := false
  deriving DecidableEq, Repr

/-- One beacon (09). -/
structure Beacon where
  built : Bool := false                 -- the line table is built: unlisted rings are locked (09: R297)
  rings : Tbl Ring := []
  lanes : Tbl Lane := []
  matrices : Tbl Matrix := []           -- key 2 * port + side
  config : Nat := 0
  fibres : Nat := 0xFEDCBA9876543210    -- the configuration's value as the switch was last driven (09: R298; 18: R539)
  repointTo : Option Nat := none        -- a re-point asked for
  repointStep : Nat := 0                -- step of R299 reached; 0 while the re-point is held (10: R338)
  repointWait : Option Waiter := none
  quiesce : List Nat := []              -- banks that the re-point moves
  band : Nat := 0
  frozen : Bool := false
  autonomous : Bool := false
  notices : List (Nat × Nat × Nat) := []   -- gap notices held: pipeline, hold in microseconds, reference count at its coming
  gapSights : List (Nat × Nat) := []    -- sights started under a notice: ring key, pipeline (09: R296)
  idlePorts : List Nat := []            -- ports whose IDLE window is open
  sights : List Nat := []               -- ring keys under a sight
  spoiled : List Nat := []              -- of those, the sights to be taken again (09: R306)
  forced : List Nat := []               -- ring keys owed a forced sight
  owed : List Nat := []                 -- lines to retire once a freeze ends (09: R292)
  laneWaits : List (Nat × Waiter) := [] -- BEACON_LANE RETURN commands, by line
  feeds : Nat := 0                      -- feed fibres whose output the controller has enabled at the laser module (09: R286)
  laserFlags : Nat := 0
  laserFault : Bool := false
  darkFeeds : List Nat := []
  counters : Tbl Nat := []              -- 21: R589: TRANSIT_PACKETS, FORCED_SIGHTS, REPOINTS, LASER_ALARMS, ROUTE_FAILS_SENT, POOL_STALL_DROPS
  failSent : List (Nat × Nat) := []     -- route words of ROUTE_FAILs sent for a drop, with their reference counts (10: R336)
  deriving DecidableEq, Repr

/-! ### Fabric link layer (10) -/

/-- STATE of a channel end (10: R345). -/
inductive ChSt where
  | down | bringup | up | quiescing
  deriving DecidableEq, Repr

/-- The code of a channel-end state (10: R345). -/
def ChSt.code : ChSt → Nat
  | .down => 0 | .bringup => 1 | .up => 2 | .quiescing => 3

/-- A fabric flit kept for replay or put on the fibre (10: R313). -/
structure FabFlit where
  fseq : Nat
  ftype : Nat
  ackSeq : Nat := 0
  ak : Nat := 0
  payload : List Byte := []
  deriving DecidableEq, Repr

/-- The identity a receive direction serves (10: R318). -/
structure ChanId where
  node : Nat
  beacon : Nat
  port : Nat
  session : Nat
  deriving DecidableEq, Repr

/-- One unit: a route word and a packet (10: R316). -/
structure FabUnit where
  route : Nat
  pkt : FabPkt
  deriving DecidableEq, Repr

/-- A codeword sent: its line, its place in the MARK period, its header, and the block it carries, not yet scrambled (09: R279). -/
structure TxWord where
  line : Nat
  place : Nat
  header : Nat
  block : List Byte
  deriving DecidableEq, Repr

/-- One port's sender half (10: R318 to R332, R345). -/
structure TxEnd where
  st : ChSt := .down
  hall : Bool := false
  spilling : Bool := false
  downSeen : Bool := false
  lanes : Nat := 0
  session : Nat := 0
  rttMeas : Nat := 0
  echoes : List Nat := []             -- round trips of the first ECHO values of a bring-up (10: R334)
  next : Nat := 0                     -- FSEQ of the next DATA flit
  unacked : List FabFlit := []
  share : Nat := 0                    -- spill share in flits, taken at session open (10: R329; 18: R539)
  spilled : Nat := 0                  -- how many of the oldest unacknowledged flits are in spill
  granted : Tbl Nat := []
  charged : Tbl Nat := []
  expiries : Nat := 0
  waiting : List FabUnit := []        -- packets waiting for this egress
  unusable : Nat := 0                 -- the λ mask of the peer's receive rings (10: R321)
  sent : List FabFlit := []
  links : List FabPkt := []           -- link packets sent
  block : Nat := 0                    -- the direction's next block, counted from MARK (10: R315)
  rota : List Nat := []               -- lines in use since the last MARK, by logical lane (09: R282)
  words : List TxWord := []           -- codewords sent
  counters : Tbl Nat := []            -- FLITS_TX, FLITS_REPLAYED, SPILLED_FLITS, CREDIT_STALL_REF, REPLAYS_NAK, REPLAYS_TIMER, LINK_DOWNS
  deriving DecidableEq, Repr

/-- One port's receiver half (10: R318, R323 to R333, R345). -/
structure RxEnd where
  st : ChSt := .down
  hall : Bool := false
  crcSeen : Bool := false
  downSeen : Bool := false
  lanes : Nat := 0
  ident : Option ChanId := none
  expect : Nat := 0
  nakOut : Bool := false
  nakAt : Nat := 0                    -- reference count of the last NAK (10: R325)
  ackDue : Nat := 0
  tRef : Nat := 0
  partialIn : List Byte := []
  place : Nat := 0                    -- the codeword of the MARK period that is taken next (10: R315)
  rota : List Nat := []               -- lines in use since the last MARK, by logical lane
  blocks : List (Option (List Byte)) := []  -- blocks of a group not yet whole, none for one that was lost
  flits : List (List Byte) := []      -- flits the codewords gave, for the link layer
  pool : List FabUnit := []
  freed : Tbl Nat := []               -- credits granted so far per class, in 32-byte units
  reported : Tbl Nat := []            -- of those, the ones the last LINK_CREDIT told
  counters : Tbl Nat := []            -- FLITS_RX, three reserved, CRC_ERRORS, DUP_FLITS, NAKS_SENT, LINK_DOWNS (21: R588)
  unusable : Nat := 0                 -- the λ mask of the peer's transmit rings (10: R321)
  deriving DecidableEq, Repr

end Sys2Proof.Machine
end

