-- ==== Sys2Proof/Machine/TypesHelm.lean ====
section
/-!
DEFINITION. State of the logbook, the host port, Helm sessions and mailboxes, and the I3C sideband
(12: R375 to R396; 16: R483 to R487; 21: R585).
-/
namespace Sys2Proof.Machine

open Sys2Proof

/-- One logbook entry (16: R483). `old` marks an entry recorded before the current start (16: R485). -/
structure LogEntry where
  index : Nat := 0
  code : Nat := 0
  cls : Nat := 0
  severity : Nat := 0
  source : Nat := 0
  pinned : Bool := false
  crash : Bool := false
  count : Nat := 1
  refFirst : Nat := 0
  refLast : Nat := 0
  data : List Byte := []
  old : Bool := false
  deriving DecidableEq, Repr

/-- The logbook ring, oldest entry first (16: R483 to R487; 21: R585 for the snapshot port). -/
structure Logbook where
  entries : List LogEntry := []
  next : Nat := 0
  lost : Nat := 0
  pinNext : Bool := true
  snap : List Byte := []
  snapValid : Bool := false
  deriving DecidableEq, Repr

/-- What an outbound mailbox entry carries (12: R387). -/
inductive OutKind where
  | response | completion | event
  deriving DecidableEq, Repr

/-- One entry of a mailbox's outbound queue: one response frame's, completion record's or event's body (12: R379, R387, R388). `done`:
acknowledged, and kept only while later frames of its response are not (12: R396, takeover). -/
structure OutEntry where
  kind : OutKind
  body : List Byte
  sent : Bool := false
  done : Bool := false
  seq : Nat := 0
  more : Bool := false
  deriving DecidableEq, Repr

/-- An accepted command that waits in its mailbox: sequence number and frame body (12: R386). -/
structure QueuedCmd where
  seq : Nat
  body : List Byte
  deriving DecidableEq, Repr

/-- One mailbox (12: R386, R387, R389). `runCode` is the code of the command that runs; `promised` counts completion-reserve entries taken by accepted invocations. -/
structure Mailbox where
  mask : Nat := 0
  queue : List QueuedCmd := []
  running : Option Nat := none
  runCode : Nat := 0
  out : List OutEntry := []
  promised : Nat := 0
  lost : Nat := 0
  deriving DecidableEq, Repr

/-- One open Helm session (12: R378 to R385). Sequence numbers are 32 bits. -/
structure Session where
  id : Nat
  partition : Nat
  mailbox : Nat
  keySlot : Nat
  kHD : Nat
  kDH : Nat
  hostAddr : Nat := 0
  hostPort : Nat := 0
  expect : Nat := 0
  txNext : Nat := 0
  rto : Nat := 0
  ackOwed : Nat := 0
  deriving DecidableEq, Repr

/-- A half-open session between OPEN_2 and OPEN_3 (12: R381, R382). -/
structure HalfOpen where
  id : Nat
  hostTag : Nat
  partition : Nat
  mailbox : Nat
  keySlot : Nat
  kHD : Nat
  kDH : Nat
  sA : List Byte
  deriving DecidableEq, Repr

/-- A Helm frame the device has put on the wire (12: R378, R379). -/
structure TxFrame where
  session : Nat
  kind : Nat
  seq : Nat
  ackSeq : Nat
  flags : Nat
  body : List Byte
  dest : Nat := 0
  deriving DecidableEq, Repr

/-- One bulk stream (12: R390 to R392). -/
structure BulkStream where
  mailbox : Nat
  channel : Nat
  offset : Nat := 0
  rxq : List (List Byte) := []
  discard : Nat := 0
  atEnd : Bool := false
  overrun : Bool := false
  deriving DecidableEq, Repr

/-- A reply of the port that is no Helm frame: neighbour discovery, echo, ARP (12: R376). -/
inductive PortReply where
  | neighbour (target : Nat)
  | echo (v6 : Bool) (payload : List Byte)
  | arp (target : Nat)
  deriving DecidableEq, Repr

/-- The Ethernet port (12: R375 to R377). Lengths of held frames and flow-control state are by priority 0 to 7. -/
structure EthPort where
  up : Bool := false
  held : Tbl (List Nat) := []
  xoffSent : List Nat := []
  xoffRecv : List Nat := []
  oversizeDrops : Nat := 0
  authDrops : Nat := 0
  rxqFullDrops : Nat := 0
  replies : List PortReply := []
  txWait : List (Nat × TxFrame) := []    -- frames that wait for an XON, with their priority
  deriving DecidableEq, Repr

/-- The host-port settings of 12: R393, in table order, with their defaults. -/
structure HostCfg where
  udpPort : Nat := 0x4E58
  vlan : Nat := 0
  helmPcp : Nat := 6
  bulkPcp : Nat := 3
  ipv6 : Nat := 0
  ipv4 : Nat := 0
  mtu : Nat := 9216
  rto : Nat := 1000
  sessionTimeout : Nat := 10000000
  deriving DecidableEq, Repr

/-- The I3C target and its MCTP end (12: R394, R395). -/
structure Sideband where
  dyn : Option Nat := none
  eid : Nat := 0
  ibi : Bool := false
  busy : Bool := false
  cmdSeq : Nat := 0
  reply : List Byte := []
  sent : List (List Byte) := []
  deriving DecidableEq, Repr

/-- A memory command, or a load that reads its descriptor, in flight by its mailbox (13: R408, R410). Its requests are numbered parts;
offsets count from its first byte. -/
structure MemOp where
  seq : Nat
  code : Nat
  body : List Byte
  waiting : List (Nat × Nat) := []      -- part, offset
  merge : List (Nat × Nat × List Byte) := []   -- part that reads a word, offset and bytes to put into it
  parts : List (Nat × List Byte) := []  -- offset, bytes read
  err : Option (Nat × Nat) := none      -- status and offset of the first failing request
  failover : Bool := false              -- the core that ran it failed (12: R396)
  deriving DecidableEq, Repr

/-- A WINDOW_SET that took access away and waits for the requests checked under the old window (08: R240). -/
structure WinWait where
  partition : Nat
  ids : List Nat
  waiter : Nat × Nat
  deriving DecidableEq, Repr

/-- Everything between the host and the mailboxes. Mailbox MBm of PTi has key 8i + m; SB has key 128. -/
structure Helm where
  eth : EthPort := {}
  sessions : List Session := []
  halfOpen : List HalfOpen := []
  nextSession : Nat := 1
  mailboxes : Tbl Mailbox := []
  tx : List TxFrame := []
  bulk : Tbl BulkStream := []
  memOps : Tbl MemOp := []
  sb : Sideband := {}
  winWaits : List WinWait := []
  deriving DecidableEq, Repr

end Sys2Proof.Machine
end

