-- ==== Sys2Proof/Machine/TypesPower.lean ====
section
/-!
DEFINITION. State of the pins and boot, the control cores, the dies' sensors and power, the NOR banks and fuses, casts and updates,
and security (14; 15; 16; 17; 18; 19; 21: R578, R586).
-/
namespace Sys2Proof.Machine

open Sys2Proof

/-! ### Pins, JTAG, boot and the control cores -/

/-- The TAP instruction in force (19: R551). -/
inductive Tap where
  | reset | bypass | idcode | sample | extest | clamp | highz
  deriving DecidableEq, Repr

/-- The board's side of the package (19: R546, R547; 14: R425 to R427; 15: R457, R458, R469). -/
structure Pins where
  aux : Bool := true
  mainRails : Bool := true
  exsarRails : Bool := false
  resetN : Bool := false
  bootSel : Nat := 0
  testEn : Bool := false
  thermtripN : Bool := true
  failstopN : Bool := true
  shutdownLatch : Bool := false
  coolDuty : Nat := 200        -- units of 0.5 percent
  lsmResetN : Nat := 0         -- one bit per beacon (19: R549)
  tap : Tap := .reset
  boundary : Nat := 0
  driven : Option Nat := none  -- what the boundary register drives on the lands
  tdo : Nat := 0
  deriving DecidableEq, Repr

/-- DEVICE_STATE STATE (13). -/
inductive DevSt where
  | starting | ready | test | failureStop
  deriving DecidableEq, Repr

/-- The code of a device state (13). -/
def DevSt.code : DevSt → Nat
  | .starting => 0 | .ready => 1 | .test => 2 | .failureStop => 3

/-- What a control core is doing (14: R428; 16: R490, R491). -/
inductive CoreSt where
  | off | active | standby | held | out
  deriving DecidableEq, Repr

/-- One item of the start-up report kept until READY (14: R443): logbook or event code, source unit, DATA. -/
structure ReportItem where
  code : Nat
  source : Nat
  data : List Byte
  deriving DecidableEq, Repr

/-- Start-up progress and the control cores (14; 16: R490 to R495). -/
structure Boot where
  phase : Nat := 0
  cause : Nat := 0
  dev : DevSt := .starting
  stopCause : Nat := 0
  exsarGone : Bool := false      -- a failure stop took Exsar with it (16: R495)
  activeB : Bool := false        -- false: CCA is the active core
  coreA : CoreSt := .off
  coreB : CoreSt := .off
  binnacleOk : Bool := true
  gap : Bool := false            -- between steps 1 and 4 of 16: R490
  failovers : List Nat := []     -- PD0 reference counts of failovers
  bankB : Bool := false          -- the bank started
  report : List ReportItem := []
  startRef : Nat := 0
  restarted : Bool := false      -- the start runs again from step 6 (14: R447)
  loads : Tbl Nat := []          -- load attempts of a subordinate this start (14: R434)
  activation : Bool := false     -- an activation start is owed (18: R530)
  seed : Nat := 0                -- SEED of the diagonal (07: R205)
  key : List Nat := [0, 0, 0, 0, 0, 0, 0, 0]  -- K0 to K7 in force (06: R174)
  deriving DecidableEq, Repr

/-! ### Dies -/

/-- Life of a compute die or beacon (07: R225 to R228). -/
inductive DieLife where
  | up | fenced | retired
  deriving DecidableEq, Repr

/-- A factor of 1 (15: R452, R464), in the unit in which every slope of 15: R471 and every step of 15: R464 is whole. -/
def factorOne : Nat := 12800

/-- The floor of 0.25 of both factors (15: R452, R464). -/
def factorFloor : Nat := 3200

/-- One die, in the order of 07: R212. Temperatures in quarter degrees, powers in watts, factors in 1/12800. -/
structure Die where
  life : DieLife := .up
  attempts : Nat := 0
  fenceCause : Nat := 0
  fences : List Nat := []        -- reference counts of fences, newest first
  resetWait : Option Waiter := none
  refCount : Nat := 0
  temps : Tbl Int := []          -- latest sample per sensor
  excluded : List Nat := []
  offMedian : Tbl Nat := []      -- consecutive samples off the median
  tj : Int := 0
  fast : Bool := false
  fastBelow : Option Nat := none -- periods of 50 us below the fast limit
  tripped : Bool := false
  g : Nat := 12800
  fThermal : Nat := 12800
  fPower : Nat := 12800
  coolFor : Option Nat := none   -- periods of 50 us at or below THROTTLE_START - 2
  throttling : Bool := false
  rise : List Int := []          -- the rate monitor's last readings, newest first
  counters : Tbl Nat := []       -- THERMAL_LIMIT_REF, POWER_LIMIT_REF, RATE_TRIPS, VOLTAGE_STEPS_DOWN, DOMAIN_GATES
  budget : Option Nat := none    -- B as last received (15: R463)
  starved : Bool := false        -- no budget for 300 us (15: R465)
  currentHold : Bool := false    -- IOUT was above 630 A and has not fallen below 600 A (20: R560)
  pEst : Nat := 0
  meas : Nat := 0
  want : Nat := 0
  floorW : Nat := 0
  thermLow : Bool := false       -- F_thermal below 1 since the last voltage step (15: R456)
  powLow : Nat := 0              -- 10 us estimates with F_power below 1 since then
  warm : Bool := false           -- Tj above THROTTLE_START - 5 since then
  heavy : Bool := false          -- die power above 90 percent of its budget since then
  gated : Nat := 0               -- DOMAIN_GATED
  gatedBound : Nat := 0          -- of those, the domains gated while a stage was bound
  mr3Done : Bool := false
  coreHung : Bool := false       -- plinths: service core (16: R480)
  deriving DecidableEq, Repr

/-- One rail's registers (21: R586). -/
structure Rail where
  vout : Nat := 0
  iout : Nat := 0
  pout : Nat := 0
  setpoint : Nat := 0
  status : Nat := 0
  deriving DecidableEq, Repr

/-- Package budget and shedding (15: R462 to R468). -/
structure Power where
  budget : Nat := 0
  measured : Nat := 0
  shed : List (Nat × Nat) := []  -- die, domain, in the order gated
  gating : List (Nat × Nat) := []   -- domains whose gate waits for drains and pauses
  shedding : Bool := false       -- a shed goes on until the budget is met (15: R467, R474)
  paused : List (Nat × Nat × Nat) := []   -- die, domain and channel of each PAUSE_PWR set (11: R368)
  deriving DecidableEq, Repr

/-! ### NOR, fuses, casts -/

/-- STATE_A and STATE_B of the bank record (18: R524). -/
inductive BankSt where
  | empty | staged | confirmed | previous
  deriving DecidableEq, Repr

/-- The code of a bank state (18: R524). -/
def BankSt.code : BankSt → Nat
  | .empty => 0 | .staged => 1 | .confirmed => 2 | .previous => 3

/-- A bank record (18: R524). Pairs are (A, B). -/
structure BankRecord where
  generation : Nat := 1
  confirmedB : Bool := false
  pending : Option Bool := none        -- some true: bank B
  tries : Nat := 0
  fallback : Bool := false
  rejected : Bool := false
  stateA : BankSt := .confirmed
  stateB : BankSt := .empty
  versionA : Nat := 0
  versionB : Nat := 0
  hashA : List Byte := []              -- SM3 of the image, header and body
  hashB : List Byte := []
  armV : Nat := 0
  deriving DecidableEq, Repr

/-- The image in a bank: the header's facts and its whole bytes (18: R525). -/
structure Image where
  header : List Byte := []
  body : List Byte := []
  deriving DecidableEq, Repr

/-- One stored cast: its number and the items that differ from their defaults, by KEY (18: R535, R590). -/
structure Cast where
  number : Nat := 0
  items : Tbl Nat := []
  formats : Tbl Nat := []              -- FORMAT of a stored item that is not 1 (18: R533)
  deriving DecidableEq, Repr

/-- Fuses of PD0 other than DUS (17: R503). -/
structure Fuses where
  rollbackMin : Nat := 0
  root0Revoked : Bool := false
  lifecycle : Nat := 1
  heldRollback : Option Nat := none    -- a raise waiting for the range (15: R460)
  heldRevoke : Bool := false
  deriving DecidableEq, Repr

/-- What the two NOR banks hold (18: R523; 17: R511; 06: R189). -/
structure Nor where
  fuses : Fuses := {}
  record : BankRecord := {}            -- the one that governs
  recordB : Bool := false              -- it stands in bank B
  older : Option BankRecord := none    -- the other bank's record, where that is valid
  imageA : Option Image := none
  imageB : Option Image := none
  cast : Cast := {}
  prev : Option Cast := none
  keys : Tbl (List Byte) := []         -- key slots: 4 * partition + slot
  hostCfg : HostCfg := {}
  repairLog : List RepairRow := []
  repairHeld : List RepairRow := []
  exhausted : List (Nat × Nat × Nat) := []  -- stack, pseudo-channel, bank without repair resource
  crash : Option (Nat × List LogEntry) := none
  unlockFails : Nat := 0
  twinSeq : Nat := 0
  castOwed : Option (Cast × Option Cast) := none   -- the casts the store still holds while converted ones wait (18: R533)
  pendOwed : Option Nat := none        -- a deferred PENDING, with V (18: R530)
  deriving DecidableEq, Repr

/-- An armed cast action (18: R538). -/
structure CastArm where
  ret : Bool                           -- a return rather than a commit
  v : Nat
  items : Tbl Nat
  deriving DecidableEq, Repr

/-- A delta being applied (18: R528). -/
structure Staging where
  waiter : Waiter
  target : List Byte                   -- the whole image the operations write
  version : Nat
  hashOk : Bool                        -- steps 3 and 5 of R528, settled when the delta was read
  programmed : Nat := 0                -- bytes in the bank
  deriving DecidableEq, Repr

/-- A cast commit whose re-lay runs (06: R194; 18: R536). -/
structure Relay where
  waiter : Option Waiter
  plinths : List Nat                   -- still re-laying
  newKey : List Nat
  cast : Cast                          -- the cast that takes effect at the end
  v : Nat                              -- waypoint that fired it, or 0
  deriving DecidableEq, Repr

/-- Casts and updates in control-core state (18). -/
structure Update where
  maquette : Tbl Nat := []
  reseed : Bool := false
  castArm : Option CastArm := none
  updArm : Option Nat := none
  staging : Option Staging := none
  relay : Option Relay := none
  deriving DecidableEq, Repr

/-- Security state of one start (17). -/
structure Security where
  level : Nat := 0
  levelSession : Option Nat := none
  levelRef : Nat := 0
  challenge : Option (List Byte × Nat × Nat × Nat) := none   -- bytes, METHOD, session, reference count
  mr : List (List Byte) := List.replicate 8 (List.replicate 32 0)
  readmits : Nat := 0
  unlocks : Nat := 0
  akCert : List Byte := []
  deriving DecidableEq, Repr

end Sys2Proof.Machine
end

