-- ==== Sys2Proof/Machine/State.lean ====
section
/-!
DEFINITION. The state of the block: everything the spec gives the CX-1232, as plain data, the queue of waiting commands, and the
state right after reset. INVENTORY.md lists each piece with the rule that names it and its reset value.

Tables list only entries that differ from the default their accessor gives (Machine/Ops.lean).
-/
namespace Sys2Proof.Machine

open Sys2Proof

/-- The reasons the machine stops with a fault. The spec gives every command of the table an effect, so no meaning raises
one; the type is kept for the interface. Raising none is safe. -/
inductive Fault where
  /-- Raised by no meaning and no step. -/
  | none
  deriving DecidableEq, Repr

/-- The reasons a command has no meaning. -/
inductive Refusal where
  /-- A row of the table whose meaning is not written yet; raised by Machine/Dispatch.lean alone. Stopping there is safe. -/
  | notModelled (mnemonic : String)
  deriving DecidableEq, Repr

/-- A request that has passed its checks and waits: in the controller of the block it is for, while that block is kept busy (06: R176, R177,
R189, R190, R194), or for the route its block holds (10: R341). `id` is the request identifier it holds, `block` local[41:8] of the block whose
controller it waits in, `entry` the waypoint entries made when it was issued (08: R262), `copyOf` the tender channel whose mirrored copy reads
it (08: R274). -/
structure HeldReq where
  id : Option Nat
  cmd : Instr
  block : Option Nat := none
  entry : Nat := 0
  copyOf : Option Nat := none
  deriving DecidableEq, Repr

structure State where
  /-- The model's own: the commands that wait, first in, first out. -/
  pending : List Instr := []
  /-- The model's own: counts the free values drawn (assumption 8). -/
  free : Nat := 0
  pins : Pins := {}
  boot : Boot := {}
  startIn : StartInput := {}
  nor : Nor := {}
  upd : Update := {}
  log : Logbook := {}
  helm : Helm := {}
  sec : Security := {}
  parts : Tbl Partition := []
  tags : Tbl TagSt := []
  fab : FabricSt := {}
  caches : Tbl Cache := []
  /-- User memory and spill regions, by local address (06: R173). -/
  mem : Store := {}
  /-- Poisoned blocks, by local[41:8] (06: R184). -/
  poison : List Nat := []
  /-- Blocks that the atomic unit of each plinth holds, by local[41:8], most recent first (08: R259). -/
  atomicUnits : Tbl (List Nat) := []
  hbmStacks : Tbl Stack := []
  skew : Tbl SkewMon := []
  links : Tbl LinkEnd := []
  /-- The queues of the hubs and of the dies that send to them, one per traffic class for each input and output (07: R202; Machine/Hub.lean numbers them).
  Each packet waits in one of them until it reaches its unit. -/
  hubQ : Tbl (List HubPkt) := []
  /-- Requests that wait for memory or for a route (06: R190, R194; 10: R341). -/
  relayWait : List HeldReq := []
  dies : Tbl Die := []
  rails : Tbl Rail := []
  power : Power := {}
  stages : Tbl Stage := []
  held : Tbl (List HeldStore) := []
  pipes : Tbl Pipe := []
  chanQueue : Tbl (List ChanReq) := []
  grants : Tbl (List ChanGrant) := []
  /-- DRAIN_TIMEOUT in microseconds (04: R143). -/
  drainTimeout : Nat := 500
  chans : Tbl Chan := []
  tenders : Tbl Tender := []
  beacons : Tbl Beacon := []
  txEnds : Tbl TxEnd := []
  rxEnds : Tbl RxEnd := []
  /-- Latched high words of 64-bit registers, by service address of the low word (03: R115; 21: R573). -/
  latches : Tbl Nat := []
  deriving DecidableEq, Repr

/-- The machine right after reset: group 1 to 3 powered, RESET_N still low, nothing started (14: R425, R426, R444), the NOR banks and
fuses as a part leaves the factory (18: R535; 17: R506), every register at the value of its map, and those without one at
the values of assumptions 3 and 4. -/
def State.reset : State :=
  { nor :=
      { imageA := some { header := Config.factoryHeader, body := Config.factoryBody }
        record :=
          { versionA := field Config.factoryHeader 8 4, hashA := Config.sm3 (Config.factoryHeader ++ Config.factoryBody) }
        keys := [(3, Config.ownerKey)] } }

end Sys2Proof.Machine
end

