-- ==== Sys2Proof/Machine/Ops.lean ====
section
/-!
DEFINITION. Named operations over the state that every family uses: places in the tables, counters that saturate, the reports that
reach the logbook and the mailboxes, responses, the address map and the settings of the cast in force.
-/
namespace Sys2Proof.Machine

open Sys2Proof

/-- What every meaning answers: a next state. -/
abbrev Out := Host.Outcome State Fault Refusal

/-! ### Places -/

def State.die (s : State) (d : Nat) : Die := Tbl.getD s.dies d {}
def State.setDie (s : State) (d : Nat) (x : Die) : State := { s with dies := Tbl.set s.dies d x }
def State.stage (s : State) (k : Nat) : Stage := Tbl.getD s.stages k {}
def State.setStage (s : State) (k : Nat) (x : Stage) : State := { s with stages := Tbl.set s.stages k x }
def State.pipe? (s : State) (k : Nat) : Option Pipe := Tbl.get? s.pipes k
def State.setPipe (s : State) (k : Nat) (x : Pipe) : State := { s with pipes := Tbl.set s.pipes k x }
def State.stack (s : State) (k : Nat) : Stack := Tbl.getD s.hbmStacks k {}
def State.setStack (s : State) (k : Nat) (x : Stack) : State := { s with hbmStacks := Tbl.set s.hbmStacks k x }
def State.link (s : State) (k : Nat) : LinkEnd := Tbl.getD s.links k {}
def State.setLink (s : State) (k : Nat) (x : LinkEnd) : State := { s with links := Tbl.set s.links k x }
def State.cache (s : State) (p : Nat) : Cache := Tbl.getD s.caches p {}
def State.setCache (s : State) (p : Nat) (x : Cache) : State := { s with caches := Tbl.set s.caches p x }
def State.beacon (s : State) (b : Nat) : Beacon := Tbl.getD s.beacons b {}
def State.setBeacon (s : State) (b : Nat) (x : Beacon) : State := { s with beacons := Tbl.set s.beacons b x }
def State.tx (s : State) (b q : Nat) : TxEnd := Tbl.getD s.txEnds (16 * b + q) {}
def State.setTx (s : State) (b q : Nat) (x : TxEnd) : State := { s with txEnds := Tbl.set s.txEnds (16 * b + q) x }
def State.rx (s : State) (b q : Nat) : RxEnd := Tbl.getD s.rxEnds (16 * b + q) {}
def State.setRx (s : State) (b q : Nat) (x : RxEnd) : State := { s with rxEnds := Tbl.set s.rxEnds (16 * b + q) x }
def State.tagSt (s : State) (t : Nat) : TagSt := Tbl.getD s.tags t {}
def State.setTag (s : State) (t : Nat) (x : TagSt) : State := { s with tags := Tbl.set s.tags t x }
def State.mbox (s : State) (k : Nat) : Mailbox := Tbl.getD s.helm.mailboxes k {}
def State.setMbox (s : State) (k : Nat) (x : Mailbox) : State :=
  { s with helm := { s.helm with mailboxes := Tbl.set s.helm.mailboxes k x } }

/-- The default of a channel: WEIGHT 15 on CH48 to CH63, 8 below (11: R350, R370). -/
def Chan.default (k : Nat) : Chan := { weight := if 48 ≤ k % 64 then 15 else 8 }

def State.chan (s : State) (k : Nat) : Chan := Tbl.getD s.chans k (Chan.default k)
def State.setChan (s : State) (k : Nat) (x : Chan) : State := { s with chans := Tbl.set s.chans k x }

/-- The key of mailbox SB (12: R395). -/
def sbKey : Nat := 128

/-- The partition a mailbox belongs to; SB belongs to PT0 (12: R395). -/
def mbPartition (mb : Nat) : Nat := if mb = sbKey then 0 else mb / 8

/-- A unit identifier (07: R212). -/
def unitId (die unit : Nat) : Nat := die * 128 + unit

/-- The unit identifier of a die as a whole (07: R594). -/
def dieUnit (die : Nat) : Nat := unitId die 127

/-- Exsar's unit on PD0 (07: R594). -/
def exsarUnit : Nat := unitId 12 24

/-- The plinth that carries a die (01: R20). -/
def plinthOf (die : Nat) : Nat := if die < 12 then die / 3 else if die < 16 then die - 12 else (die - 16) / 2

/-- The dies of a plinth: its three compute dies and two beacons (01: R20). -/
def diesOf (p : Nat) : List Nat := [3 * p, 3 * p + 1, 3 * p + 2, 16 + 2 * p, 17 + 2 * p]

/-- A stage's die, unit and identifier. -/
def stDie (k : Nat) : Nat := k / 30
def stUnit (k : Nat) : Nat := k % 30
def stId (k : Nat) : Nat := unitId (stDie k) (stUnit k)

/-- The stage of a unit of a compute die (07: R594). -/
def unitStage (u : Nat) : Nat := 30 * (u / 128) + u % 128

/-- TYPE of a stage: 0 M, 1 V, 2 G, 3 S (04: R122; 07: R594). -/
def stType (k : Nat) : Nat :=
  let u := stUnit k
  if u < 6 then 0 else if u < 22 then 1 else if u < 26 then 2 else 3

/-- The number of the stage of a type and index on a die (13: R405). -/
def stNum (die typ idx : Nat) : Nat :=
  30 * die + (if typ = 0 then 0 else if typ = 1 then 6 else if typ = 2 then 22 else 26) + idx

/-- Index of a stage within its type. -/
def stIndex (k : Nat) : Nat :=
  let u := stUnit k
  if u < 6 then u else if u < 22 then u - 6 else if u < 26 then u - 22 else u - 26

/-- Size of a stage's local store in bytes (03: R69). -/
def lsSize (typ : Nat) : Nat :=
  (if typ = 0 then 32 else if typ = 1 then 4 else if typ = 2 then 8 else 2) * 2 ^ 20

/-- The power domain of a stage on its die, in the order of DOMAIN_GATED (15: R467; 21: R578). -/
def stDomain (k : Nat) : Nat :=
  let u := stUnit k
  if u < 6 then u else if u < 22 then 6 + (u - 6) / 4 else if u < 26 then 10 else 11

/-- Reference count of a die (03: R114). -/
def State.now (s : State) (die : Nat) : Nat := (s.die die).refCount

/-- PD0's reference count. -/
def State.now0 (s : State) : Nat := s.now 12

/-- A fresh value that nothing fixes (assumption 8), with the counter moved on. -/
def State.fresh (s : State) (use : Nat) : Nat × State := (Config.freeNat s.free use, { s with free := s.free + 1 })

/-! ### Settings of the cast in force (18: R590) -/

/-- Default VALUE of a cast item (06: R197; 08: R255, R263, R270; 09: R308; 10: R344; 11: R350; 14: R435; 15: R471; 16: R479;
17: R515). The keys 0x0003_0100 + 16 b + c default to the identity configuration. -/
def castDefault (key : Nat) : Nat :=
  match key with
  | 0x00010001 => 24 | 0x00010002 => 64 | 0x00010003 => 1 | 0x00010004 => 1000 | 0x00010005 => 10000
  | 0x00010006 => 4
  | 0x00020001 => 100 | 0x00020002 => 1000 | 0x00020003 => 50 | 0x00020004 => 50 | 0x00020005 => 60
  | 0x00020006 => 2000 | 0x00020007 => 4 | 0x00020008 => 100 | 0x00020009 => 10
  | 0x00030001 => 5000 | 0x00030002 => 50 | 0x00030003 => 4 | 0x00030004 => 4 | 0x00030005 => 512
  | 0x00040001 => 65536
  | 0x00050001 => 95 | 0x00050002 => 8 | 0x00050003 => 12 | 0x00050004 => 700 | 0x00050005 => 1000
  | 0x00050006 => 60 | 0x00050007 => 60 | 0x00050008 => 7500
  | 0x00060001 => 10
  | 0x00070003 => 60
  | _ => if 0x00030100 < key ∧ key < 0x00030180 ∧ key % 16 ≠ 0 then 0xFEDCBA9876543210 else 0

/-- VALUE of an item in the cast in force. -/
def State.setting (s : State) (key : Nat) : Nat := Tbl.getD s.nor.cast.items key (castDefault key)

/-- SPILL_SIZE of a plinth in bytes (10: R330, R344). -/
def State.spillSize (s : State) : Nat := s.setting 0x00020007 * 2 ^ 26

/-! ### Reports (12: R387 to R389; 16: R483 to R488) -/

/-- Class bit and severity of an event code (13: R423). -/
def eventInfo (code : Nat) : Option (Nat × Nat) :=
  match code with
  | 0x0001 => some (0, 0) | 0x0002 => some (0, 0)
  | 0x0010 => some (1, 0) | 0x0011 => some (1, 1) | 0x0012 => some (1, 2) | 0x0013 => some (1, 1)
  | 0x0018 => some (2, 0) | 0x0019 => some (2, 2)
  | 0x0020 => some (3, 2) | 0x0021 => some (3, 2)
  | 0x0028 => some (4, 0) | 0x0029 => some (4, 1) | 0x002A => some (4, 2)
  | 0x0030 => some (5, 1) | 0x0031 => some (5, 2) | 0x0032 => some (5, 1) | 0x0033 => some (5, 1)
  | 0x0034 => some (5, 2)
  | 0x0038 => some (6, 1) | 0x0039 => some (6, 0) | 0x003A => some (6, 1) | 0x003B => some (6, 3)
  | 0x0040 => some (7, 2) | 0x0041 => some (7, 0) | 0x0042 => some (7, 2) | 0x0043 => some (7, 2)
  | 0x0044 => some (7, 3) | 0x0045 => some (7, 1)
  | 0x0048 => some (8, 1) | 0x0049 => some (8, 1) | 0x004A => some (8, 1) | 0x004B => some (8, 1)
  | 0x004C => some (8, 2)
  | 0x0050 => some (9, 0) | 0x0051 => some (9, 2) | 0x0052 => some (9, 0) | 0x0053 => some (9, 0)
  | 0x0054 => some (9, 1) | 0x0055 => some (9, 0) | 0x0056 => some (9, 1)
  | 0x0058 => some (10, 1) | 0x0059 => some (10, 1) | 0x005A => some (10, 0)
  | 0x0060 => some (11, 1)
  | _ => none

/-- Severity of a code that only the logbook carries (16: R484; 17: R507). -/
def logSeverity (code : Nat) : Nat :=
  match code with
  | 0x0101 | 0x0102 | 0x0103 | 0x0104 | 0x0106 | 0x0107 | 0x0109 | 0x010A | 0x0110 | 0x0111 | 0x0115 | 0x0130 => 1
  | 0x0105 | 0x0112 | 0x0113 | 0x0120 => 2
  | _ => 0

/-- Does a report coalesce into this entry (16: R485)? The reference count runs modulo 2^64. -/
def LogEntry.takes (e : LogEntry) (code source ref : Nat) : Bool :=
  e.code == code && e.source == source && !e.crash && !e.old && subMod 64 ref e.refFirst < 156250

/-- The list with its newest entry (the last of the code and source) changed, if it takes the report. -/
def logCoalesce (es : List LogEntry) (code source ref : Nat) : Option (List LogEntry) :=
  match es.reverse.find? (fun e => e.code == code && e.source == source) with
  | none => none
  | some e =>
    if e.takes code source ref then
      some (es.map (fun x => if x.index = e.index then
        { x with count := satAdd 32 x.count 1, refLast := ref } else x))
    else none

/-- The ring without its oldest entry that is not PINNED (16: R486). -/
def dropOldest : List LogEntry → List LogEntry
  | [] => []
  | e :: es => if e.pinned then e :: dropOldest es else es

/-- A report taken into the logbook (16: R485, R486). -/
def Logbook.take (l : Logbook) (code cls sev source ref : Nat) (data : List Byte) : Logbook :=
  match logCoalesce l.entries code source ref with
  | some es => { l with entries := es }
  | none =>
    let full := decide (4096 ≤ l.entries.length)
    let es := if full then dropOldest l.entries else l.entries
    let e : LogEntry :=
      { index := l.next, code := code, cls := cls, severity := sev, source := source, pinned := l.pinNext,
        refFirst := ref, refLast := ref, data := padTo 64 data }
    { l with
      entries := es ++ [e], next := addMod 15 l.next 1, pinNext := false,
      lost := if full then satAdd 32 l.lost 1 else l.lost }

/-- One event record of 88 bytes (12: R388). -/
def eventRecord (code cls sev source ref lost : Nat) (data : List Byte) : List Byte :=
  leBytes 2 code ++ leBytes 1 cls ++ leBytes 1 sev ++ leBytes 2 source ++ leBytes 2 0 ++ leBytes 8 ref ++
    leBytes 4 lost ++ leBytes 4 0 ++ padTo 64 data

/-- Entries of a mailbox that events hold. -/
def Mailbox.events (m : Mailbox) : Nat := (m.out.filter (fun e => e.kind == .event && !e.done)).length

/-- Entries of the completion reserve in use, those promised to accepted invocations included (12: R387). -/
def Mailbox.reserved (m : Mailbox) : Nat := (m.out.filter (fun e => e.kind != .event && !e.done)).length + m.promised

/-- An event offered to one mailbox: queued, or dropped with LOST when no entry is free (12: R387, R395). -/
def Mailbox.offer (m : Mailbox) (limit : Nat) (mk : Nat → List Byte) : Mailbox :=
  if m.events < limit then { m with out := m.out ++ [{ kind := .event, body := mk m.lost }], lost := 0 }
  else { m with lost := satAdd 32 m.lost 1 }

/-- The mailboxes of a partition that may take an event of a class: SB stands with those of PT0. -/
def mailboxesOf (pt : Nat) : List Nat :=
  (List.range 8).map (fun m => 8 * pt + m) ++ (if pt = 0 then [sbKey] else [])

/-- The event offered to every mailbox of the partition that subscribed to its class (12: R389); SB then signals an in-band interrupt
(12: R394). -/
def State.postTo (s : State) (pt code cls sev source ref : Nat) (data : List Byte) : State :=
  (mailboxesOf pt).foldl (fun acc mb =>
    let m := acc.mbox mb
    if bit cls m.mask then
      let acc := acc.setMbox mb (m.offer (if mb = sbKey then 64 else 256)
        (fun lost => eventRecord code cls sev source ref lost data))
      if mb = sbKey then { acc with helm := { acc.helm with sb := { acc.helm.sb with ibi := true } } } else acc
    else acc) s

/-- An event of partition `pt`'s concern: recorded in the logbook and posted (12: R389). Classes marked PT0 go to PT0. -/
def State.postFor (s : State) (pt code source : Nat) (data : List Byte) : State :=
  match eventInfo code with
  | none => s
  | some (cls, sev) =>
    let ref := s.now (source / 128)
    let s := { s with log := s.log.take code cls sev source ref data }
    s.postTo (if 4 ≤ cls then 0 else pt) code cls sev source ref data

/-- An event of a class that only PT0 may subscribe to. -/
def State.post (s : State) (code source : Nat) (data : List Byte) : State := s.postFor 0 code source data

/-- A report that only the logbook carries (16: R484). -/
def State.logOnly (s : State) (code source : Nat) (data : List Byte) : State :=
  { s with log := s.log.take code 0xFF (logSeverity code) source (s.now (source / 128)) data }

/-- COUNTER_SAT once, as a 32-bit counter reaches its limit (16: R488; 13: R423). -/
def State.satCheck (s : State) (source item old new : Nat) : State :=
  if old < 2 ^ 32 - 1 ∧ new = 2 ^ 32 - 1 then s.post 0x0060 source (leBytes 2 source ++ leBytes 4 item) else s

/-- A service address (21: R571). -/
def svcAddr (die block off : Nat) : Nat := die * 2 ^ 27 + block * 2 ^ 21 + off

/-- A counter table with counter `i` of `w` bits advanced by `n`, stopping at its limit (16: R488). -/
def bumpTbl (t : Tbl Nat) (i w n : Nat) : Tbl Nat := Tbl.upd t i 0 (fun c => satAdd w c n)

/-- COUNTER_SAT when a bump of a 32-bit counter reached the limit: table before, place, amount. -/
def State.satBump (s : State) (t : Tbl Nat) (i n source addr : Nat) : State :=
  s.satCheck source addr (Tbl.getD t i 0) (satAdd 32 (Tbl.getD t i 0) n)

/-! ### Completion records and responses -/

/-- A completion record in the mailbox that was promised one of its entries (12: R387, R388). The logbook records it too. -/
def State.postCompletion (s : State) (mb code source : Nat) (data : List Byte) : State :=
  let ref := s.now (source / 128)
  let s := { s with log := s.log.take code 0 0 source ref data }
  let m := s.mbox mb
  s.setMbox mb { m with
    out := m.out ++ [{ kind := .completion, body := eventRecord code 0 0 source ref m.lost data }]
    promised := m.promised - 1
    lost := 0 }

/-- Payload bytes of one response frame: HELM_MTU less IPv6, UDP, Helm header, MAC and the response's own first 8 bytes
(12: R378, R379, R393); on the sideband 1,024-byte messages (12: R394). -/
def State.framePayload (s : State) (mb : Nat) : Nat := if mb = sbKey then 1016 else s.nor.hostCfg.mtu - 96

/-- One response frame: CODE, STATUS, the reserved byte (FLAGS with MORE on the sideband), CMD_SEQ, and its part of the payload. -/
def respFrame (mb code status seq : Nat) (more : Bool) (part : List Byte) : OutEntry :=
  { kind := .response
    body := leBytes 2 code ++ leBytes 1 status ++ leBytes 1 (if mb = sbKey then b2n more else 0) ++ leBytes 4 seq ++ part
    more := more }

/-- A response's frames; the first number bounds how many there can be. -/
def respFrames (mb code status seq limit : Nat) : Nat → List Byte → List OutEntry
  | 0, _ => []
  | k + 1, bs =>
    if bs.length ≤ limit then [respFrame mb code status seq false bs]
    else respFrame mb code status seq true (bs.take limit) :: respFrames mb code status seq limit k (bs.drop limit)

/-- The response of a command, queued in its mailbox, which may then start its next command (12: R379, R386). -/
def State.respond (s : State) (w : Waiter) (code status : Nat) (payload : List Byte) : State :=
  let m := s.mbox w.1
  s.setMbox w.1 { m with
    out := m.out ++ respFrames w.1 code status w.2 (s.framePayload w.1) (payload.length + 1) payload
    running := if m.running = some w.2 then none else m.running }

/-! ### Addresses -/

/-- NODE and local part of a fabric address (08: R234). -/
def nodeOf (a : Nat) : Nat := bits 55 42 a
def localOf (a : Nat) : Nat := a % 2 ^ 42

/-- The node number an address of the package itself carries (08: R234, R235). -/
def State.ownNode (s : State) : Nat := s.fab.node.getD 0

/-- Is the address in the package's own memory? -/
def State.isLocal (s : State) (a : Nat) : Bool := nodeOf a == s.ownNode

/-- A run of fabric addresses left undefined; only the package's own memory is this model's (assumption 10). -/
def State.undefine (s : State) (a n : Nat) : State :=
  if s.isLocal a then { s with mem := s.mem.undefine (localOf a) n s.free, free := s.free + 1 } else s

/-- A run of a stage's local store left undefined. -/
def State.undefineLs (s : State) (k off n : Nat) : State :=
  let x := s.stage k
  { s.setStage k { x with store := x.store.undefine off n s.free } with free := s.free + 1 }

/-- Owning plinth of a local address (06: R173). -/
def homePlinth (l : Nat) : Nat := bits 41 40 l

/-- Block number and index of a local address within its plinth (06: R173). -/
def blockOf (l : Nat) : Nat := bits 39 8 l
def indexOf (l : Nat) : Nat := blockOf l / 256

/-- h(x) under a key (06: R174). -/
def keyHash (key : List Nat) (x : Nat) : Nat :=
  ((List.range 8).map (fun i => parity 24 (Nat.land x (key.getD i 0)) * 2 ^ i)).sum

/-- Channel number of a block under a key (06: R174). -/
def channelOf (key : List Nat) (b : Nat) : Nat := Nat.xor (b % 256) (keyHash key (b / 256))

/-- The interleave key of a plinth's memory: the new one once its part of a re-lay is over (06: R194). -/
def State.keyAt (s : State) (p : Nat) : List Nat :=
  match s.upd.relay with
  | some r => if r.plinths.contains p then s.boot.key else r.newKey
  | none => s.boot.key

/-- Stack and pseudo-channel that hold a local address (06: R174). -/
def State.place (s : State) (l : Nat) : Nat × Nat :=
  let c := channelOf (s.keyAt (homePlinth l)) (blockOf l)
  (8 * homePlinth l + c / 32, c % 32)

/-- Is the local address in a spill region (10: R330)? -/
def State.inSpill (s : State) (l : Nat) : Bool := decide (2 ^ 40 - s.spillSize ≤ l % 2 ^ 40)

/-- The partition that carries a HALL_TAG; PT0 carries tag 0 (08: R236). -/
def State.partOfTag (s : State) (tag : Nat) : Option Nat :=
  if tag = 0 then some 0 else (s.parts.find? (fun p => p.2.hallTag = tag)).map (fun p => p.1)

/-- HALL_TAG of a partition. -/
def State.tagOfPart (s : State) (pt : Nat) : Nat := if pt = 0 then 0 else ((Tbl.get? s.parts pt).map (·.hallTag)).getD 0

/-- Is the temperature of PD0 in the NOR write range, 0 to 85 degrees (15: R460)? Temperatures are in quarter degrees. -/
def State.norRange (s : State) : Bool :=
  let t := (s.die 12).tj
  decide (0 ≤ t) && decide (t ≤ 340)

/-- Is it in the fuse range, 20 to 60 degrees (15: R460)? -/
def State.fuseRange (s : State) : Bool :=
  let t := (s.die 12).tj
  decide (80 ≤ t) && decide (t ≤ 240)

/-- Is a stack in the hard-repair range, 25 to 85 degrees (15: R460)? -/
def hardRange (t : Int) : Bool := decide (100 ≤ t) && decide (t ≤ 340)

/-- Does the device take commands in full: READY or TEST, and no failure stop (13: R399; 16: R495)? -/
def State.isReady (s : State) : Bool := s.boot.dev == .ready || s.boot.dev == .test

end Sys2Proof.Machine
end

