-- ==== Sys2Proof/Machine/Hub.lean ====
section
/-!
DEFINITION. The plinth hubs: the links of the package, the way a packet takes between two dies, the hubs' queues, and the credits a packet draws on the
links it crosses (01: R18, R19; 07: R201, R202, R205, R212 to R214, R217).
-/
namespace Sys2Proof.Machine

open Sys2Proof

/-! ### Links -/

/-- The capability word of a link end: REVISION of its die, BASE 1, features and maker (07: R220). -/
def linkOwn (k : Nat) : Nat :=
  Config.dieRevision (k / 8) % 256 + 2 ^ 8 + Nat.land (Config.ownWord k) 0x0000FFFF00001E00

/-- The other end of a link (21: R572). -/
def linkPeer (k : Nat) : Nat :=
  let d := k / 8
  let n := k % 8
  if d < 12 then 8 * (12 + d / 3) + d % 3
  else if d < 16 then
    let p := d - 12
    if n < 3 then 8 * (3 * p + n)
    else if n = 3 then 8 * (12 + Nat.xor p 1) + 3
    else if n = 4 then 8 * (12 + Nat.xor p 2) + 4
    else 8 * (16 + 2 * p + (n - 5))
  else 8 * (12 + (d - 16) / 2) + 5 + d % 2

/-- Number of link instances on a die (21: R572). -/
def linkCount (d : Nat) : Nat := if 12 ≤ d ∧ d < 16 then 7 else 1

/-- Every link end of the package. -/
def linkEnds : List Nat := (List.range 24).flatMap (fun d => (List.range (linkCount d)).map (fun i => 8 * d + i))

/-- One end of each link, the plinth's (of a plinth link, the lower-numbered plinth's). -/
def linkList : List Nat :=
  ((List.range 4).flatMap (fun p => (List.range 7).map (fun i => 8 * (12 + p) + i))).filter
    (fun k => decide (k < linkPeer k) || decide (linkPeer k < 96) || decide (128 ≤ linkPeer k))

/-- Is it a link between two plinths? -/
def plinthLink (k : Nat) : Bool := decide (96 ≤ k) && decide (k < 128) && (k % 8 == 3 || k % 8 == 4)

/-- The die at the far side of a plinth's link end, or the die itself for its own end. -/
def linkDie (k : Nat) : Nat := if 96 ≤ k ∧ k < 128 then linkPeer k / 8 else k / 8

/-! ### The way between two dies (07: R205) -/

/-- The flow key of a packet: a record's PIPELINE and STREAM, a request's address bits [55:8], a completion's tag. The rule names no key for other packets
(assumption 76). -/
def HubPkt.flowKey (p : HubPkt) : Nat :=
  match p.typ with
  | 7 => bits 31 16 p.specific
  | 2 | 3 | 4 | 5 => bits 55 8 p.specific
  | 6 => p.tag
  | t => Config.flowKey t

/-- The plinth after `a` on the way to `b`: a neighbour itself, or the intermediate plinth that the flow's parity under SEED picks. -/
def State.hop (s : State) (p : HubPkt) (a b : Nat) : Nat :=
  if Nat.xor a b ≠ 3 then b
  else Nat.xor a (if parity 64 (Nat.land p.flowKey s.boot.seed) = 0 then 1 else 2)

/-- The sending ends of the plinth links from one plinth to another. -/
def State.hops (s : State) (p : HubPkt) (a b : Nat) : List Nat :=
  let e := fun (x y : Nat) => 8 * (12 + x) + (if Nat.xor x y = 1 then 3 else 4)
  if a = b then []
  else
    let c := s.hop p a b
    if c = b then [e a b] else [e a c, e c b]

/-- Is it a plinth? -/
def isPlinth (d : Nat) : Bool := decide (12 ≤ d) && decide (d < 16)

/-- The sending ends of the links that a packet crosses from a die to its receiver: none on the die itself (01: R18). -/
def State.way (s : State) (place : Nat) (p : HubPkt) : List Nat :=
  let d := p.dst / 128
  if d = place then []
  else
    (if isPlinth place then [] else [8 * place]) ++ s.hops p (plinthOf place) (plinthOf d) ++ (if isPlinth d then [] else [linkPeer (8 * d)])

/-! ### Queues (07: R201, R202) -/

/-- The hub port of a unit of a plinth: 7 the hub itself, 8 to 15 the HBM controllers, 16 the fabric cache, 17 the tender, 18 the collective engine, 19 the
service core, 20 the Exsar complex, 21 its Ethernet port. Ports 0 to 6 are the plinth's links, by LINK instance. -/
def unitPort (u : Nat) : Nat :=
  match u with
  | 1 => 19 | 2 => 17 | 3 => 18 | 4 => 16
  | 24 | 25 | 26 | 27 => 20
  | 28 | 29 => 21
  | u => if 8 ≤ u ∧ u < 16 then u else 7

/-- The number of a queue: the die whose hub or sender it stands in, input, output and traffic class. -/
def queueKey (place inp out tc : Nat) : Nat := ((place * 32 + inp) * 32 + out) * 8 + tc

/-- The die a queue stands in. -/
def queuePlace (key : Nat) : Nat := key / 8192

/-- A packet put into its queue: the one of its class for its input and its output. -/
def State.enqueue (s : State) (place inp : Nat) (p : HubPkt) : State :=
  let out := match s.way place p with
    | k :: _ => k % 8
    | [] => unitPort (p.dst % 128)
  { s with hubQ := Tbl.upd s.hubQ (queueKey place inp out p.tc) [] (· ++ [p]) }

/-- A packet that a unit sends. -/
def State.toUnit (s : State) (p : HubPkt) : State := s.enqueue (p.src / 128) (unitPort (p.src % 128)) p

/-- Every packet in the queues. -/
def State.hubOut (s : State) : List HubPkt := s.hubQ.flatMap (·.2)

/-- The queues without the packets that a test picks. -/
def State.dropPkts (s : State) (same : HubPkt → Bool) : State :=
  { s with hubQ := (s.hubQ.map (fun (q : Nat × List HubPkt) => (q.1, q.2.filter (fun p => !same p)))).filter (fun q => !q.2.isEmpty) }

/-! ### Crossing a link (07: R214, R217) -/

/-- 16-byte units of a packet. -/
def HubPkt.units (p : HubPkt) : Nat := (16 + p.payload.length + 15) / 16

/-- Credits of a class: 512 units of its own at the start, 9,216 shared. -/
def LinkEnd.own (e : LinkEnd) (c : Nat) : Nat := Tbl.getD e.credits c 512
def LinkEnd.shared (e : LinkEnd) : Nat := Tbl.getD e.credits 6 9216

/-- Does the link carry a packet now: it is up, and the credits of the packet's class cover the whole packet? -/
def LinkEnd.carries (e : LinkEnd) (p : HubPkt) : Bool := e.st == .up && decide (p.units ≤ e.own p.tc + e.shared)

/-- The credits a packet takes: of the class's reserve first, then of the shared space. -/
def LinkEnd.draw (e : LinkEnd) (p : HubPkt) : LinkEnd :=
  let a := min p.units (e.own p.tc)
  { e with credits := Tbl.set (Tbl.set e.credits p.tc (e.own p.tc - a)) 6 (e.shared - (p.units - a)) }

/-- Credits that a packet moved on from a receiver leaves to be returned. -/
def LinkEnd.owe (e : LinkEnd) (p : HubPkt) : LinkEnd := { e with owed := Tbl.upd e.owed p.tc 0 (· + p.units) }

/-- One link crossed, and the packet moved on at its far end. -/
def State.crossOne (s : State) (p : HubPkt) (k : Nat) : State :=
  let s := s.setLink k ((s.link k).draw p)
  s.setLink (linkPeer k) ((s.link (linkPeer k)).owe p)

/-- Do all links of a packet's way carry it now? -/
def State.crosses (s : State) (place : Nat) (p : HubPkt) : Bool := (s.way place p).all (fun k => (s.link k).carries p)

/-- The packet over its way. -/
def State.cross (s : State) (place : Nat) (p : HubPkt) : State := (s.way place p).foldl (fun acc k => acc.crossOne p k) s

/-- The first packet of the queues that a test picks, and its queue. -/
def State.findPkt (s : State) (same : HubPkt → Bool) : Option (Nat × HubPkt) :=
  s.hubQ.findSome? (fun (q : Nat × List HubPkt) => (q.2.find? same).map (fun p => (q.1, p)))

/-- A packet out of its queue. -/
def State.unqueue (s : State) (key : Nat) (p : HubPkt) : State :=
  let rest := (Tbl.getD s.hubQ key []).erase p
  { s with hubQ := if rest.isEmpty then Tbl.erase s.hubQ key else Tbl.set s.hubQ key rest }

/-- A packet that a test picks reaches its unit over its links. Without one the row's packet came from elsewhere and nothing changes; none where a link
cannot carry it yet. -/
def State.takeHub (s : State) (same : HubPkt → Bool) : Option State :=
  match s.findPkt same with
  | none => some s
  | some (key, p) => if s.crosses (queuePlace key) p then some ((s.cross (queuePlace key) p).unqueue key p) else none

/-- The same for a packet that must be one of the hubs'. -/
def State.takeSent (s : State) (same : HubPkt → Bool) : Option State :=
  if (s.findPkt same).isSome then s.takeHub same else none

/-- The hub of a plinth (07: R594). -/
def hubUnit (p : Nat) : Nat := unitId (12 + p) 0

/-- A COMPLETION packet from the unit `src` to a unit of the package, in the request's partition (07: R212). One for a unit of a fenced die is
discarded (07: R225). -/
def State.complete (s : State) (src pt unit tag status : Nat) (data : List Byte) : State :=
  if (s.die (unit / 128)).life != .up then s
  else s.toUnit { typ := 6, tc := 2, partition := pt, src := src, dst := unit, tag := tag, specific := status, payload := data }

end Sys2Proof.Machine
end

