-- ==== Sys2Proof/Machine/CastItems.lean ====
section
/-!
DEFINITION. Cast items: their keys, lengths, ranges and bytes (18: R590), the conversion of stored casts to an image's formats (18: R533),
and the rank of a key matrix over GF(2) (06: R175).
-/
namespace Sys2Proof.Machine

open Sys2Proof

/-! ### Rank over GF(2) -/

/-- One elimination step: the first row with bit `b` set is taken out and added to the others that have it. -/
def gfPivot (b : Nat) (rows : List Nat) : Option (List Nat) :=
  match rows.find? (fun r => bit b r) with
  | none => none
  | some p => some ((rows.erase p).map (fun r => if bit b r then Nat.xor r p else r))

/-- Rank of rows of `w` bits. -/
def gfRank : Nat → List Nat → Nat
  | 0, _ => 0
  | w + 1, rows =>
    match gfPivot w rows with
    | none => gfRank w rows
    | some rest => gfRank w rest + 1

/-! ### Items (18: R590) -/

/-- The keys other than switch configurations that a cast holds. -/
def plainKeys : List Nat :=
  [0x00010001, 0x00010002, 0x00010003, 0x00010004, 0x00010005, 0x00010006,
   0x00020001, 0x00020002, 0x00020003, 0x00020004, 0x00020005, 0x00020006, 0x00020007, 0x00020008, 0x00020009,
   0x00030001, 0x00030002, 0x00030003, 0x00030004, 0x00030005]

/-- The keys after the switch configurations. -/
def lateKeys : List Nat :=
  [0x00040001, 0x00050001, 0x00050002, 0x00050003, 0x00050004, 0x00050005, 0x00050006, 0x00050007, 0x00050008,
   0x00060001, 0x00070001, 0x00070002, 0x00070003, 0x00070004]

/-- Keys of the switch configurations of a beacon. -/
def switchKeys (b : Nat) : List Nat := (List.range 15).map (fun c => 0x00030100 + 16 * b + c + 1)

/-- Every key of a cast, in key order. -/
def castKeys : List Nat := plainKeys ++ (List.range 8).flatMap switchKeys ++ lateKeys

/-- HBM_RESEED, which only a maquette holds (18: R534). -/
def reseedKey : Nat := 0x00010007

/-- Is it a switch configuration? -/
def isSwitchKey (k : Nat) : Bool := decide (0x00030100 < k) && decide (k < 0x00030180) && k % 16 != 0

/-- LEN of a key's VALUE in a format (18: R590). -/
def itemLen (fmt k : Nat) : Option Nat :=
  if isSwitchKey k || k == reseedKey then some 8
  else
    match k with
    | 0x00010001 | 0x00010004 | 0x00010005 => some 4
    | 0x00010002 => some 2
    | 0x00010003 | 0x00010006 => some 1
    | 0x00020007 => some 1
    | 0x00020001 | 0x00020002 | 0x00020003 | 0x00020004 | 0x00020005 | 0x00020006 | 0x00020008 | 0x00020009 => some 4
    | 0x00030001 | 0x00030002 => some 4
    | 0x00030003 | 0x00030004 => some 1
    | 0x00030005 => some 2
    | 0x00040001 => some 4
    | 0x00050002 => some (if fmt = 2 then 2 else 1)
    | 0x00050001 | 0x00050003 | 0x00050006 | 0x00050007 => some 1
    | 0x00050004 | 0x00050008 => some 2
    | 0x00050005 => some 4
    | 0x00060001 | 0x00070003 => some 4
    | 0x00070001 => some 32
    | 0x00070002 | 0x00070004 => some 64
    | _ => none

/-- Range and step of a numeric item (18: R590); items without one take any value. -/
def itemRange (k : Nat) : Option (Nat × Nat × Nat) :=
  match k with
  | 0x00010001 => some (1, 168, 1)
  | 0x00010002 => some (24, 1024, 1)
  | 0x00010003 => some (0, 50, 1)
  | 0x00010004 => some (0, 100000, 1)
  | 0x00010005 => some (0, 10000000, 1)
  | 0x00010006 => some (0, 7, 1)
  | 0x00010007 => some (1, 1, 1)
  | 0x00020001 => some (1, 10000, 1)
  | 0x00020002 => some (10, 60000, 1)
  | 0x00020003 => some (1, 10000, 1)
  | 0x00020004 => some (10, 1000, 1)
  | 0x00020005 => some (20, 2000, 1)
  | 0x00020006 => some (200, 50000, 1)
  | 0x00020007 => some (0, 16, 1)
  | 0x00020008 => some (1, 10000, 1)
  | 0x00020009 => some (1, 1000, 1)
  | 0x00030001 => some (1000, 60000, 1)
  | 0x00030002 => some (10, 1000, 1)
  | 0x00030003 => some (1, 8, 1)
  | 0x00030004 => some (3, 6, 1)
  | 0x00030005 => some (128, 2560, 1)
  | 0x00040001 => some (4096, 1048576, 4096)
  | 0x00050001 => some (80, 100, 1)
  | 0x00050002 => some (2, 20, 1)
  | 0x00050003 => some (4, 40, 1)
  | 0x00050004 => some (550, 850, 5)
  | 0x00050005 => some (0, 1000000, 1)
  | 0x00050006 => some (20, 90, 1)
  | 0x00050007 => some (0, 200, 1)
  | 0x00050008 => some (1800, 7500, 1)
  | 0x00060001 => some (1, 1440, 1)
  | 0x00070003 => some (1, 1440, 1)
  | _ => none

/-- Is the VALUE in its range and on its steps (13: R418)? -/
def itemOk (k v : Nat) : Bool :=
  match itemRange k with
  | none => true
  | some (lo, hi, step) => decide (lo ≤ v) && decide (v ≤ hi) && v % step == 0

/-- One item as the settings store and MAQUETTE_READ write it: KEY, LEN, reserved, VALUE padded to a multiple of 8 (13). -/
def itemBytes (k len v : Nat) : List Byte :=
  leBytes 4 k ++ leBytes 2 len ++ leBytes 2 0 ++ leBytes ((len + 7) / 8 * 8) v

/-- FORMAT of a stored item: 1 where not listed; 0 marks an item the store does not hold (18: R533). -/
def Cast.format (c : Cast) (k : Nat) : Nat := Tbl.getD c.formats k 1

/-- VALUE of an item of a cast. -/
def Cast.value (c : Cast) (k : Nat) : Nat := Tbl.getD c.items k (castDefault k)

/-- The full content of a cast (17: R508; 18: R533): number, then KEY, FORMAT, LEN and VALUE of each item. -/
def Cast.bytes (c : Cast) : List Byte :=
  leBytes 4 c.number ++ castKeys.flatMap (fun k =>
    let f := c.format k
    let n := (itemLen f k).getD 0
    leBytes 4 k ++ leBytes 2 f ++ leBytes 2 n ++ leBytes n (c.value k))

/-- An item set, kept out of the list where it equals its default. -/
def Cast.put (c : Cast) (k v : Nat) : Cast :=
  { c with items := if v = castDefault k then Tbl.erase c.items k else Tbl.set c.items k v }

/-- One key converted to an image's FORMAT (none: the image does not read the key); true when it was reset or dropped. -/
def Cast.convertKey (c : Cast) (k : Nat) (table : Option Nat) : Cast × Bool :=
  let f := c.format k
  match table with
  | none => if f = 0 then (c, false) else ({ c with items := Tbl.erase c.items k, formats := Tbl.set c.formats k 0 }, true)
  | some g =>
    if f = g then (c, false)
    else
      let fs := if g = 1 then Tbl.erase c.formats k else Tbl.set c.formats k g
      ({ c with items := Tbl.erase c.items k, formats := fs }, f != 0)

/-- A stored cast under the running image's format table, with the keys reset or dropped (18: R533). -/
def Cast.convert (c : Cast) (image : List Byte) : Cast × List Nat :=
  castKeys.foldl (fun acc k =>
    let r := acc.1.convertKey k (Config.imageFormat image k)
    (r.1, if r.2 then acc.2 ++ [k] else acc.2)) (c, [])

/-- Transmit fibre of bank TBq under a configuration value (09: R298). -/
def switchOut (cfg q : Nat) : Nat := cfg / 16 ^ q % 16

/-- Is the configuration a permutation (09: R298)? -/
def isPermutation (cfg : Nat) : Bool :=
  (List.range 16).all (fun f => ((List.range 16).any (fun q => switchOut cfg q == f)))

/-- The configuration `c` of beacon `b`; 0 is the identity (09: R298). -/
def State.switchCfg (s : State) (b c : Nat) : Nat :=
  if c = 0 then 0xFEDCBA9876543210 else s.setting (0x00030100 + 16 * b + c)

end Sys2Proof.Machine
end

