-- ==== Sys2Proof/Machine/Codeword.lean ====
section
/-!
DEFINITION. Codewords of a lane: the field, the RS(272,257) code, the header, the scrambler, and the blocks that flits fill (09: R279, R280, R282;
10: R313, R315).
-/
namespace Sys2Proof.Machine

open Sys2Proof

/-! ### The code (09: R279) -/

/-- Twice an element of GF(2^10), x^10 + x^3 + 1. -/
def gfTwice (a : Nat) : Nat := if 512 ≤ a then Nat.xor (2 * a) 0x409 else 2 * a

/-- A product in GF(2^10): of the running sum and the running multiple of `a`, bit by bit of `b`. -/
def gfTimes (a b : Nat) : Nat :=
  ((List.range 10).foldl (fun (p : Nat × Nat) i => (if bit i b then Nat.xor p.1 p.2 else p.1, gfTwice p.2)) (0, a)).1

/-- α^j, α being x. -/
def gfAlpha : Nat → Nat
  | 0 => 1
  | j + 1 => gfTwice (gfAlpha j)

/-- The generator's coefficients below the highest, the highest power first: the product of (x − α^j) for j from 0 to 14. -/
def rsGenerator : List Nat :=
  ((List.range 15).foldl (fun (g : List Nat) j => ((g ++ [0]).zip (0 :: g)).map (fun (p : Nat × Nat) => Nat.xor p.1 (gfTimes (gfAlpha j) p.2))) [1]).tail

/-- The 15 check symbols of the data symbols: the remainder of the data, shifted up, by the generator. The first symbol has the highest power
(assumption 84). -/
def rsChecks (data : List Nat) : List Nat :=
  data.foldl (fun (r : List Nat) d =>
    let f := Nat.xor d (r.headD 0)
    ((r.tail ++ [0]).zip rsGenerator).map (fun (p : Nat × Nat) => Nat.xor p.1 (gfTimes f p.2))) (List.replicate 15 0)

/-- The header of a codeword: LTAG, MARK, FILL and even PARITY. -/
def wordHeader (ltag : Nat) (mark fill : Bool) : Nat :=
  let h := ltag % 32 + 32 * b2n mark + 64 * b2n fill
  h + 512 * parity 9 h

def headerMark (h : Nat) : Bool := bit 5 h
def headerFill (h : Nat) : Bool := bit 6 h

/-! ### The scrambler -/

/-- One step of PRBS31, x^31 + x^28 + 1: the next state and the bit it gives. -/
def prbsStep (x : Nat) : Nat × Bool :=
  let b := bit 30 x != bit 27 x
  (2 * x % 2 ^ 31 + b2n b, b)

/-- The state after so many steps. -/
def prbsAfter : Nat → Nat → Nat
  | 0, x => x
  | n + 1, x => prbsAfter n (prbsStep x).1

/-- The next bits, the first the lowest. -/
def prbsBits : Nat → Nat → Nat
  | 0, _ => 0
  | n + 1, x => b2n (prbsStep x).2 + 2 * prbsBits n (prbsStep x).1

/-- A payload block scrambled, or set right again: λ gives the seed, and the codeword's place in its MARK period how far the generator has run. -/
def scramble (lam place : Nat) (block : List Byte) : List Byte :=
  leBytes 320 (Nat.xor (leNat (padTo 320 block)) (prbsBits 2560 (prbsAfter (2560 * place) (Config.prbsSeed lam))))

/-- The 272 symbols of a codeword on the fibre: header, scrambled block, checks. -/
def TxWord.symbols (w : TxWord) : List Nat :=
  let n := leNat (scramble w.line w.place w.block)
  let data := w.header :: (List.range 256).map (fun i => n / 2 ^ (10 * i) % 1024)
  data ++ rsChecks data

/-! ### Groups (10: R315) -/

/-- The four blocks that carry five flits. -/
def groupBlocks (flits : List (List Byte)) : List (List Byte) := (List.range 4).map (fun i => slice flits.flatten (320 * i) 320)

/-- The flits of a group that came whole. -/
def groupFlits (blocks : List (Option (List Byte))) : List (List Byte) :=
  (List.range 5).filterMap (fun f =>
    let first := 256 * f / 320
    let last := (256 * f + 255) / 320
    match blocks.getD first none, blocks.getD last none with
    | some x, some y => some (slice (if first = last then x else x ++ y) (256 * f - 320 * first) 256)
    | _, _ => none)

end Sys2Proof.Machine
end

