-- ==== Sys2Proof/Machine/Armature.lean ====
section
/-!
DEFINITION. Reading an armature: its header, its tables and the fields of their entries, and how each input of a stage is fed
(04: R118 to R127, R133, R134, R595). An armature is the byte string the pipeline was loaded with.
-/
namespace Sys2Proof.Machine

open Sys2Proof

/-! ### Header (04: R118) -/

def armId (a : List Byte) : Nat := field a 0x10 8
def armNStage (a : List Byte) : Nat := field a 0x18 1
def armNStream (a : List Byte) : Nat := field a 0x19 1
def armNRegion (a : List Byte) : Nat := field a 0x1A 1
def armNLoad (a : List Byte) : Nat := field a 0x1B 1
def armNSource (a : List Byte) : Nat := field a 0x1C 1
def armRunAhead (a : List Byte) : Nat := field a 0x1D 1
def armGap (a : List Byte) : Nat := field a 0x1E 1
def armRepeat (a : List Byte) : Bool := bit 0 (field a 0x1F 1)
def armStrict (a : List Byte) : Bool := bit 1 (field a 0x1F 1)
def armRepeatMax (a : List Byte) : Nat := field a 0x38 2
def armControl (a : List Byte) : Nat := field a 0x3A 1
def armSwapA (a : List Byte) : Nat := field a 0x3B 1
def armSwapB (a : List Byte) : Nat := field a 0x3C 1

/-- GAP_HOLD in microseconds: 0 selects 300. -/
def armGapHold (a : List Byte) : Nat := if field a 0x3E 2 = 0 then 300 else field a 0x3E 2

/-- Offsets of the entries. -/
def offStage (a : List Byte) (i : Nat) : Nat := field a 0x20 4 + 64 * i
def offStream (a : List Byte) (i : Nat) : Nat := field a 0x24 4 + 8 * i
def offRegion (a : List Byte) (i : Nat) : Nat := field a 0x28 4 + 16 * i
def offLoad (a : List Byte) (i : Nat) : Nat := field a 0x2C 4 + 32 * i
def offSource (a : List Byte) (i : Nat) : Nat := field a 0x30 4 + 32 * i
def offCode (a : List Byte) : Nat := field a 0x34 4

/-- Entries. -/
def stageEnt (a : List Byte) (i : Nat) : List Byte := slice a (offStage a i) 64
def streamEnt (a : List Byte) (i : Nat) : List Byte := slice a (offStream a i) 8
def regionEnt (a : List Byte) (i : Nat) : List Byte := slice a (offRegion a i) 16
def loadEnt (a : List Byte) (i : Nat) : List Byte := slice a (offLoad a i) 32
def sourceEnt (a : List Byte) (i : Nat) : List Byte := slice a (offSource a i) 32

/-! ### Formats (04: R122) -/

/-- The format a code names. -/
def fmtOf : Nat → Option Fmt
  | 0x0 => some .fp32 | 0x1 => some .fp64 | 0x2 => some .bf16 | 0x3 => some .fp16 | 0x4 => some .int8 | 0x5 => some .int4
  | 0x6 => some .int32 | 0x7 => some .int64 | 0x8 => some .e5m2 | 0x9 => some .e4m3 | 0xA => some .e3m2 | 0xB => some .e2m3
  | 0xC => some .e2m1 | 0xD => some .mxint8
  | _ => none

/-- The format, FP32 where the code is reserved; a loaded armature holds no reserved one. -/
def fmtD (c : Nat) : Fmt := (fmtOf c).getD .fp32

/-! ### Regions (04: R119) -/

def regLength (a : List Byte) (r : Nat) : Nat := field (regionEnt a r) 0 8
def regAccess (a : List Byte) (r : Nat) : Nat := field (regionEnt a r) 8 1
def regAlign (a : List Byte) (r : Nat) : Nat := field (regionEnt a r) 9 1

/-- RUNAHEAD_OK of a region. -/
def regRunAhead (a : List Byte) (r : Nat) : Bool := bit 3 (regAccess a r)

/-! ### Stages (04: R122) -/

def stTypeOf (e : List Byte) : Nat := field e 1 1
def stOpcode (e : List Byte) : Nat := field e 3 1
def stFlags (e : List Byte) : Nat := field e 4 2

/-- The stage an entry names after the die map. -/
def entStage (dieMap : List Nat) (e : List Byte) : Nat := stNum (dieMap.getD (field e 0 1) 0) (stTypeOf e) (field e 2 1)

/-- M-stage flags. -/
def mSparse (e : List Byte) : Bool := bit 0 (stFlags e)
def mBKn (e : List Byte) : Bool := bit 1 (stFlags e)
def mAKm (e : List Byte) : Bool := bit 2 (stFlags e)
def mSlice (e : List Byte) : Bool := stOpcode e == 0x11
def mAFromLs (e : List Byte) : Bool := bit 3 (stFlags e) || mSlice e
def mBFromIn1 (e : List Byte) : Bool := bit 4 (stFlags e)
def mC0 (e : List Byte) : Nat := bits 6 5 (stFlags e)
def mDrainT (e : List Byte) : Bool := bit 7 (stFlags e)
def mDrainLs (e : List Byte) : Bool := bit 8 (stFlags e)
def mSatFinite (e : List Byte) : Bool := bit 9 (stFlags e)
def mRowSeg (e : List Byte) : Bool := bit 10 (stFlags e)
/-- M-stage parameters. -/
def mFmtA (e : List Byte) : Fmt := fmtD (field e 8 1)
def mFmtB (e : List Byte) : Fmt := fmtD (field e 9 1)
def mFmtOut (e : List Byte) : Fmt := fmtD (field e 0xA 1)
def mRows (e : List Byte) : Nat := field e 0xC 4
def mK (e : List Byte) : Nat := field e 0x10 4
def mN (e : List Byte) : Nat := field e 0x14 4

/-- The operand pairs of an M-stage (02: R45). -/
def pairOk (a b : Fmt) : Bool :=
  (a.isMxFp && b.isMxFp) || (a == .mxint8 && b == .mxint8) || (a == .int8 && (b == .int8 || b == .int4)) ||
    (a == .int4 && b == .int4) || (a == b && (a == .bf16 || a == .fp16 || a == .fp32))

/-- K-elements that one A row carries through the array (03: R83). -/
def kTile (a b : Fmt) (sparse : Bool) : Nat :=
  let dense := if (a.isMxFp && a.width ≤ 6 && b.width ≤ 6) || (a == .int4 && b == .int4) then 1024 else 512
  if sparse then 2 * dense else dense

/-- Handshakes per A row (03: R83). -/
def rowSteps (a : Fmt) : Nat := if a == .fp32 then 16 else if a.width = 16 then 2 else 1

/-- V-stage parameters. -/
def vCodeOff (e : List Byte) : Nat := field e 8 4
def vNInstr (e : List Byte) : Nat := field e 0xC 2
/-- Region, start offset and stride of store descriptor 0 or 1. -/
def vStore (e : List Byte) (d : Bool) : Nat × Nat × Nat :=
  if d then (field e 0x28 1, field e 0x30 8, field e 0x38 8) else (field e 0x10 1, field e 0x18 8, field e 0x20 8)

/-- Instruction `j` of a V-stage entry. -/
def vInstr (a e : List Byte) (j : Nat) : List Byte := slice a (offCode a + vCodeOff e + 16 * j) 16

/-- Every instruction of a V-stage entry. -/
def vCode (a e : List Byte) : List (List Byte) := (List.range (vNInstr e)).map (vInstr a e)

/-- An operand of a V instruction at an offset: KIND, REL, ROW (04: R123). -/
def vKind (i : List Byte) (off : Nat) : Nat := bits 15 12 (field i off 2)
def vRel (i : List Byte) (off : Nat) : Bool := bit 11 (field i off 2)
def vRow (i : List Byte) (off : Nat) : Nat := bits 9 0 (field i off 2)
def vOpc (i : List Byte) : Nat := field i 0 1
def vLen (i : List Byte) : Nat := field i 0xC 2
def vIFlag (i : List Byte) (b : Nat) : Bool := bit b (field i 0xE 1)

/-- G-stage flags. -/
def gArrival (e : List Byte) : Bool := bit 0 (stFlags e)
def gPairs (e : List Byte) : Bool := bit 1 (stFlags e)
def gXLocal (e : List Byte) : Bool := bit 2 (stFlags e)

/-- Does a V-stage entry hold an instruction of an operation? -/
def vHas (a e : List Byte) (opc : Nat) : Bool := (vCode a e).any (fun i => vOpc i == opc)

/-- Does an instruction of the entry name an input: 0 for IN0, 1 for IN1 (04: R595)? -/
def vNames (a e : List Byte) (port : Nat) : Bool :=
  (vCode a e).any (fun i => [4, 6, 8].any (fun off =>
    let k := vKind i off
    if port = 0 then k == 1 || k == 4 || k == 5 else k == 2))

/-- Input ports that the operation uses (03: R76; 04: R595). -/
def usedInputs (a e : List Byte) : List Nat :=
  match stTypeOf e with
  | 0 => (if mAFromLs e then [] else [0]) ++ (if mBFromIn1 e || mC0 e == 2 then [1] else [])
  | 1 => (if vNames a e 0 then [0] else []) ++ (if vNames a e 1 then [1] else []) ++ (if vHas a e 0x31 then [2] else [])
  | 2 => if stOpcode e = 0x30 then [] else if stOpcode e = 0x35 then [0, 1] else [0]
  | _ => if stOpcode e = 0x4A ∨ (stOpcode e = 0x49 ∧ field e 0xA 1 = 1) then [0, 1] else [0]

/-! ### Ports (03: R76) -/

/-- Is an input port, or an output port, an index port? None: no such port. -/
def inKind (typ port : Nat) : Option Bool :=
  match typ, port with
  | 0, 0 | 0, 1 | 1, 0 | 1, 1 => some false
  | 1, 2 | 2, 0 => some true
  | 2, 1 | 3, 0 => some false
  | 3, 1 => some true
  | _, _ => none

def outKind (typ port : Nat) : Option Bool :=
  match typ, port with
  | 0, 0 | 1, 0 | 1, 1 | 2, 0 | 3, 0 => some false
  | 2, 1 | 3, 1 => some true
  | _, _ => none

/-- Payload bytes of a record of a port. -/
def portWidth (index : Bool) : Nat := if index then 512 else 2048

/-! ### Streams, loads and sources (04: R125 to R127) -/

def strSrc (a : List Byte) (i : Nat) : Nat := field (streamEnt a i) 0 1
def strSrcPort (a : List Byte) (i : Nat) : Nat := field (streamEnt a i) 1 1
def strDst (a : List Byte) (i : Nat) : Nat := field (streamEnt a i) 2 1
def strDstPort (a : List Byte) (i : Nat) : Nat := field (streamEnt a i) 3 1
def strDepth (a : List Byte) (i : Nat) : Nat := field (streamEnt a i) 4 2
def strRound (a : List Byte) (i : Nat) : Bool := field (streamEnt a i) 6 1 == 1

def srcStage (a : List Byte) (i : Nat) : Nat := field (sourceEnt a i) 0 1
def srcPort (a : List Byte) (i : Nat) : Nat := field (sourceEnt a i) 1 1
def srcFeed (a : List Byte) (i : Nat) : Bool := field (sourceEnt a i) 2 1 == 0
def srcRegion (a : List Byte) (i : Nat) : Nat := field (sourceEnt a i) 3 1
def srcRate (a : List Byte) (i : Nat) : Nat := field (sourceEnt a i) 4 4
def srcBurst (a : List Byte) (i : Nat) : Nat := if field (sourceEnt a i) 8 2 = 0 then 64 else field (sourceEnt a i) 8 2
def srcRecBytes (a : List Byte) (i : Nat) : Nat := field (sourceEnt a i) 0xA 2
def srcSegRecs (a : List Byte) (i : Nat) : Nat := field (sourceEnt a i) 0xC 2
def srcOffset (a : List Byte) (i : Nat) : Nat := field (sourceEnt a i) 0x10 8
def srcBatchBytes (a : List Byte) (i : Nat) : Nat := field (sourceEnt a i) 0x18 8

/-- Records of one batch of a FEED source. -/
def srcBatchRecs (a : List Byte) (i : Nat) : Nat :=
  if srcRecBytes a i = 0 then 0 else (srcBatchBytes a i + srcRecBytes a i - 1) / srcRecBytes a i

def ldStage (a : List Byte) (i : Nat) : Nat := field (loadEnt a i) 0 1
def ldWhen (a : List Byte) (i : Nat) : Nat := field (loadEnt a i) 1 1
def ldPing (a : List Byte) (i : Nat) : Bool := bit 0 (field (loadEnt a i) 2 1)
def ldRegion (a : List Byte) (i : Nat) : Nat := field (loadEnt a i) 3 1
def ldLs (a : List Byte) (i : Nat) : Nat := field (loadEnt a i) 4 4
def ldLen (a : List Byte) (i : Nat) : Nat := field (loadEnt a i) 8 4
def ldOffset (a : List Byte) (i : Nat) : Nat := field (loadEnt a i) 0x10 8
def ldStride (a : List Byte) (i : Nat) : Nat := field (loadEnt a i) 0x18 8

/-- Streams into an input port, in entry order. -/
def streamsInto (a : List Byte) (st port : Nat) : List Nat :=
  (List.range (armNStream a)).filter (fun i => strDst a i == st && strDstPort a i == port)

/-- Streams out of an output port. -/
def streamsFrom (a : List Byte) (st port : Nat) : List Nat :=
  (List.range (armNStream a)).filter (fun i => strSrc a i == st && strSrcPort a i == port)

/-- FEED sources into an input port. -/
def feedsInto (a : List Byte) (st port : Nat) : List Nat :=
  (List.range (armNSource a)).filter (fun i => srcFeed a i && srcStage a i == st && srcPort a i == port)

/-- TOKEN source of a stage. -/
def tokenOf (a : List Byte) (st : Nat) : Option Nat :=
  (List.range (armNSource a)).find? (fun i => !srcFeed a i && srcStage a i == st)

/-- Every producer of an input port by its FIFO's key, FEED sources (256 + index) first (04: R595). -/
def producers (a : List Byte) (st port : Nat) : List Nat :=
  (feedsInto a st port).map (fun i => 256 + i) ++ streamsInto a st port

/-- Connected input ports and output ports. -/
def connected (a : List Byte) (st : Nat) : List Nat := [0, 1, 2].filter (fun p => !(producers a st p).isEmpty)
def outPorts (a : List Byte) (st : Nat) : List Nat := [0, 1].filter (fun p => !(streamsFrom a st p).isEmpty)

/-- Default DEPTH of a stream between two dies (04: R133). -/
def depthDefault (d1 d2 : Nat) : Nat :=
  if d1 = d2 then 16
  else match Nat.xor (plinthOf d1) (plinthOf d2) with
    | 0 => 64
    | 3 => 192
    | _ => 128

/-- Records a stream's FIFO holds. -/
def streamDepth (a : List Byte) (dieMap : List Nat) (i : Nat) : Nat :=
  let d1 := dieMap.getD (field (stageEnt a (strSrc a i)) 0 1) 0
  let d2 := dieMap.getD (field (stageEnt a (strDst a i)) 0 1) 0
  if d1 = d2 ∨ strDepth a i = 0 then depthDefault d1 d2 else strDepth a i

/-- Records a FIFO of a key holds: a stream's DEPTH, 64 for a FEED source. -/
def fifoDepth (a : List Byte) (dieMap : List Nat) (key : Nat) : Nat := if 256 ≤ key then 64 else streamDepth a dieMap key

end Sys2Proof.Machine
end

