-- ==== Sys2Proof/Machine/Descriptor.lean ====
section
/-!
DEFINITION. Tender descriptors, their CRCs, and the order in which a channel takes source data in (11: R352, R353, R360, R362).
-/
namespace Sys2Proof.Machine

open Sys2Proof

/-! ### Descriptor fields (11: R353) -/

def dCtrl (d : List Byte) : Nat := field d 0 4
def dNextKind (d : List Byte) : Nat := bits 1 0 (dCtrl d)
def dCrcMode (d : List Byte) : Nat := bits 3 2 (dCtrl d)
def dAppend (d : List Byte) : Bool := bit 5 (dCtrl d)
def dPaced (d : List Byte) : Bool := bit 8 (dCtrl d)
def dReqLine (d : List Byte) : Nat := bits 13 9 (dCtrl d)
def dSrcSpace (d : List Byte) : Nat := bits 19 16 (dCtrl d)
def dDstSpace (d : List Byte) : Nat := bits 23 20 (dCtrl d)
def dLen (d : List Byte) : Nat := field d 8 8
def dSrc (d : List Byte) : Nat := field d 0x10 8
def dDst (d : List Byte) : Nat := field d 0x18 8
def dNext (d : List Byte) : Nat := field d 0x20 8
def dBurst (d : List Byte) : Nat := field d 0x30 4

/-- Bytes that CRC_APPEND adds; a mirrored copy has no destination of its own to add them to. -/
def dExtra (d : List Byte) : Nat :=
  if dAppend d && dSrcSpace d != 4 then (match dCrcMode d with
    | 1 => 4
    | 2 => 8
    | _ => 0) else 0

/-- Bytes the write engine sends. -/
def dTotal (d : List Byte) : Nat := dLen d + dExtra d

/-- The request line a descriptor is served on. -/
def dLine (d : List Byte) : Option Nat :=
  if dPaced d then some (dReqLine d) else if dSrcSpace d = 2 then some (dSrc d % 32) else none

/-- The stage, offset and die of an LSTORE address (11: R352). -/
def lsOffset (a : Nat) : Nat := bits 24 0 a
def lsDie (a : Nat) : Nat := bits 43 40 a
def lsStage (a : Nat) : Nat := stNum (lsDie a) (bits 39 38 a) (bits 37 32 a)

/-! ### CRC (11: R362) -/

def crcInit (mode : Nat) : Nat := match mode with
  | 1 => 0xFFFFFFFF
  | 2 => 0xFFFFFFFFFFFFFFFF
  | _ => 0

def crcStep (mode c : Nat) (bs : List Byte) : Nat := match mode with
  | 1 => crcRun 0x82F63B78 c bs
  | 2 => crcRun 0xC96C5795D7870F42 c bs
  | _ => c

/-- The result after the final XOR. -/
def crcResult (mode c : Nat) : Nat := if mode = 0 then 0 else Nat.xor c (crcInit mode)

/-! ### Channels -/

/-- A channel's key is 64 * plinth + channel. -/
def State.onChan (s : State) (k : Nat) (f : Chan → Chan) : State := s.setChan k (f (s.chan k))

/-- Unit of a tender (07: R594). -/
def tenderUnit (p : Nat) : Nat := unitId (12 + p) 2

/-- Bytes added in order: the run of arrived data grows, and with the last byte the CRC bytes of CRC_APPEND follow (11: R360, R362). -/
def Chan.drain : Nat → Chan → Chan
  | 0, c => c
  | n + 1, c =>
    match Tbl.get? c.early c.arrived with
    | none => c
    | some bs =>
      let mode := dCrcMode c.desc
      let crc := crcStep mode c.crcRun bs
      let at_ := c.arrived + bs.length
      let more := if at_ = dLen c.desc then leBytes (dExtra c.desc) (crcResult mode crc) else []
      Chan.drain n { c with early := Tbl.erase c.early c.arrived, arrived := at_, crcRun := crc, ready := c.ready ++ bs ++ more }

/-- Source data that has come for an offset. -/
def Chan.takeIn (c : Chan) (off : Nat) (bs : List Byte) : Chan := Chan.drain (c.early.length + 1) { c with early := Tbl.set c.early off bs }

end Sys2Proof.Machine
end

