-- ==== Sys2Proof/Machine/Lost.lean ====
section
/-!
DEFINITION. Work that is lost: which bytes an invocation, a descriptor and a collective could write, and what a failure stop leaves of them
(16: R481, R494; 08: R267; 11: R363, R367).
-/
namespace Sys2Proof.Machine

open Sys2Proof

/-! ### Invocations -/

def Pipe.ent (p : Pipe) (i : Nat) : List Byte := stageEnt p.arm i
/-- The stage that entry `i` binds. -/
def Pipe.stg (p : Pipe) (i : Nat) : Nat := entStage p.dieMap (p.ent i)
def Pipe.idxs (p : Pipe) : List Nat := List.range (armNStage p.arm)
def Pipe.stgs (p : Pipe) : List Nat := p.idxs.map p.stg

/-- Every byte an invocation could write is undefined once a fault or an abort has ended it: its regions with WRITE or ATOMIC access, and the
local stores of its stages (16: R481). -/
def State.undefineInv (s : State) (p : Pipe) (v : Inv) : State :=
  let s := (List.range (armNRegion p.arm)).foldl (fun acc r =>
    if Nat.land (regAccess p.arm r) 6 = 0 then acc else acc.undefine (v.bases.getD r 0) (regLength p.arm r)) s
  p.stgs.foldl (fun acc k => acc.undefineLs k 0 (lsSize (stType k))) s

/-! ### Descriptors -/

/-- Its source and destination addresses, and the destination address of an offset. -/
def Chan.srcAt (c : Chan) (off : Nat) : Nat := if dSrcSpace c.desc = 0 ∨ dSrcSpace c.desc = 4 then dSrc c.desc % 2 ^ 56 + off else dSrc c.desc + off
def Chan.dstAt (c : Chan) (off : Nat) : Nat := (if dDstSpace c.desc = 0 then dDst c.desc % 2 ^ 56 else dDst c.desc) + off

/-- Destination bytes of a descriptor that are not known written, from an offset on (11: R363, R367). -/
def State.undefineDesc (s : State) (c : Chan) (from_ : Nat) : State :=
  let d := c.desc
  if c.issued == 0 || dSrcSpace d == 4 then s
  else if dDstSpace d = 1 then s.undefineLs (lsStage (dDst d)) (lsOffset (dDst d) + from_) (dTotal d - from_)
  else s.undefine (c.dstAt from_) (dTotal d - from_)

/-! ### Collectives -/

/-- The members of a tag in ascending node order. -/
def TagSt.nodes (t : TagSt) : List Nat := t.members.flatMap (fun (r : Nat × Nat) => (List.range (r.2 + 1 - r.1)).map (fun i => r.1 + i))

/-- Members of the collective's tag. -/
def State.collNodes (s : State) (c : Coll) : List Nat := (s.tagSt c.hallTag).nodes

/-- The own member index. -/
def State.collMe (s : State) (c : Coll) : Nat := (s.collNodes c).idxOf s.ownNode

/-- The root of a tree: ROOT, or the first member where ROOT names none of `n`. -/
def Coll.rootOf (c : Coll) (n : Nat) : Nat := if c.root < n then c.root else 0

/-- Length of this member's DST. -/
def Coll.outLen (c : Coll) (n me : Nat) : Nat :=
  match c.op with
  | 1 => 0
  | 3 => if me = c.rootOf n then c.count else 0
  | 5 => c.count / n
  | 6 => c.count * n
  | _ => c.count

/-- The DST of a collective that ends with an error, or is lost (08: R270; 16: R481). -/
def State.undefineColl (s : State) (c : Coll) : State := s.undefine c.dst (c.outLen (s.collNodes c).length (s.collMe c))

/-! ### A failure stop -/

/-- Every invocation, collective and descriptor in flight is lost: what it could write is undefined, and no record of it follows (16: R481, R494). -/
def State.loseWork (s : State) : State :=
  let s := (Tbl.vals s.pipes).foldl (fun acc p => (p.invs.filter (fun v => v.admitted != 0)).foldl (fun acc v => acc.undefineInv p v) acc) s
  let s := (Tbl.vals s.chans).foldl (fun acc c => if c.desc.isEmpty then acc else acc.undefineDesc c 0) s
  let s := s.fab.colls.foldl State.undefineColl s
  { s with
    pipes := s.pipes.map (fun (x : Nat × Pipe) => (x.1, { x.2 with invs := [], posts := [], batches := [], readmit := [], held := [], errs := [] }))
    fab := { s.fab with colls := [] } }

end Sys2Proof.Machine
end

