-- ==== Sys2Proof/Machine/Stop.lean ====
section
/-!
DEFINITION. The failure stop, shared by every detector, and the small helpers for cores, measurements and the bank record that starts
and updates share (14: R441, R442, R446; 16: R493 to R495; 17: R508; 18: R524).
-/
namespace Sys2Proof.Machine

open Sys2Proof

/-- MRi ← SM3(MRi ‖ SM3(item)) (17: R508). -/
def State.extendMr (s : State) (i : Nat) (item : List Byte) : State :=
  { s with sec := { s.sec with
      mr := s.sec.mr.set i (Config.sm3 (s.sec.mr.getD i [] ++ Config.sm3 item)) } }

/-- A bank record's bytes 0x000 to 0x09F (18: R524); the rest of its 4 KiB is 0. -/
def BankRecord.bytes (r : BankRecord) : List Byte :=
  let body := padTo 128 (leBytes 8 0x52424B42 ++ leBytes 8 r.generation ++ leBytes 1 (b2n r.confirmedB) ++
    leBytes 1 ((r.pending.map b2n).getD 0xFF) ++ leBytes 1 r.tries ++ leBytes 1 (b2n r.fallback + 2 * b2n r.rejected) ++
    leBytes 1 r.stateA.code ++ leBytes 1 r.stateB.code ++ leBytes 2 0 ++ leBytes 4 r.versionA ++ leBytes 4 r.versionB ++
    padTo 32 r.hashA ++ padTo 32 r.hashB ++ leBytes 6 r.armV)
  body ++ padTo 32 (Config.sm3 body)

/-- A bank record written with the next generation, to the bank whose own record is invalid or the older one (18: R524). -/
def State.writeRecord (s : State) (r : BankRecord) : State :=
  { s with nor := { s.nor with
      record := { r with generation := satAdd 64 r.generation 1 }, recordB := !s.nor.recordB, older := some s.nor.record } }

/-- FAILURE_STOP to SB whatever its mask, and to every mailbox subscribed to class DIE (16: R495). -/
def State.postStop (s : State) (data : List Byte) : State :=
  let src := exsarUnit
  let ref := s.now0
  let s := { s with log := s.log.take 0x0044 7 3 src ref data }
  let mk := fun lost => eventRecord 0x0044 7 3 src ref lost data
  let s := (List.range 8).foldl (fun acc mb =>
    let m := acc.mbox mb
    if bit 7 m.mask then acc.setMbox mb (m.offer 256 mk) else acc) s
  let s := s.setMbox sbKey ((s.mbox sbKey).offer 64 mk)
  { s with helm := { s.helm with sb := { s.helm.sb with ibi := true } } }

/-- The crash record, written only inside the NOR write range (14: R446). -/
def State.writeCrash (s : State) (cause : Nat) : State :=
  if s.norRange then
    let es := s.log.entries
    { s with nor := { s.nor with crash := some (cause, es.drop (es.length - 32)) } }
  else s

/-- What every failure stop does at once to the package's pins, sources, channels and optics (16: R494). -/
def State.haltAll (s : State) : State :=
  { s with
    pins := { s.pins with failstopN := false, coolDuty := 200 }
    chans := s.chans.map (fun c => (c.1, { c.2 with st := .idle, reads := [], stores := [], wbacks := [], early := [], ready := [], merging := [], desc := [] }))
    txEnds := s.txEnds.map (fun e => (e.1, { e.2 with st := .down })) }

/-- Failure stop after READY with a cause of 16: R493: the work in flight is lost, and no source admits any more (16: R494). -/
def State.failStop (s : State) (cause : Nat) (exsarRuns : Bool) : State :=
  if s.boot.dev == .failureStop then s
  else
    let s := s.loseWork.haltAll
    let s := { s with boot := { s.boot with dev := .failureStop, phase := 0xF, cause := cause % 16, stopCause := cause, exsarGone := !exsarRuns } }
    if exsarRuns then (s.postStop (leBytes 1 cause)).writeCrash cause else s

/-- Start-up stops at a step of 14: R439 with a cause of 14: R441; from step 5 onward the stop is logged and posted (14: R442). -/
def State.startStop (s : State) (phase cause : Nat) (more : List Byte) : State :=
  let s := s.haltAll
  let s := { s with boot := { s.boot with dev := .failureStop, phase := phase, cause := cause, stopCause := cause } }
  if 5 ≤ phase then (s.postStop (leBytes 1 cause ++ more)).writeCrash cause else s

/-- What an external reset and a power-on leave: every block of every die cleared; fuses, banks and settings store kept, with what only
waited in control-core state gone (14: R444, R445; 18: R533). -/
def State.cleared (s : State) : State :=
  let nor := match s.nor.castOwed with
    | some (c, p) => { s.nor with cast := c, prev := p }
    | none => s.nor
  { State.reset with
    pending := s.pending
    free := s.free
    nor := { nor with
      fuses := { nor.fuses with heldRollback := none, heldRevoke := false }
      repairHeld := [], castOwed := none, pendOwed := none } }

/-- The baseline profile: REVISION 0, every feature bit clear (07: R220). -/
def baselineWord : Nat := 0x100

/-- The negotiated profile of two words (07: R220). -/
def negotiate (a b : Nat) : Nat := min (a % 256) (b % 256) + Nat.land (Nat.land a b) 0x1F00

end Sys2Proof.Machine
end

