-- ==== Sys2Proof/Machine/Lanes.lean ====
section
/-!
DEFINITION. Rings and lines of the beacons, and the blocks of a direction on its lanes: their placing at the sender, their alignment at the receiver
(09: R280, R282, R297, R301; 10: R313, R315).
-/
namespace Sys2Proof.Machine

open Sys2Proof

/-! ### Rings and lines of a beacon (09: R297, R300, R301) -/

/-- A ring; one that is not listed is locked once the line table is built. -/
def State.ring (s : State) (b k : Nat) : Ring :=
  let e := s.beacon b
  Tbl.getD e.rings k
    (if e.built then { st := .locked, band := e.band, lineCode := Config.startLine b k, heater := Config.startLine b k, peak := Config.startPeak b k }
    else {})

def State.setRing (s : State) (b k : Nat) (r : Ring) : State :=
  let e := s.beacon b
  s.setBeacon b { e with rings := Tbl.set e.rings k r }

/-- A line of a direction; λ16 and λ17 are spares from the start. -/
def State.lane (s : State) (b k : Nat) : Lane :=
  let e := s.beacon b
  Tbl.getD e.lanes k { st := if e.built ∧ 16 ≤ k % 18 then .spare else .off }

def State.setLane (s : State) (b k : Nat) (l : Lane) : State :=
  let e := s.beacon b
  s.setBeacon b { e with lanes := Tbl.set e.lanes k l }

/-- Key of a ring or line: side 0 transmit, 1 receive. -/
def lineKey (side q i : Nat) : Nat := 288 * side + 18 * q + i

/-- The feed fibres enabled that serve a transmit bank which is not parked: one with a ring that is not, or that is to be swept (09: R286). -/
def State.setFeeds (s : State) (b : Nat) : State :=
  let on := (List.range 16).filter (fun q => (List.range 18).any (fun i => !(s.ring b (lineKey 0 q i)).retired))
  s.setBeacon b { s.beacon b with feeds := (on.map (fun q => 2 ^ q)).sum }

/-- Lines of a direction's active lanes, in ascending order of logical lane (09: R282). -/
def State.activeLines (s : State) (b q side : Nat) : List Nat :=
  (List.range 18).filterMap (fun n => (List.range 18).find? (fun i =>
    (s.lane b (lineKey side q i)).st == .active && (s.lane b (lineKey side q i)).lane == n))

/-! ### The sender (09: R279, R282; 10: R313 to R315) -/

/-- The bytes of a flit of a port (10: R313). -/
def State.flitBytes (s : State) (b q : Nat) (f : FabFlit) : List Byte :=
  let e := s.tx b q
  let h := leBytes 4 (f.fseq + f.ftype * 2 ^ 20) ++ leBytes 4 (f.ackSeq + f.ak * 2 ^ 20) ++
    leBytes 4 (s.ownNode + b * 2 ^ 14 + q * 2 ^ 17 + e.session * 2 ^ 21 + b2n e.hall * 2 ^ 29) ++ padTo 240 f.payload
  h ++ leBytes 4 (crc32c h)

/-- The next block on the lane whose turn it is; the lanes in use change with MARK, and with the first block of a codeword the withdrawn and the spare lines
send FILL. -/
def State.putBlock (s : State) (b q : Nat) (block : List Byte) : State :=
  let e := s.tx b q
  let rota := if e.block = 0 then s.activeLines b q 0 else e.rota
  let n := rota.length
  if n = 0 then s
  else
    let place := e.block / n
    let line := rota.getD (e.block % n) 0
    let idle := (List.range 18).filter (fun i =>
      (s.lane b (lineKey 0 q i)).st == .withdrawn || (s.lane b (lineKey 0 q i)).st == .spare)
    let fill := if e.block % n = 0 then
        idle.map (fun i => ({ line := i, place := place, header := wordHeader i (place == 0) true, block := [] } : TxWord))
      else []
    s.setTx b q { e with
      rota := rota, block := (e.block + 1) % (64 * n)
      words := e.words ++ fill ++ [{ line := line, place := place, header := wordHeader line (place == 0) false, block := block }] }

/-- Flits put on the lanes, the last group filled with IDLE flits (assumption 84). -/
def State.putFlits (s : State) (b q : Nat) (idle : FabFlit) (fl : List FabFlit) : State :=
  let fs := (fl ++ List.replicate ((5 - fl.length % 5) % 5) idle).map (s.flitBytes b q)
  (List.range (fs.length / 5)).foldl (fun acc g => (groupBlocks ((fs.drop (5 * g)).take 5)).foldl (fun a x => a.putBlock b q x) acc) s

/-! ### The receiver (09: R280; 10: R315) -/

/-- The codeword of a lane that the direction takes with place `at_`: stale ones go, one ahead stays. -/
def Lane.front (l : Lane) (at_ : Nat) : Option (Nat × Option (List Byte)) × Lane :=
  let q := l.inq.dropWhile (fun x => decide (32 ≤ subMod 6 x.1 at_))
  match q with
  | [] => (none, { l with inq := q })
  | x :: rest => if x.1 = at_ then (some x, { l with inq := rest }) else (none, { l with inq := q })

/-- One codeword of every lane taken, if each has one or some lane is more than two ahead of another; its blocks join the direction's, and a whole group gives
its flits. -/
def State.takeRow (s : State) (b q : Nat) : Option State :=
  let e := s.rx b q
  let rota := if e.place = 0 then s.activeLines b q 1 else e.rota
  let key := fun (i : Nat) => lineKey 1 q i
  let lane := fun (i : Nat) => s.lane b (key i)
  let waits := rota.any (fun i => (lane i).inq.isEmpty)
  let late := rota.any (fun i => decide (2 < (lane i).inq.length))
  if rota.isEmpty || (waits && !late) then none
  else
    let got := rota.map (fun i => ((lane i).front e.place).1.bind (fun x => x.2))
    let s := rota.foldl (fun acc i => acc.setLane b (key i) ((acc.lane b (key i)).front e.place).2) s
    let blocks := e.blocks ++ got
    let n := blocks.length / 4
    some (s.setRx b q { s.rx b q with
      place := (e.place + 1) % 64, rota := rota, blocks := blocks.drop (4 * n)
      flits := e.flits ++ (List.range n).flatMap (fun g => groupFlits ((blocks.drop (4 * g)).take 4)) })

/-- Rows taken as long as one can be; the number bounds them. -/
def State.takeRows (b q : Nat) : Nat → State → State
  | 0, s => s
  | n + 1, s =>
    match s.takeRow b q with
    | some s => State.takeRows b q n s
    | none => s

/-- A codeword of a line at its place: one of a lane in use waits for the other lanes, as does one of a lane that joins with the next MARK. -/
def State.enqueueBlock (s : State) (b k place : Nat) (block : Option (List Byte)) : State :=
  let q := k % 288 / 18
  let l := s.lane b k
  let known := (s.rx b q).rota.contains (k % 18) || !l.inq.isEmpty
  if l.st != .active || !(known || place == 0) then s
  else
    let old := if (s.rx b q).rota.contains (k % 18) || place ≠ 0 then l.inq else []
    State.takeRows b q 64 (s.setLane b k { l with inq := old ++ [(place, block)] })

end Sys2Proof.Machine
end

