-- ==== Sys2Proof/Machine/LinkOps.lean ====
section
/-!
DEFINITION. What a link end sends, and its training: flits over the bundles, acknowledgements, packets of the link itself, capability words, profile
switches and the eye monitor (07: R206, R208 to R211, R215, R217, R220 to R222, R231).
-/
namespace Sys2Proof.Machine

open Sys2Proof

/-- The unit of a link end: units 16 to 22 of a plinth, the die elsewhere (07: R594). -/
def linkUnit (k : Nat) : Nat := if 96 ≤ k ∧ k < 128 then unitId (k / 8) (16 + k % 8) else dieUnit (k / 8)

/-- A counter of a link end advanced: the first two are 64 bits wide (07: R231; 21: R579). -/
def State.bumpLink (s : State) (k i n : Nat) : State :=
  let e := s.link k
  let s' := s.setLink k { e with counters := bumpTbl e.counters i (if i < 2 then 64 else 32) n }
  if i < 2 then s' else s'.satBump e.counters i n (linkUnit k) (svcAddr (k / 8) 3 (0x1000 * (k % 8) + 0x30 + 4 * (i - 2)))

/-- Is the link end a real one? -/
def isLinkEnd (k : Nat) : Bool := linkEnds.contains k

/-- Is it an end of a beacon attach, which has modules and no bundles (07: R218)? -/
def attachEnd (k : Nat) : Bool := decide (128 ≤ k) || decide (128 ≤ linkPeer k)

/-- Bundles of a link (07: R208). -/
def linkBundles (k : Nat) : Nat := if plinthLink k then 48 else if attachEnd k then 0 else 32

/-! ### Sending (07: R208 to R211, R215) -/

/-- Flits in the order in which they leave from count `n` on, striped over `b` bundles. -/
def striped (b : Nat) : Nat → List Flit → List Flit
  | _, [] => []
  | n, f :: fs => { f with bundle := n % max 1 b } :: striped b (n + 1) fs

/-- Flits put on the wire. -/
def LinkEnd.put (e : LinkEnd) (b : Nat) (fs : List Flit) : LinkEnd :=
  { e with sent := e.sent ++ striped b e.txCount fs, txCount := e.txCount + fs.length }

/-- An IDLE flit with an acknowledgement of the newest accepted flit: AK 1 ACK, 2 NAK (07: R209, R210). -/
def State.sendIdle (s : State) (k ak : Nat) : State :=
  let e := s.link k
  s.setLink k { (e.put (linkBundles k) [{ fseq := e.txSeq, ftype := 0, ackSeq := e.rxSeq, ak := ak }]) with ackDue := 0 }

/-- Has a NAK left less than 200 ns ago, 31.25 reference cycles (07: R215)? -/
def State.nakBarred (s : State) (k : Nat) : Bool :=
  match (s.link k).nakRef with
  | none => false
  | some r => decide (subMod 64 (s.now (k / 8)) r < 32)

/-- A NAK, none within 200 ns of another (07: R215). -/
def State.sendNak (s : State) (k : Nat) : State :=
  if s.nakBarred k then s else ((s.setLink k { s.link k with nakRef := some (s.now (k / 8)) }).sendIdle k 2).bumpLink k 3 1

/-- Bytes of a packet (07: R211, R212). -/
def HubPkt.bytes (p : HubPkt) : List Byte :=
  pad8 (leBytes 8 (p.typ + p.tc * 2 ^ 4 + p.partition * 2 ^ 7 + p.payload.length * 2 ^ 11 + p.src * 2 ^ 23 + p.dst * 2 ^ 35 + p.tag * 2 ^ 47) ++
    leBytes 8 p.specific ++ p.payload)

/-- A packet of the link itself sent in one DATA flit; at 2,047 unacknowledged flits the sender stops (07: R210). -/
def State.sendData (s : State) (k : Nat) (p : HubPkt) : State :=
  let e := s.link k
  if 2047 ≤ e.unacked.length then s
  else
    let f : Flit := { fseq := e.txSeq, ftype := 1, payload := padTo 120 p.bytes }
    (s.setLink k { (e.put (linkBundles k) [f]) with txSeq := (e.txSeq + 1) % 4096, unacked := e.unacked ++ [f] }).bumpLink k 0 1

/-- A packet of a link end to its peer. -/
def linkPkt (k typ specific : Nat) (payload : List Byte) : HubPkt :=
  { typ := typ, tc := 0, partition := 0, src := linkUnit k, dst := linkUnit (linkPeer k), specific := specific, payload := payload }

/-! ### Capability words and profiles (07: R220 to R222) -/

/-- An end's own word, in a CAP packet. -/
def State.sendCap (s : State) (k : Nat) : State := s.sendData k (linkPkt k 0xD (linkOwn k) [])

/-- The end of a link that switches its profile: the plinth's; of two plinths', the lower-numbered one's. -/
def profileEnd (k : Nat) : Nat := if linkList.contains k then k else linkPeer k

/-- PROFILE sent with the agreed word; the flit that carries it is S (assumption 77), so that the sender switches as it leaves. -/
def State.sendProfile (s : State) (k word : Nat) : State :=
  let e := s.link k
  if 2047 ≤ e.unacked.length then s
  else
    let s := s.sendData k (linkPkt k 0xE word (leBytes 8 e.txSeq))
    s.setLink k { s.link k with profile := word, baseline := word % 2 ^ 13 == baselineWord, switchOut := some e.txSeq }

/-- The link switched to the profile its two words give. -/
def State.switchLink (s : State) (k : Nat) : State :=
  let j := profileEnd k
  s.sendProfile j (negotiate (linkOwn j) (s.link j).peerWord)

/-! ### Training (07: R206, R217) -/

/-- A link end after training in the baseline profile, the eyes of its lanes read under a fresh draw. -/
def LinkEnd.trained (e : LinkEnd) (peer draw : Nat) : LinkEnd :=
  { e with
    st := .up, baseline := true, peerWord := peer, profile := baselineWord, eye := some draw, txCount := 0, rxCount := 0, early := []
    switchAt := none, switchOut := none }

/-- One end trained. -/
def State.trainEnd (s : State) (k : Nat) (e : LinkEnd) (peer : Nat) : State :=
  { s.setLink k (e.trained peer s.free) with free := s.free + 1 }

/-- EYE of a lane: width in 1/1,024 UI and height in mV, free but for the targets that a trained lane of a die link or plinth link meets, 0.40 UI and
30 mV; 0 before the first training. -/
def LinkEnd.eyeWord (e : LinkEnd) (attach : Bool) (lane : Nat) : Nat :=
  match e.eye with
  | none => 0
  | some n =>
    let at_ := fun (low v : Nat) => if attach then v % 65536 else low + v % (65536 - low)
    at_ 410 (Config.freeNat n (2 * lane)) + 2 ^ 16 * at_ 30 (Config.freeNat n (2 * lane + 1))

/-- Both ends of a die's link out of use. -/
def State.fenceLink (s : State) (die : Nat) (st : LinkSt) : State :=
  [8 * die, linkPeer (8 * die)].foldl (fun acc k =>
    acc.setLink k { acc.link k with
      st := st, baseline := true, unacked := [], partialIn := [], nakRef := none, ackDue := 0, asleep := [], early := [], switchAt := none
      switchOut := none }) s

end Sys2Proof.Machine
end

