-- ==== Sys2Proof/Machine/Boot.lean ====
section
/-!
DEFINITION. Power, reset and the start sequence from the boot ROM to READY (14: R425 to R447; 17: R501, R508, R509; 18: R524, R525,
R530 to R533; 16: R428).
-/
namespace Sys2Proof.Machine

open Sys2Proof

/-! ### Images (18: R525; 14: R429) -/

def Image.firmware (i : Image) : Nat := field i.header 8 4
def Image.secVersion (i : Image) : Nat := field i.header 0x10 1
def Image.rollbackFloor (i : Image) : Nat := field i.header 0x11 1
def Image.revokes (i : Image) : Bool := bit 0 (field i.header 0x12 2)
def Image.rootPub (i : Image) : List Byte := slice i.header 0x40 64
def Image.bytes (i : Image) : List Byte := i.header ++ i.body

/-- The root rule: SM3(ROOT_PUB) equals ROOT_HASH1, or ROOT_HASH0 while ROOT0_REVOKED is clear (18: R525). -/
def rootAccepted (f : Fuses) (pub : List Byte) : Bool :=
  Config.sm3 pub == Config.rootHash1 || (Config.sm3 pub == Config.rootHash0 && !f.root0Revoked)

/-- The header of an image: layout, root key and signature (18: R525). -/
def Image.headerOk (i : Image) (f : Fuses) : Bool :=
  i.header.length == 512 && field i.header 0 4 == 0x474D4942 && field i.header 4 4 == 512 &&
    field i.header 0xC 4 == i.body.length && decide (512 + i.body.length ≤ 2 ^ 26) && decide (i.secVersion ≤ 64) &&
    decide (i.rollbackFloor ≤ i.secVersion) && rootAccepted f i.rootPub &&
    Config.sm2Verify i.rootPub (i.header.take 0x1C0) (slice i.header 0x1C0 64)

/-- The body's hash (14: R429). -/
def Image.bodyOk (i : Image) : Bool := Config.sm3 i.body == slice i.header 0x18 32

/-- The anti-rollback check (14: R429; 18: R525). -/
def Image.versionOk (i : Image) (f : Fuses) : Bool := decide (f.rollbackMin ≤ i.secVersion)

/-- Every check of 14: R429. -/
def Image.accepted (i : Image) (f : Fuses) : Bool := i.headerOk f && i.bodyOk && i.versionOk f

/-- The image of a bank. -/
def Nor.image? (n : Nor) (bankB : Bool) : Option Image := if bankB then n.imageB else n.imageA

/-- Does the bank's image pass? -/
def Nor.bankOk (n : Nor) (bankB : Bool) : Bool := ((n.image? bankB).map (fun i => i.accepted n.fuses)).getD false

/-- Does the bank fail through the version check alone? -/
def Nor.bankOld (n : Nor) (bankB : Bool) : Bool :=
  ((n.image? bankB).map (fun i => i.headerOk n.fuses && i.bodyOk && !i.versionOk n.fuses)).getD false

/-- Does the header of the bank's image pass, so that a failure falls in step 4 and not 3? -/
def Nor.bankHeader (n : Nor) (bankB : Bool) : Bool :=
  ((n.image? bankB).map (fun i => i.headerOk n.fuses && i.versionOk n.fuses)).getD false

/-- The image now running. -/
def State.running? (s : State) : Option Image := s.nor.image? s.boot.bankB

/-- FIRMWARE of the running image (13: R403). -/
def State.firmware (s : State) : Nat := (s.running?.map Image.firmware).getD 0

/-! ### The choice of bank (14: R430) -/

/-- What R430 decides before any image is read: the bank tried first, the record update and the report item. -/
structure BankChoice where
  bankB : Bool
  only : Bool := false
  record : Option BankRecord := none
  item : Option Nat := none
  itemBank : Bool := false
  fallback : Bool := false

/-- The table of R430, with the failed bank marked EMPTY at a fallback (18: R532). -/
def chooseBank (strap : Nat) (r : BankRecord) (inRange : Bool) : BankChoice :=
  if strap = 1 then { bankB := false, only := true }
  else if strap = 2 then { bankB := true, only := true }
  else
    match r.pending with
    | none => { bankB := r.confirmedB }
    | some p =>
      if r.tries < 3 then
        if inRange then { bankB := p, record := some { r with tries := r.tries + 1 } }
        else { bankB := r.confirmedB, item := some 0x0103, itemBank := p }
      else if inRange then
        { bankB := r.confirmedB, item := some 0x0102, itemBank := p, fallback := true,
          record := some { r with
            pending := none
            stateA := if p then r.stateA else .empty
            stateB := if p then .empty else r.stateB } }
      else { bankB := r.confirmedB }

/-- A report item kept until READY. -/
def State.report (s : State) (code source : Nat) (data : List Byte) : State :=
  { s with boot := { s.boot with report := s.boot.report ++ [{ code := code, source := source, data := data }] } }

/-- Still starting? -/
def State.starting (s : State) : Bool := s.boot.dev == .starting && s.boot.phase != 0

/-! ### Steps 1 to 5 -/

/-- Steps 1 and 2: self-tests and the active core (14: R428); a latched shutdown stops the start here (14: R444). -/
def startCores (s : State) : State :=
  let i := s.startIn
  let s := { s with boot := { s.boot with phase := 2, startRef := s.now0 } }
  if s.pins.shutdownLatch then s.startStop 2 9 []
  else if !i.selfTestA && !i.selfTestB then
    { s.startStop 2 1 [] with boot := { (s.startStop 2 1 []).boot with coreA := .out, coreB := .out } }
  else
    { s with boot := { s.boot with
        activeB := !i.selfTestA
        coreA := if i.selfTestA then .active else .out
        coreB := if !i.selfTestB then .out else if i.selfTestA then .standby else .active } }

/-- The measurements and keys of a start: MR1 and MR2, then AK and its certificate (17: R508, R509); a RETURNED part derives neither
DIK nor AK (17: R503). -/
def measureStart (s : State) (bankB fallback rejected : Bool) : State :=
  let img := (s.nor.image? bankB).getD {}
  let s := (s.extendMr 1 img.header).extendMr 1 img.body
  let s := s.extendMr 2 ([b2n bankB, s.pins.bootSel, b2n s.pins.testEn, b2n fallback + 2 * b2n rejected].map (BitVec.ofNat 8))
  let m := (s.sec.mr.take 3).flatten
  if s.nor.fuses.lifecycle = 2 then s
  else { s with sec := { s.sec with akCert := Config.signDik (Config.akPub m ++ m) } }

/-- The bank record that governs: the one of the higher GENERATION, or the other where MAGIC or CHECK of that one fails (14: R430; 18: R524). -/
def State.governing (s : State) : State :=
  match s.startIn.recordLost, s.nor.older with
  | true, some r => { s with nor := { s.nor with record := r, recordB := !s.nor.recordB, older := none } }
  | _, _ => s

/-- Steps 3 and 4: the bank record, and the image under R429 (14: R429, R430; 18: R524). The root hash in use is that of the key which the image
that starts carries (assumption 63). -/
def startImage (s : State) : State :=
  if s.boot.dev != .starting then s
  else
    let f := s.nor.fuses
    let s := s.governing
    let c := chooseBank s.pins.bootSel s.nor.record s.norRange
    let root := ((s.nor.image? (c.bankB != (!c.only && !s.nor.bankOk c.bankB && s.nor.bankOk (!c.bankB)))).map Image.rootPub).getD []
    let s := s.extendMr 0 (Config.romRevision ++ leBytes 1 f.lifecycle ++ Config.sm3 root ++ leBytes 1 (b2n f.root0Revoked) ++
      leBytes 1 f.rollbackMin)
    let s : State := match c.record with
      | some r => s.writeRecord r
      | none => s
    let s : State := match c.item with
      | some code => s.report code exsarUnit (leBytes 1 (b2n c.itemBank))
      | none => s
    let first : Bool := s.nor.bankOk c.bankB
    let second : Bool := !first && !c.only && s.nor.bankOk (!c.bankB)
    if !first && !second then
      let old := s.nor.bankOld c.bankB && (c.only || s.nor.bankOld (!c.bankB))
      s.startStop (if s.nor.bankHeader (if c.only then c.bankB else !c.bankB) then 4 else 3) (if old then 3 else 2) []
    else
      let bankB : Bool := if first then c.bankB else !c.bankB
      let s : State := if first then s else s.report 0x0101 exsarUnit (leBytes 1 (b2n c.bankB))
      -- FLAGS of the record tell of this start; they are written only where the record may be (18: R524; 15: R460)
      let r := s.nor.record
      let s := if !c.only && s.norRange && (r.fallback != c.fallback || r.rejected != !first) then
          s.writeRecord { r with fallback := c.fallback, rejected := !first } else s
      let s := measureStart s bankB c.fallback (!first)
      let other := fun x => if x == CoreSt.standby && !s.startIn.standbyLoads then CoreSt.out else x
      { s with boot := { s.boot with phase := 5, bankB := bankB, coreA := other s.boot.coreA, coreB := other s.boot.coreB } }

/-- SETTINGS_RESET events, 13 keys in each (13: R423). -/
def settingsEvents (s : State) : Nat → List Nat → State
  | 0, _ => s
  | n + 1, keys =>
    if keys.isEmpty then s
    else
      let now := keys.take 13
      settingsEvents (s.post 0x0054 exsarUnit (leBytes 1 now.length ++ now.flatMap (leBytes 4))) n (keys.drop 13)

/-- The crash record opens the logbook (14: R446; 16: R487). -/
def restoreCrash (s : State) : State :=
  match s.nor.crash with
  | none => s
  | some (_, es) =>
    let es := es.map (fun e => { e with crash := true, pinned := false, old := true })
    { s with
      log := { s.log with entries := es, next := (es.getLast?.map (fun e => addMod 15 e.index 1)).getD 0 }
      nor := { s.nor with crash := none } }

/-- Step 5: Exsar runs and unseals the settings store (14: R431; 17: R507; 18: R533). -/
def startExsar (s : State) : State :=
  if s.boot.dev != .starting then s
  else
    let i := s.startIn
    let s := restoreCrash s
    let s := if i.castOpens then s
      else match i.prevOpens, s.nor.prev with
        | true, some p =>
          ({ s with nor := { s.nor with cast := p, prev := none } }).report 0x0104 exsarUnit (leBytes 4 p.number)
        | _, _ => ({ s with nor := { s.nor with cast := {}, prev := none } }).report 0x0105 exsarUnit (leBytes 4 0)
    let s := if i.castOpens && !i.prevOpens then { s with nor := { s.nor with prev := none } } else s
    let s := if i.keysOpen then s
      else ({ s with nor := { s.nor with keys := [(3, Config.ownerKey)] } }).logOnly 0x0120 exsarUnit []
    let body := (s.running?.map Image.bytes).getD []
    let c := s.nor.cast.convert body
    let p := s.nor.prev.map (fun x => x.convert body)
    let changed := c.1 != s.nor.cast || (p.map Prod.fst) != s.nor.prev
    let keys := c.2 ++ (((p.map Prod.snd).getD []).filter (fun k => !c.2.contains k))
    let owed := if changed && !s.norRange then some (s.nor.cast, s.nor.prev) else none
    let s := { s with nor := { s.nor with cast := c.1, prev := p.map Prod.fst, castOwed := owed } }
    let s := settingsEvents s (keys.length + 1) keys
    { s with boot := { s.boot with phase := 6 } }

/-! ### Steps 6 to 13 -/

/-- Has the interleave key the rank that 06: R175 asks? Columns j to j + 7 of K0 to K7 have rank 8 for j from 0 to 16. -/
def keyRankOk (key : List Nat) : Bool :=
  (List.range 17).all (fun j => gfRank 8 (key.map (fun k => bits (j + 7) j k)) == 8)

/-- The first qualifying draw (06: R175). -/
def drawKey (draws : List (List Nat)) : Option (List Nat) :=
  draws.find? (fun k => k.length == 8 && k.all (fun x => decide (x < 2 ^ 24)) && keyRankOk k)

/-- The first cast of a start: SEED, key, budget and measurement (14: R435), MR4 once (17: R508). The start stands at step 9 until a draw
qualifies. -/
def startCast (s : State) : State :=
  let s := { s with boot := { s.boot with phase := 9 } }
  match drawKey s.startIn.keyDraws with
  | none => s
  | some key =>
    let s := if s.boot.restarted && s.boot.key.any (· != 0) then s else s.extendMr 4 s.nor.cast.bytes
    let w := s.setting 0x00050008
    { s with
      boot := { s.boot with key := key, seed := s.startIn.seed % 2 ^ 64, phase := 10 }
      power := { s.power with budget := w } }

/-- Pending rows of a stack, and whether its temperature allows programming (06: R190). Temperatures are in quarter degrees. -/
def State.pendingRows (s : State) (k : Nat) : List RepairRow := s.nor.repairLog.filter (fun r => r.stack == k && !r.hardDone)

/-- Does the stack still program a row in this start? At most 4 (14: R436). -/
def State.stackPrograms (s : State) (k : Nat) : Bool :=
  let st := s.stack k
  !(s.pendingRows k).isEmpty && hardRange st.tempQ && decide (st.hardProgrammed < 4)

/-- The first pending row of a stack marked as programmed. -/
def markHard (k : Nat) : List RepairRow → List RepairRow
  | [] => []
  | r :: rs => if r.stack = k ∧ r.hardDone = false then { r with hardDone := true } :: rs else r :: markHard k rs

/-- Rows left after the start's repairs are reported (14: R443; 06: R190). -/
def reportRepairs (s : State) : State :=
  (List.range 32).foldl (fun acc k =>
    let left := (acc.pendingRows k).length
    if left = 0 then acc
    else acc.report (if hardRange (acc.stack k).tempQ then 0x0107 else 0x0106) (unitId (12 + k / 8) 0)
      (leBytes 1 k ++ leBytes 2 left)) s

/-- Steps 11 and 12: hard repairs, then every stack zeroed (06: R190, R195). Step 13 then waits for DEVICE_READY. A row once begun is completed,
whatever its stack's temperature becomes. -/
def startRepairs (s : State) : State :=
  let s := (List.range 32).foldl (fun acc k =>
    if acc.stackPrograms k then acc.setStack k { acc.stack k with programming := true } else acc) s
  if (List.range 32).any (fun k => (s.stack k).programming) then { s with boot := { s.boot with phase := 11 } }
  else
    let s := reportRepairs s
    { s with mem := {}, poison := [], boot := { s.boot with phase := 13 } }

/-- Step 10: HBM PHYs (14: R436), and in parallel the beacons' line tables (14: R437; 09: R297). -/
def startMemory (s : State) : State :=
  if s.boot.phase != 10 then s
  else
    let i := s.startIn
    if !i.phyFails.isEmpty then s.startStop 10 8 []
    else
      let s := (List.range 32).foldl (fun acc k =>
        let t := ((i.stackTemps.find? (fun p => p.1 = k)).map (fun p => p.2)).getD 0
        acc.setStack k { acc.stack k with
          tempQ := t
          temp := (t / 4).toNat % 256
          pending := !(acc.pendingRows k).isEmpty
          exhausted := acc.nor.exhausted.any (fun e => e.1 = k)
          exhaustedBanks := (acc.nor.exhausted.filter (fun e => e.1 = k)).map (fun e => e.2) }) s
      let s := (List.range 8).foldl (fun acc b =>
        if (acc.die (16 + b)).life == .retired then acc
        else
          let dark := i.lasersAbsent.contains b
          let acc := acc.setBeacon b { acc.beacon b with
            built := true
            laserFault := dark
            rings := (i.retiredRings.filter (fun r => r.1 = b)).foldl (fun t r => Tbl.set t r.2 { retired := true }) []
            lanes := (i.retiredRings.filter (fun r => r.1 = b)).foldl (fun t r => Tbl.set t r.2 { st := .retired }) [] }
          let acc := acc.setFeeds b
          let acc := { acc with pins := { acc.pins with lsmResetN := Nat.lor acc.pins.lsmResetN (2 ^ b) } }
          if dark then acc.report 0x0109 (dieUnit (16 + b)) (leBytes 1 b) else acc) s
      let s := i.retiredRings.foldl (fun acc r => acc.report 0x010A (dieUnit (16 + r.1))
        (leBytes 1 r.1 ++ leBytes 1 (r.2 % 288 / 18) ++ leBytes 1 (r.2 / 288) ++ leBytes 1 (r.2 % 18))) s
      startRepairs s

/-- Steps 9 onward. -/
def startFrom9 (s : State) : State := startMemory (startCast s)

/-- Have all late subordinates of step 8 come up or been retired? -/
def State.loadsOver (s : State) : Bool :=
  s.startIn.lateSubs.all (fun l => let n := Tbl.getD s.boot.loads l.1 0; decide (min l.2 3 ≤ n))

/-- Step 8: the 24 subordinates are loaded and measured (14: R434; 17: R508). Late ones hold the step. -/
def startLoads (s : State) : State :=
  if s.boot.dev != .starting then s
  else
    let s := if (s.die 0).mr3Done then s
      else
        let body := (s.running?.map Image.body).getD []
        let s := (List.range 24).foldl (fun acc d => acc.extendMr 3 (Config.imageSection body d)) s
        s.setDie 0 { s.die 0 with mr3Done := true }
    let loads := s.startIn.lateSubs.map (fun l => (l.1, if (s.die l.1).life == .retired then 3 else 0))
    let s := { s with boot := { s.boot with phase := 8, loads := loads } }
    if s.loadsOver then startFrom9 s else s

/-- The link ends of the dies in service. -/
def State.trainable (s : State) : List Nat := linkEnds.filter (fun k => (s.die (linkDie k)).life != .retired)

/-- What a link end keeps into the training of a start: a plinth's, which resets only with the package, its counters, flags and eyes (14: R445, R447). -/
def State.startEnd (s : State) (k : Nat) : LinkEnd :=
  let e := s.link k
  if isPlinth (k / 8) then { counters := e.counters, crcSeen := e.crcSeen, hardFault := e.hardFault, faultLane := e.faultLane, eye := e.eye } else {}

/-- The lane that keeps a link from training: hard-faulty, or the lowest of a module that does not come up (07: R207, R218). -/
def badLane (i : StartInput) : Option (Nat × Nat) :=
  match i.laneFault, i.modulesDown with
  | some f, _ => some f
  | none, some (b, m) => some (linkPeer (8 * (16 + b)), 64 * m)
  | none, none => none

/-- Step 7: every link trains at full length in the baseline profile, and each side sends its word (14: R433; 07: R217, R218, R220). -/
def startLinks (s : State) : State :=
  let s := s.trainable.foldl (fun acc k => acc.setLink k { acc.startEnd k with st := .training }) s
  match badLane s.startIn with
  | some (k, lane) =>
    let s := [k, linkPeer k].foldl (fun acc j => acc.setLink j { acc.link j with hardFault := true, faultLane := lane }) s
    s.startStop 7 5 (leBytes 2 k ++ leBytes 2 lane ++ leBytes 1 1)
  | none =>
    match s.startIn.badWord with
    | some k => s.startStop 7 6 (leBytes 2 k)
    | none =>
      let s := s.trainable.foldl (fun acc k => acc.trainEnd k (acc.link k) (linkOwn (linkPeer k))) s
      startLoads (s.trainable.foldl State.sendCap s)

/-- Step 6: groups 4 and 5, VDD_CD at 0.70 V, loops locked (14: R432). A rail not in regulation holds the step. -/
def startFrom6 (s : State) : State :=
  if s.boot.dev != .starting then s
  else
    let s := { s with boot := { s.boot with phase := 6 } }
    if !s.startIn.railsUp then s
    else
      let s := { s with
        pins := { s.pins with exsarRails := true }
        rails := (List.range 12).foldl (fun t r => Tbl.upd t r {} (fun x => { x with setpoint := 700 })) s.rails
        boot := { s.boot with phase := 7 } }
      startLinks s

/-- The start again from step 6 under a new core, every compute die and beacon reset; what steps 7 to 12 had found goes out of the report
(14: R447). -/
def State.restart (s : State) : State :=
  let s := (List.range 24).foldl (fun acc d =>
    let x := acc.die d
    if (12 ≤ d ∧ d < 16) ∨ x.life = .retired then acc
    else acc.setDie d { fences := x.fences, temps := x.temps, excluded := x.excluded, tj := x.tj, mr3Done := x.mr3Done }) s
  let report := s.boot.report.filter (fun r => !(decide (0x0106 ≤ r.code) && decide (r.code ≤ 0x010A)))
  startFrom6 { s with stages := [], beacons := [], txEnds := [], rxEnds := [], boot := { s.boot with report := report, restarted := true } }

/-- A start from step 1 with what it meets (14: R428 to R438). -/
def startUp (s : State) (i : StartInput) : State :=
  let s := { s with startIn := i }
  let s := s.setDie 12 { s.die 12 with tj := i.pd0Temp }
  startFrom6 (startExsar (startImage (startCores s)))

/-! ### Step 13 -/

/-- Features that either end offers and the profile disables (07: R221). -/
def linkDisabled (a b profile : Nat) : Nat :=
  let offered := Nat.land (Nat.lor a b) 0x1E00
  offered - Nat.land offered profile

/-- The order of the start-up report (14: R443). -/
def reportOrder : List Nat :=
  [0x0100, 0x0101, 0x0102, 0x0103, 0x0104, 0x0105, 0x0042, 0x0106, 0x0107, 0x0108, 0x0109, 0x010A, 0x010B]

/-- One entry of the report. DIE_RETIRED carries its event code and class. -/
def writeReportItem (s : State) (r : ReportItem) : State :=
  if r.code = 0x0042 then { s with log := s.log.take 0x0042 7 2 r.source (s.now (r.source / 128)) r.data }
  else s.logOnly r.code r.source r.data

/-- The start-up report (14: R443). -/
def writeReport (s : State) : State :=
  let items := reportOrder.flatMap (fun c => s.boot.report.filter (fun r => r.code = c))
  let s := items.foldl writeReportItem s
  { s with boot := { s.boot with report := [] } }

/-- The fuses raised to the running image's floor, as far as the fuse range lets (18: R531; 15: R460). -/
def raiseFuses (s : State) : State :=
  match s.running? with
  | none => s
  | some img =>
    let f := s.nor.fuses
    let floor := if f.rollbackMin < img.rollbackFloor then some img.rollbackFloor else none
    let revoke := img.revokes && Config.sm3 img.rootPub == Config.rootHash1 && !f.root0Revoked
    { s with nor := { s.nor with fuses := { f with heldRollback := floor, heldRevoke := revoke } } }

/-- Held fuse writes made, and a PREVIOUS bank that falls below the new minimum marked EMPTY (18: R531). -/
def programFuses (s : State) : State :=
  if !s.fuseRange then s
  else
    let f := s.nor.fuses
    let f' : Fuses := { f with
      rollbackMin := max f.rollbackMin (f.heldRollback.getD 0)
      root0Revoked := f.root0Revoked || f.heldRevoke
      heldRollback := none
      heldRevoke := false }
    let s := { s with nor := { s.nor with fuses := f' } }
    let low := fun (b : Bool) (st : BankSt) =>
      st == .previous && ((s.nor.image? b).map (fun i => decide (i.secVersion < f'.rollbackMin))).getD false
    let r := s.nor.record
    if low false r.stateA || low true r.stateB then
      s.writeRecord { r with
        stateA := if low false r.stateA then .empty else r.stateA
        stateB := if low true r.stateB then .empty else r.stateB }
    else s

/-- The PENDING bank that was started becomes CONFIRMED, the other PREVIOUS (18: R531; 14: R430). -/
def confirmBank (s : State) : State :=
  let r := s.nor.record
  if r.pending == some s.boot.bankB && s.norRange then
    let s := s.writeRecord { r with
      confirmedB := s.boot.bankB, pending := none, tries := 0
      stateA := if s.boot.bankB then .previous else .confirmed
      stateB := if s.boot.bankB then .confirmed else .previous }
    s.post 0x0053 exsarUnit (leBytes 4 s.firmware ++ leBytes 6 r.armV)
  else s

/-- Every link on its negotiated profile (07: R221, R222; 14: R438). -/
def negotiateAll (s : State) : State := linkList.foldl (fun acc k => if (acc.link k).st == .up then acc.switchLink k else acc) s

/-- Items of the report that are known only at READY. -/
def finalItems (s : State) : State :=
  let s := s.report 0x0100 exsarUnit (leBytes 1 (b2n s.boot.bankB) ++ leBytes 4 s.firmware ++ leBytes 1 s.pins.bootSel)
  let s := linkList.foldl (fun acc k =>
    let e := acc.link k
    if e.st == .up && linkDisabled (linkOwn k) e.peerWord e.profile != 0 then
      acc.report 0x0108 (dieUnit (k / 8)) (leBytes 2 k ++ leBytes 8 (linkOwn k) ++ leBytes 8 e.peerWord)
    else acc) s
  s.report 0x010B exsarUnit (leBytes 4 ((s.now0 - s.boot.startRef) / 156250))

/-- The bytes MR6 takes: each link's two words and profile (17: R508). -/
def linkMeasure (s : State) : List Byte :=
  linkList.flatMap (fun k => leBytes 8 (linkOwn k) ++ leBytes 8 (s.link k).peerWord ++ leBytes 8 (s.link k).profile)

/-! ### Commands -/

/-- POWER_ON (14: R444, R425): everything cleared, the shutdown latch too. -/
def execPowerOn (s : State) : Out := .next { s.cleared with pins := {} }

/-- RESET_N_FALL (14: R444, R447): with groups 1 to 3 in regulation every block of every die is cleared and a start in progress
ends; the shutdown latch and THERMTRIP_N stay. -/
def execResetNFall (s : State) : Out :=
  .next (if s.pins.aux && s.pins.mainRails then
    { s.cleared with pins :=
        { s.pins with
          resetN := false, failstopN := true, thermtripN := !s.pins.shutdownLatch, coolDuty := 200, lsmResetN := 0 } }
  else s)

/-- RESET_N_RISE (14: R427 to R438): straps sampled, the TAP back to BYPASS (19: R551), and the start run as far as it goes
without a wait. An activation start (18: R530) runs the same steps without the pin moving. -/
def execResetNRise (i : StartInput) (s : State) : Out :=
  .next (if s.boot.activation then
    startUp { s with boot := { s.boot with activation := false } } i
  else if s.pins.aux && s.pins.mainRails && !s.pins.resetN then
    startUp { s with pins :=
        { s.pins with
          resetN := true, bootSel := if i.bootSel % 4 = 3 then 0 else i.bootSel % 4, testEn := i.testEn
          tap := .bypass, driven := none } } i
  else s)

/-- RAIL_REGULATION_TIMEOUT (14: R432): start-up stops with cause RAIL. -/
def execRailRegulationTimeout (rail : Nat) (s : State) : Out :=
  .next (if s.starting && s.boot.phase == 6 then s.startStop 6 4 (leBytes 1 rail) else s)

/-- SUBORDINATE_HEARTBEAT_TIMEOUT (14: R434): loaded again, up to three attempts; then a die is retired and a plinth service core
stops the start with PLINTH_LOAD. -/
def execSubordinateHeartbeatTimeout (die : Nat) (s : State) : Out :=
  .next (if s.starting && s.boot.phase == 8 && Tbl.has s.boot.loads die &&
      decide (Tbl.getD s.boot.loads die 0 < min 3 ((s.startIn.lateSubs.find? (fun l => l.1 = die)).map (·.2) |>.getD 0)) then
    let n := Tbl.getD s.boot.loads die 0 + 1
    let s := { s with boot := { s.boot with loads := Tbl.set s.boot.loads die n } }
    if 3 ≤ n ∧ 12 ≤ die ∧ die < 16 then s.startStop 8 7 (leBytes 1 die)
    else
      let s := if 3 ≤ n then
          let s := (s.setDie die { s.die die with life := .retired, attempts := n }).fenceLink die .retired
          let s := s.report 0x0042 (dieUnit die) (leBytes 1 die ++ leBytes 1 n)
          s.post 0x0042 (dieUnit die) (leBytes 1 die)
        else s
      if s.loadsOver then startFrom9 s else s
  else s)

/-- What firmware sets before READY is set (00: R14): TEMP and TJ of every die in service and TEMP of every stack from a first sample (15: R472;
21: R578; 06: R198), BUDGET_W of every compute die in service from a first exchange (15: R463). -/
def State.fwSet (s : State) : Bool :=
  (List.range 24).all (fun d => (s.die d).life != .up || (!(s.die d).temps.isEmpty && (decide (12 ≤ d) || (s.die d).budget.isSome))) &&
    (List.range 32).all (fun k => (s.stack k).sensed)

/-- DEVICE_READY (14: R438), once every FW field is set: links on their negotiated profiles unless TEST_EN, a PENDING bank confirmed, the report written, READY or
TEST; MR6 extended and fuses raised (17: R508; 18: R531). -/
def execDeviceReady (s : State) : Out :=
  .next (if s.starting && s.boot.phase == 13 && s.fwSet then
    let s := if s.pins.testEn then s else negotiateAll s
    let s := s.extendMr 6 (linkMeasure s)
    let s := confirmBank s
    let s := writeReport (finalItems s)
    let s := programFuses (raiseFuses s)
    { s with boot := { s.boot with dev := if s.pins.testEn then .test else .ready, phase := 0xE, cause := 0 } }
  else s)

/-- HARD_REPAIR_ROW_DONE during step 11 of a start: the row is programmed; the stack goes on while rows are left, it is in range and
fewer than 4 are done (14: R436, R447; 06: R190). -/
def startHardDone (s : State) (k : Nat) : State :=
  if !(s.stack k).programming then s
  else
    let s := { s with nor := { s.nor with repairLog := markHard k s.nor.repairLog } }
    let st := s.stack k
    let s := s.setStack k { st with
      hardProgrammed := st.hardProgrammed + 1
      programming := false
      pending := !(s.pendingRows k).isEmpty }
    startRepairs s

/-! ### Boundary scan (19: R551) -/

/-- JTAG_TAP_RESET: TRST_N low holds the TAP in reset. -/
def execJtagTapReset (s : State) : Out := .next { s with pins := { s.pins with tap := .reset, driven := none } }

/-- BYPASS. -/
def execBypass (s : State) : Out := .next { s with pins := { s.pins with tap := .bypass, driven := none } }

/-- IDCODE returns 0x4C12_3F4B. -/
def execIdcode (s : State) : Out := .next { s with pins := { s.pins with tap := .idcode, driven := none, tdo := 0x4C123F4B } }

/-- SAMPLE/PRELOAD: the lands are captured and shifted out, and a value may be loaded; the lands keep their function. -/
def execSamplePreload (lands : Nat) (load : Option Nat) (s : State) : Out :=
  .next { s with pins := { s.pins with tap := .sample, driven := none, tdo := lands, boundary := load.getD s.pins.boundary } }

/-- EXTEST, only while RESET_N is low: the boundary register drives the lands. -/
def execExtest (s : State) : Out :=
  .next (if s.pins.resetN then s else { s with pins := { s.pins with tap := .extest, driven := some s.pins.boundary } })

/-- CLAMP, only while RESET_N is low: the lands hold the boundary register while the TAP bypasses. -/
def execClamp (s : State) : Out :=
  .next (if s.pins.resetN then s else { s with pins := { s.pins with tap := .clamp, driven := some s.pins.boundary } })

/-- HIGHZ, only while RESET_N is low: the covered lands are not driven. -/
def execHighz (s : State) : Out :=
  .next (if s.pins.resetN then s else { s with pins := { s.pins with tap := .highz, driven := none } })

/-! ### I3C (12: R394; 14: R440, R441) -/

/-- Does the I3C target answer? From step 1 on (14: R440). -/
def State.i3cOn (s : State) : Bool := s.pins.aux && s.pins.mainRails && s.pins.resetN

/-- The sideband with a change. -/
def State.setSb (s : State) (f : Sideband → Sideband) : State := { s with helm := { s.helm with sb := f s.helm.sb } }

/-- I3C_ENTDAA: a dynamic address is taken. -/
def execI3cEntdaa (addr : Nat) (s : State) : Out :=
  .next (if s.i3cOn then s.setSb (fun b => { b with dyn := some addr }) else s)

/-- I3C_SETDASA: a dynamic address is taken through static address 0x3A. -/
def execI3cSetdasa (static dyn : Nat) (s : State) : Out :=
  .next (if s.i3cOn && static == 0x3A then s.setSb (fun b => { b with dyn := some dyn }) else s)

/-- I3C_GETSTATUS: the vendor byte, PHASE in [15:12] and CAUSE in [11:8] of the answer (14: R441); PRESUMED:
the reply holds that byte alone (assumption 86). -/
def execI3cGetstatus (s : State) : Out :=
  .next (if s.i3cOn then s.setSb (fun b => { b with reply := leBytes 1 (16 * s.boot.phase + s.boot.cause) }) else s)

/-- SET_ENDPOINT_ID: the endpoint identifier is taken and answered (12: R394); the answer's form is PRESUMED (assumption 86). -/
def execSetEndpointId (eid : Nat) (s : State) : Out :=
  .next (if s.i3cOn then s.setSb (fun b => { b with eid := eid % 256, reply := leBytes 1 0 ++ leBytes 1 0 ++ leBytes 1 eid ++ leBytes 1 0 })
    else s)

/-- GET_ENDPOINT_ID (12: R394); the answer's form is PRESUMED (assumption 86). -/
def execGetEndpointId (s : State) : Out :=
  .next (if s.i3cOn then s.setSb (fun b => { b with reply := leBytes 1 0 ++ leBytes 1 b.eid ++ leBytes 1 0 ++ leBytes 1 0 }) else s)

/-- GET_MCTP_VERSION_SUPPORT: versions of the types the target carries, control and vendor-defined; an error for others
(12: R394); the version and the codes are PRESUMED (assumption 86). -/
def execGetMctpVersionSupport (msgType : Nat) (s : State) : Out :=
  let answer :=
    if msgType = 0 ∨ msgType = 0x7E ∨ msgType = 0xFF then leBytes 1 0 ++ leBytes 1 1 ++ leBytes 4 0xF1F3F100 else leBytes 1 0x80
  .next (if s.i3cOn then s.setSb (fun b => { b with reply := answer }) else s)

/-- GET_MESSAGE_TYPE_SUPPORT: vendor-defined type 0x7E (12: R394); the answer's form is PRESUMED (assumption 86). -/
def execGetMessageTypeSupport (s : State) : Out :=
  .next (if s.i3cOn then s.setSb (fun b => { b with reply := leBytes 1 0 ++ leBytes 1 1 ++ leBytes 1 0x7E }) else s)

end Sys2Proof.Machine
end

