-- ==== Sys2Proof/Machine/Atomics.lean ====
section
/-!
DEFINITION. The operations of the atomics: sizes, operands and results (08: R257, R258).
-/
namespace Sys2Proof.Machine

open Sys2Proof

/-- Operand size of an operation. -/
def atomicSize (op : Nat) : Option Nat :=
  match op with
  | 0x01 | 0x03 | 0x05 | 0x06 | 0x09 | 0x0A | 0x0E | 0x10 => some 4
  | 0x02 | 0x04 | 0x07 | 0x08 | 0x0B | 0x0C | 0x0D | 0x0F | 0x11 => some 8
  | 0x12 => some 16
  | _ => none

/-- Payload length of an operation. -/
def atomicLen (op : Nat) : Option Nat := (atomicSize op).map (fun n => if op = 0x10 ∨ op = 0x11 ∨ op = 0x12 then 2 * n else n)

/-- Minimum or maximum of FP32 codes: a NaN leaves the other value, NaN only when both are, −0 below +0 (08: R258). -/
def fMinMax (max : Bool) (a b : Nat) : Nat :=
  let na := Fmt.isNan .fp32 a
  let nb := Fmt.isNan .fp32 b
  if na && nb then 0x7FC00000
  else if na then b
  else if nb then a
  else
    let va := Fmt.decode .fp32 a
    let vb := Fmt.decode .fp32 b
    let less := if va.isZero && vb.isZero then bit 31 a && !bit 31 b else Fp.lt va vb
    if less then (if max then b else a) else (if max then a else b)

/-- Signed minimum or maximum of `w`-bit codes. -/
def iMinMax (w : Nat) (max : Bool) (a b : Nat) : Nat :=
  if decide (toSigned w a < toSigned w b) == max then b else a

/-- The new value, from the old one and the operands `v` (the first) and `u` (the second). -/
def atomicNew (op old v u : Nat) : Nat :=
  match op with
  | 0x01 => addMod 32 old v
  | 0x02 => addMod 64 old v
  | 0x03 => (fAdd .fp32 old v).1
  | 0x04 => (fAdd .fp64 old v).1
  | 0x05 => iMinMax 32 false old v
  | 0x06 => iMinMax 32 true old v
  | 0x07 => iMinMax 64 false old v
  | 0x08 => iMinMax 64 true old v
  | 0x09 => fMinMax false old v
  | 0x0A => fMinMax true old v
  | 0x0B => Nat.land old v
  | 0x0C => Nat.lor old v
  | 0x0D => Nat.xor old v
  | 0x0E => v
  | 0x0F => v
  | _ => if old = v then u else old

/-- Is the atomic well formed: a known operation, naturally aligned, operands of its size? -/
def atomicOk (a op : Nat) (payload : List Byte) : Bool :=
  match atomicSize op, atomicLen op with
  | some n, some m => a % n == 0 && payload.length == m
  | _, _ => false

end Sys2Proof.Machine
end

