-- ==== Sys2Proof/Machine/Hbm.lean ====
section
/-!
DEFINITION. The HBM controllers: outer code, poison, scrub, refresh bands, weak rows and repair, the hot-spot monitor, power states
and stack loss (06; 16: R478; 15: R449).
-/
namespace Sys2Proof.Machine

open Sys2Proof

/-! ### GF(2^16) and the outer code (06: R180, R181) -/

/-- Multiplication by the root α. -/
def gfStep (a : Nat) : Nat := let b := 2 * a; if b < 65536 then b else Nat.xor (b - 65536) 0x100B

/-- α^n times a. -/
def gfPow : Nat → Nat → Nat
  | 0, a => a
  | n + 1, a => gfPow n (gfStep a)

/-- What a read of a block is classified as. -/
inductive Verdict where
  | clean | poisoned | uncorrectable
  | corrected (symbol : Nat)
  deriving DecidableEq, Repr

/-- Value of lane `j` of the virtual symbol (06: R180). -/
def virtualLane (x j : Nat) : Nat := if j = 0 then x % 65536 else if j = 1 then x / 65536 % 256 else 0

/-- Syndromes of lane `j`: error values, the difference of the indices, and the poison mark. -/
def laneSyndrome (e : ErrPattern) (x : Nat) (poisoned : Bool) (j : Nat) : Nat × Nat :=
  let errs := e.errors.filter (fun p => p.1 % 8 = j && p.1 / 8 < 18)
  let s0 := errs.foldl (fun a p => Nat.xor a (p.2 % 65536)) 0
  let s1 := errs.foldl (fun a p => Nat.xor a (gfPow (p.1 / 8) (p.2 % 65536))) 0
  let dx := match e.index with
    | some y => Nat.xor (virtualLane x j) (virtualLane y j)
    | none => 0
  let mark := j == 0 && poisoned
  (Nat.xor (Nat.xor s0 dx) (b2n mark), Nat.xor (Nat.xor s1 (gfPow 18 dx)) (if mark then gfPow 100 1 else 0))

/-- The syndromes of the eight lanes. -/
def syndromes (e : ErrPattern) (x : Nat) (poisoned : Bool) : List (Nat × Nat) :=
  (List.range 8).map (laneSyndrome e x poisoned)

/-- The rules of 06: R181, in order. -/
def classify (syn : List (Nat × Nat)) : Verdict :=
  if syn.all (fun s => s.1 == 0 && s.2 == 0) then .clean
  else if syn.headD (0, 0) == (1, gfPow 100 1) && (syn.drop 1).all (fun s => s.1 == 0 && s.2 == 0) then .poisoned
  else
    match (List.range 18).find? (fun p => syn.all (fun s =>
        (s.1 == 0 && s.2 == 0) || (s.1 != 0 && s.2 == gfPow p s.1))) with
    | some p => .corrected p
    | none => .uncorrectable

/-! ### Places -/

/-- Plinth of a stack, and its controller's unit (07: R594). -/
def stackUnit (k : Nat) : Nat := unitId (12 + k / 8) (8 + k % 8)

/-- Service address of a stack's counter: 64-bit ones first (21: R580). -/
def stackItem (k i : Nat) : Nat :=
  svcAddr (12 + k / 8) 4 (0x100 * (k % 8) + (if i < 4 then 8 + 8 * i else 0x28 + 4 * (i - 4)))

/-- A stack's counter advanced (06: R199): 0 to 3 are 64 bits wide, 4 to 9 are 32. -/
def State.bumpStack (s : State) (k i n : Nat) : State :=
  let st := s.stack k
  let w := if i < 4 then 64 else 32
  let s' := s.setStack k { st with counters := bumpTbl st.counters i w n }
  if i < 4 then s' else s'.satBump st.counters i n (stackUnit k) (stackItem k i)

/-- Poison mark of a block, by local address. -/
def State.isPoison (s : State) (l : Nat) : Bool := s.poison.contains (l / 256)
def State.setPoison (s : State) (l : Nat) (p : Bool) : State :=
  { s with poison := if p then (if s.poison.contains (l / 256) then s.poison else (l / 256) :: s.poison)
      else s.poison.filter (fun b => b ≠ l / 256) }

/-- Does some port of the plinth's beacons hold flits in spill? -/
def State.spilledAt (s : State) (p : Nat) : Bool := (List.range 32).any (fun i => (s.tx (2 * p + i / 16) (i % 16)).spilled != 0)

/-- Is the plinth re-laying: its part is not over, and began once no port held spilled flits (06: R194)? -/
def State.relaying (s : State) (p : Nat) : Bool :=
  match s.upd.relay with
  | some r => r.plinths.contains p && !s.spilledAt p
  | none => false

/-- Bytes moved on a pseudo-channel, for the hot-spot monitor, which pauses during a re-lay (06: R192, R194). -/
def State.skewBytes (s : State) (l n : Nat) : State :=
  let p := homePlinth l
  if s.relaying p then s
  else
    let m := Tbl.getD s.skew p {}
    let c := channelOf (s.keyAt p) (blockOf l)
    { s with skew := Tbl.set s.skew p { m with bytes := Tbl.upd m.bytes c 0 (· + n) } }

/-- The refresh band of a stack set; HBM_HOT on entry to band 3 (06: R186, R187). -/
def State.setBand (s : State) (k b : Nat) : State :=
  let st := s.stack k
  let s := s.setStack k { st with band := b, bandDue := none }
  if b = 3 ∧ st.band ≠ 3 then s.post 0x0033 (stackUnit k) (leBytes 1 k ++ leBytes 1 st.temp) else s

/-- A request, refresh or scrub wakes the stack; a band that fell due in SELF_REFRESH takes effect (06: R196, R200). -/
def State.wakeStack (s : State) (k : Nat) : State :=
  let st := s.stack k
  let s := s.setStack k { st with power := .active }
  match st.bandDue with
  | some b => if st.power == .selfRefresh then s.setBand k b else s
  | none => s

/-! ### Requests at a controller -/

/-- Has a row of a bank begun its soft repair (06: R189)? -/
def Stack.repairs (x : Stack) (pc bank : Nat) : Bool := x.repairing.any (fun r => r.1 == pc && r.2.1 == bank)

/-- Does a block keep its requests waiting: its plinth re-lays, its stack is under hard repair, its bank under soft repair, or an older request to it
waits (06: R176, R177, R189, R190, R194)? -/
def State.busyAt (s : State) (l bank : Nat) : Bool :=
  let k := s.place l
  s.relaying (homePlinth l) || (s.stack k.1).hardRepair.isSome || (s.stack k.1).repairs k.2 bank ||
    s.relayWait.any (fun h => h.block == some (l / 256))

/-- The same for a request whose block's bank is the controller's own choice (06: R174). -/
def State.memBusy (s : State) (l : Nat) : Bool := s.busyAt l (Config.bankOf (indexOf l))

/-- A request that waits in its block's controller, behind those to the block that came before (06: R177). -/
def State.hold (s : State) (id : Option Nat) (c : Instr) (l entry : Nat) : State :=
  { s with relayWait := s.relayWait ++ [{ id := id, cmd := c, block := some (l / 256), entry := entry }] }

/-! ### The atomic units (08: R259) -/

/-- Does the atomic unit of its plinth hold a block, so that its requests are served there? -/
def State.unitHolds (s : State) (l : Nat) : Bool := (Tbl.getD s.atomicUnits (homePlinth l) []).contains (l / 256)

/-- The stack moves `n` bytes of a block for a request. -/
def State.moveBytes (s : State) (l n : Nat) : State := (s.wakeStack (s.place l).1).skewBytes l n

/-- A request reaches the stack, unless the block is held. -/
def State.reach (s : State) (l n : Nat) : State := if s.unitHolds l then s else s.moveBytes l n

/-- A held block written back: the unit holds it no longer. -/
def State.unitBack (s : State) (l : Nat) : State :=
  if s.unitHolds l then
    ({ s with atomicUnits := Tbl.adjust s.atomicUnits (homePlinth l) (fun bs => bs.filter (fun b => b ≠ l / 256)) } : State).moveBytes l 256
  else s

/-- The block of an atomic in front of those the unit holds; beyond 64 the one used longest ago is written back. -/
def State.unitTake (s : State) (l : Nat) : State :=
  let bs := (l / 256) :: (Tbl.getD s.atomicUnits (homePlinth l) []).filter (fun b => b ≠ l / 256)
  let s := { s with atomicUnits := Tbl.set s.atomicUnits (homePlinth l) bs }
  match bs[64]? with
  | some b => s.unitBack (256 * b)
  | none => s

/-! ### Accesses that meet no new error -/

/-- A read of `n` bytes at a local address that meets no new error: status and data (06: R176, R184). -/
def State.ctlRead (s : State) (l n : Nat) : Nat × List Byte × State :=
  let k := (s.place l).1
  let s := s.reach l 256
  if s.isPoison l then (2, List.replicate n 0, s.bumpStack k 7 1)
  else (0, Store.readN s.mem l n, s.bumpStack k 0 n)

/-- A store of bytes under a mask that touches one block; a full block clears poison, any other is a read-modify-write (06: R176,
R184). -/
def State.ctlWrite (s : State) (l : Nat) (data : List Byte) (mask : List Bool) : State :=
  let k := (s.place l).1
  let n := (mask.filter id).length
  let full := l % 256 == 0 && n == 256
  let held := s.unitHolds l
  let s := s.reach l (if full then 256 else 512)
  let s := { s with mem := Store.writeMasked s.mem l data mask }
  let s := s.bumpStack k 1 n
  if full then s.setPoison l false else if held then s else s.bumpStack k 2 1

/-- A store of a plain run of bytes. -/
def State.ctlStore (s : State) (l : Nat) (data : List Byte) : State := s.ctlWrite l data (data.map (fun _ => true))

/-! ### Weak rows (06: R188 to R191) -/

/-- SCRUB_PERIOD in reference periods. -/
def State.scrubPeriod (s : State) : Nat := s.setting 0x00010001 * 3600 * 156250000

/-- The row's entry after a CORRECTED read of a block, and whether the row is weak: two blocks, or one block again, within one
SCRUB_PERIOD. -/
def WeakRow.hit (w : WeakRow) (block now period : Nat) : WeakRow :=
  let old := w.hits.filter (fun h => decide (now - h.2 ≤ period))
  { w with hits := old ++ [(block, now)], weak := w.weak || !old.isEmpty }

/-- A row starts its soft repair, unless its bank is exhausted or the row is already under repair (06: R189, R191). -/
def State.startRepair (s : State) (k pc bank row : Nat) : State :=
  let st := s.stack k
  if st.exhaustedBanks.contains (pc, bank) || st.repairing.contains (pc, bank, row) then s
  else s.setStack k { st with repairing := st.repairing ++ [(pc, bank, row)] }

/-- A CORRECTED read noted against its row (06: R188). -/
def State.noteCorrected (s : State) (k pc bank row block : Nat) : State :=
  let st := s.stack k
  let same := fun (w : WeakRow) => w.pc = pc ∧ w.bank = bank ∧ w.row = row
  let cur := (st.weakRows.find? (fun w => same w)).getD { pc := pc, bank := bank, row := row }
  let new := cur.hit block (s.now (12 + k / 8)) s.scrubPeriod
  let rest := st.weakRows.filter (fun w => !decide (same w))
  let known := decide (rest.length < st.weakRows.length)
  let rows := if known then st.weakRows.map (fun w => if same w then new else w)
    else (if 64 ≤ rest.length then rest.drop 1 else rest) ++ [new]
  let s := s.setStack k { st with weakRows := rows, ceSeen := true }
  if new.weak then s.startRepair k pc bank row else s

/-- A row that holds a newly poisoned block is weak (06: R188). -/
def State.notePoisoned (s : State) (k pc bank row : Nat) : State :=
  let st := s.stack k
  let rest := st.weakRows.filter (fun w => !decide (w.pc = pc ∧ w.bank = bank ∧ w.row = row))
  let rows := (if 64 ≤ rest.length then rest.drop 1 else rest) ++ [{ pc := pc, bank := bank, row := row, weak := true }]
  (s.setStack k { st with weakRows := rows, ueSeen := true }).startRepair k pc bank row

/-! ### A read with what it meets -/

/-- Values added to elements of a block: value `v` at entry 8 * p + j falls on bytes 16p + 2j and its successor, for the data symbols. -/
def addValues (es : List (Nat × Nat)) (bs : List Byte) : List Byte :=
  es.foldl (fun acc p =>
    if p.1 < 128 then
      let at0 := 2 * p.1
      (acc.set at0 (acc.getD at0 0 ^^^ BitVec.ofNat 8 p.2)).set (at0 + 1)
        (acc.getD (at0 + 1) 0 ^^^ BitVec.ofNat 8 (p.2 / 256))
    else acc) bs

/-- Local address of the block at index `x` of the pseudo-channel that holds `l` (06: R174). -/
def State.sameChannel (s : State) (l x : Nat) : Nat :=
  let key := s.keyAt (homePlinth l)
  let c := channelOf key (blockOf l)
  homePlinth l * 2 ^ 40 + (x * 256 + Nat.xor c (keyHash key x)) * 256

/-- Local address of the block that a read of `l` really meets (06: R181). -/
def State.metAddr (s : State) (l : Nat) (e : ErrPattern) : Nat :=
  match e.index with
  | some y => s.sameChannel l y
  | none => l / 256 * 256

/-- The syndromes of a read of the block that holds `l`, and how the outer code classifies them (06: R180, R181). -/
def State.syndromesOf (s : State) (l : Nat) (e : ErrPattern) : List (Nat × Nat) :=
  syndromes e (indexOf l) (s.isPoison (s.metAddr l e))
def State.verdict (s : State) (l : Nat) (e : ErrPattern) : Verdict := classify (s.syndromesOf l e)

/-- The 256 data bytes such a read sees. -/
def State.seen (s : State) (l : Nat) (e : ErrPattern) : List Byte := addValues e.errors (Store.readN s.mem (s.metAddr l e) 256)

/-- S0 added to symbol `p` in every lane (06: R181). -/
def corrected (syn : List (Nat × Nat)) (p : Nat) (bs : List Byte) : List Byte :=
  addValues ((List.range 8).map (fun j => (8 * p + j, (syn.getD j (0, 0)).1))) bs

/-- What the outer code delivers of such a read. -/
def State.delivered (s : State) (l : Nat) (e : ErrPattern) : List Byte :=
  match s.verdict l e with
  | .corrected p => corrected (s.syndromesOf l e) p (s.seen l e)
  | _ => s.seen l e

/-- Consecutive requests that met UNCORRECTABLE twice (16: R478). -/
def State.noteRun (s : State) (k pc : Nat) (bad : Bool) : State :=
  let st := s.stack k
  let run := if bad then (st.ueRun ++ [pc]).drop ((st.ueRun.length + 1) - 16) else []
  let s := s.setStack k { st with ueRun := run }
  if 16 ≤ run.length ∧ run.any (fun p => p != pc) then
    (s.setStack k { s.stack k with lost := true }).failStop 0x16 true
  else s

/-- How a read of a block ends: its data are good, or it is poisoned, from before or by this read. -/
inductive ReadEnd where
  | good | poisoned | nowPoisoned
  deriving DecidableEq, Repr

/-- INNER_CE of a read the stack reports as corrected (06: R179). -/
def State.innerSeen (s : State) (k : Nat) (inner : Bool) : State := if inner then s.bumpStack k 4 1 else s

/-- A block rewritten with data that passed the outer code, and fresh check symbols (06: R182, R183). -/
def State.rewrite (s : State) (l : Nat) (bs : List Byte) : State :=
  ({ s with mem := Store.writeN s.mem (l / 256 * 256) bs }).setPoison l false

/-- A CORRECTED read: the block rewritten, counted and noted against its row (06: R182, R188, R199). -/
def State.takeCorrected (s : State) (l bank row : Nat) (e : ErrPattern) : State :=
  let k := (s.place l).1
  ((s.rewrite l (s.delivered l e)).bumpStack k 5 1).noteCorrected k (s.place l).2 bank row (l / 256)

/-- A read of a block through the outer code, with both attempts, and the bytes it gives (06: R179, R181 to R183). A block that the atomic unit
holds is written back first (assumption 81). -/
def State.decodeBlock (s : State) (l bank row : Nat) (e1 e2 : ErrPattern) (inner : Bool × Bool) : ReadEnd × List Byte × State :=
  let k := (s.place l).1
  let s := s.unitBack l
  let s := s.innerSeen k inner.1
  match s.verdict l e1 with
  | .clean => (.good, s.delivered l e1, s)
  | .poisoned => (.poisoned, s.delivered l e1, s)
  | .corrected _ => (.good, s.delivered l e1, s.takeCorrected l bank row e1)
  | .uncorrectable =>
    let s := s.innerSeen k inner.2
    match s.verdict l e2 with
    | .clean => (.good, s.delivered l e2, (s.rewrite l (s.delivered l e2)).bumpStack k 5 1)
    | .poisoned => (.poisoned, s.delivered l e2, s)
    | .corrected _ => (.good, s.delivered l e2, s.takeCorrected l bank row e2)
    | .uncorrectable =>
      let bs := s.delivered l e2
      let s := ({ s with mem := Store.writeN s.mem (l / 256 * 256) bs }).setPoison l true
      let s := (s.bumpStack k 6 1).post 0x0031 (stackUnit k) (leBytes 1 k ++ leBytes 1 (s.place l).2 ++ leBytes 8 (l / 256 * 256))
      (.nowPoisoned, bs, s.notePoisoned k (s.place l).2 bank row)

/-- Bytes that such a read moves, its second attempt and its rewrite among them (06: R192). -/
def State.movedBy (s : State) (l : Nat) (e1 e2 : ErrPattern) : Nat :=
  match s.verdict l e1 with
  | .clean | .poisoned => 256
  | .corrected _ => 512
  | .uncorrectable => if s.verdict l e2 = .poisoned then 512 else 768

/-- The block of a request read: the stack wakes, and a run of losses ends the stack (06: R183, R192, R196; 16: R478). -/
def State.fetchBlock (s : State) (r : HbmAccess) (e1 e2 : ErrPattern) : ReadEnd × List Byte × State :=
  let k := s.place r.addr
  let d := (s.moveBytes r.addr (s.movedBy r.addr e1 e2)).decodeBlock r.addr r.bank r.row e1 e2 r.inner
  (d.1, d.2.1, d.2.2.noteRun k.1 k.2 (d.1 == .nowPoisoned))

/-- The controller's answer to the hub of its plinth. -/
def State.answerHub (s : State) (r : HbmAccess) (status : Nat) (data : List Byte) : State :=
  s.complete (stackUnit (s.place r.addr).1) r.partition (hubUnit (homePlinth r.addr)) 0 status data

/-- A read in service (06: R176, R184). -/
def State.serveRead (s : State) (r : HbmAccess) (e1 e2 : ErrPattern) (len : Nat) : State :=
  let k := (s.place r.addr).1
  if s.unitHolds r.addr then (s.bumpStack k 0 len).answerHub r 0 (Store.readN s.mem r.addr len)
  else
  let d := s.fetchBlock r e1 e2
  if d.1 == .good then (d.2.2.bumpStack k 0 len).answerHub r 0 (slice d.2.1 (r.addr % 256) len)
  else (d.2.2.bumpStack k 7 1).answerHub r 2 (List.replicate len 0)

/-- The operation of an atomic on the bytes it found at its place (08: R257): the unit holds its block from here on (08: R259). -/
def State.applyAtomic (s : State) (l op : Nat) (old payload : List Byte) : State :=
  let k := (s.place l).1
  let n := (atomicSize op).getD 4
  let new := atomicNew op (leNat old) (field payload 0 n) (field payload n n)
  ((({ s with mem := Store.writeN s.mem l (leBytes n new) }).bumpStack k 0 n).bumpStack k 1 n).unitTake l

/-- An atomic at its home that meets no new error: completion status, old bytes, and the state after it (08: R257, R259; 06: R184). Length and
alignment have been checked. -/
def State.atomicAt (s : State) (l op : Nat) (payload : List Byte) : Nat × List Byte × State :=
  let k := (s.place l).1
  let held := s.unitHolds l
  let s := s.reach l 256
  if s.isPoison l then (2, [], s.bumpStack k 7 1)
  else
    let old := Store.readN s.mem l ((atomicSize op).getD 4)
    (0, old, (if held then s else s.bumpStack k 2 1).applyAtomic l op old payload)

/-- The merge of a read-modify-write: the bytes read and decoded, with the new ones in their place. The write's own half of the channel's bytes is
counted here (06: R176, R192, R199). -/
def State.mergeBlock (s : State) (l : Nat) (block data : List Byte) : State :=
  let k := (s.place l).1
  let s := s.skewBytes l 256
  let m := Store.writeN (Store.writeN s.mem (l / 256 * 256) block) l data
  (({ s with mem := m }).bumpStack k 1 data.length).bumpStack k 2 1

/-- A store in service: one write of a full block, a read-modify-write of any other, or the operation of an atomic (06: R176, R183, R184; 08: R257). -/
def State.serveStore (s : State) (r : HbmAccess) (data : List Byte) (e1 e2 : ErrPattern) : State :=
  let k := (s.place r.addr).1
  match r.op with
  | none =>
    if s.unitHolds r.addr || r.addr % 256 == 0 && data.length == 256 then (s.ctlStore r.addr data).answerHub r 0 []
    else
      let d := s.fetchBlock r e1 e2
      (d.2.2.mergeBlock r.addr d.2.1 data).answerHub r 0 []
  | some op =>
    if !atomicOk r.addr op data then s.answerHub r 7 []
    else if s.unitHolds r.addr then
      let a := s.atomicAt r.addr op data
      a.2.2.answerHub r a.1 a.2.1
    else
      let d := s.fetchBlock r e1 e2
      let n := (atomicSize op).getD 4
      if d.1 == .good then
        let old := slice d.2.1 (r.addr % 256) n
        let s := { d.2.2 with mem := Store.writeN d.2.2.mem (r.addr / 256 * 256) d.2.1 }
        ((s.bumpStack k 2 1).applyAtomic r.addr op old data).answerHub r 0 old
      else (d.2.2.bumpStack k 7 1).answerHub r 2 (List.replicate n 0)

/-! ### Commands -/

/-- HBM_READ (06: R176, R177, R179 to R184): the answer goes to the plinth's hub. -/
def execHbmRead (r : HbmAccess) (e1 e2 : ErrPattern) (len : Nat) (s : State) : Out :=
  .next (if s.busyAt r.addr r.bank then s.hold none (.hbmRead r e1 e2 len) r.addr 0 else s.serveRead r e1 e2 len)

/-- HBM_STORE (06: R176, R177, R183, R184, R200). -/
def execHbmStore (r : HbmAccess) (data : List Byte) (e1 e2 : ErrPattern) (s : State) : Out :=
  .next (if s.busyAt r.addr r.bank then s.hold none (.hbmStore r data e1 e2) r.addr 0 else s.serveStore r data e1 e2)

/-- The local address at an index of a pseudo-channel of a stack. -/
def State.scrubAddr (s : State) (k pc x : Nat) : Nat :=
  k / 8 * 2 ^ 40 + (x * 256 + Nat.xor (32 * (k % 8) + pc) (keyHash (s.keyAt (k / 8)) x)) * 256

/-- The index a scrub of a pseudo-channel reads next. -/
def Stack.scrubAt (x : Stack) (pc : Nat) : Nat := Tbl.getD x.scrubPos pc 0 % 2 ^ 24

/-- Is a scrub pass in progress (06: R198)? -/
def Stack.scrubbing (x : Stack) : Bool := x.scrubPos.any (fun p => p.2 != 0)

/-- A step of the pass done: it ends once every pseudo-channel has read its 2^24 blocks (06: R185, R199). -/
def State.countScrub (s : State) (k pc : Nat) : State :=
  let pos := Tbl.upd (s.stack k).scrubPos pc 0 (· + 1)
  if (List.range 32).all (fun c => decide (2 ^ 24 ≤ Tbl.getD pos c 0)) then
    (s.setStack k { s.stack k with scrubPos := pos.map (fun p => (p.1, p.2 - 2 ^ 24)) }).bumpStack k 9 1
  else s.setStack k { s.stack k with scrubPos := pos }

/-- SCRUB_STEP (06: R185, R188, R200): the next block of a pseudo-channel. A block that is kept busy is scrubbed later. -/
def execScrubStep (stack pc bank row : Nat) (e1 e2 : ErrPattern) (inner : Bool × Bool) (s : State) : Out :=
  let l := s.scrubAddr stack pc ((s.stack stack).scrubAt pc)
  .next (if s.busyAt l bank then s
  else (((s.wakeStack stack).decodeBlock l bank row e1 e2 inner).2.2).countScrub stack pc)

/-- REPAIR_LOG_WRITE (06: R189): held records are written once PD0 is in the NOR write range. -/
def execRepairLogWrite (s : State) : Out :=
  .next (if s.norRange then
    { s with nor := { s.nor with repairLog := s.nor.repairLog ++ s.nor.repairHeld, repairHeld := [] } }
  else s)

/-- Step 1 of a soft repair: every block of the row read through the outer code (06: R189). -/
def State.readRow (s : State) (k pc bank row : Nat) (blocks : List (Nat × ErrPattern × ErrPattern × Bool × Bool)) : State :=
  blocks.foldl (fun acc b => (acc.decodeBlock (acc.scrubAddr k pc (b.1 % 2 ^ 24)) bank row b.2.1 b.2.2.1 b.2.2.2).2.2) s

/-- The oldest row under repair is done, its blocks as step 1 read them, or its bank has no resource left, which is logged once for a bank (06: R189,
R191). -/
def State.rowRepaired (s : State) (stack : Nat) (blocks : Option (List (Nat × ErrPattern × ErrPattern × Bool × Bool))) : State :=
  match (s.stack stack).repairing with
  | [] => s
  | (pc, bank, row) :: rest =>
    match blocks with
    | none =>
      let st := s.stack stack
      let s := s.setStack stack { st with repairing := rest }
      if st.exhaustedBanks.contains (pc, bank) then s
      else
        let s := s.setStack stack { s.stack stack with exhausted := true, exhaustedBanks := st.exhaustedBanks ++ [(pc, bank)] }
        let s := { s with nor := { s.nor with exhausted := s.nor.exhausted ++ [(stack, pc, bank)] } }
        s.post 0x0034 (stackUnit stack) (leBytes 1 stack ++ leBytes 2 bank)
    | some bs =>
      let s := s.readRow stack pc bank row bs
      let st := s.stack stack
      let s := s.setStack stack { st with
        repairing := st.repairing.tail, pending := true
        weakRows := st.weakRows.filter (fun w => !decide (w.pc = pc ∧ w.bank = bank ∧ w.row = row)) }
      let s := s.bumpStack stack 8 1
      let rec1 : RepairRow := { stack := stack, pc := pc, bank := bank, row := row }
      let nor := if s.norRange then { s.nor with repairLog := s.nor.repairLog ++ [rec1] }
        else { s.nor with repairHeld := s.nor.repairHeld ++ [rec1] }
      let s := { s with nor := nor }
      s.post 0x0032 (stackUnit stack) (leBytes 1 stack ++ leBytes 2 bank ++ leBytes 4 row ++ leBytes 1 0)

/-- The band after a reading in quarter degrees (06: R186): it rises at a lower limit and falls 3 degrees below it. -/
def nextBand (band : Nat) (t : Int) : Nat :=
  let up := if 420 ≤ t then 3 else if 380 ≤ t then 2 else if 340 ≤ t then 1 else 0
  let keep := if 408 < t then 3 else if 368 < t then 2 else if 328 < t then 1 else 0
  if band ≤ up then up else if keep < band then max keep up else band

/-- STACK_SENSOR_READ (06: R186, R187; 15: R449): a silent sensor counts as band 3. In SELF_REFRESH the band waits for the exit (06: R200). -/
def execStackSensorRead (stack : Nat) (reading : Option Int) (s : State) : Out :=
  let st := s.stack stack
  let band := match reading with
    | some t => nextBand (st.bandDue.getD st.band) t
    | none => 3
  let st' := match reading with
    | some t => { st with sensed := true, tempQ := t, temp := (t / 4).toNat % 256 }
    | none => { st with sensed := true }
  .next (if st.power == .selfRefresh then s.setStack stack { st' with bandDue := some band } else (s.setStack stack st').setBand stack band)

/-- The busiest `n` of some channels: channel and bytes, busiest first, the first of equals first. -/
def busiest : Nat → List (Nat × Nat) → List (Nat × Nat)
  | 0, _ => []
  | n + 1, t =>
    match t with
    | [] => []
    | p :: ps =>
      let best := ps.foldl (fun a q => if a.2 < q.2 then q else a) p
      best :: busiest n (t.erase best)

/-- Bytes of the plinth's 256 channels in the window. -/
def SkewMon.channels (m : SkewMon) : List (Nat × Nat) := (List.range 256).map (fun c => (c, Tbl.getD m.bytes c 0))

/-- The hot-spot monitor of a plinth replaced. -/
def State.setSkew (s : State) (p : Nat) (m : SkewMon) : State := { s with skew := Tbl.set s.skew p m }

/-- Item address of SKEW_EVENTS (21: R580). -/
def skewItem (p : Nat) : Nat := svcAddr (12 + p) 4 0x800

/-- Skew, bytes and busiest channels of a window, as the SKEW event gives them: 8.8 and 0.16 fixed point (06: R192, R193). -/
structure SkewView where
  code : Nat
  reached : Bool
  total : Nat
  shares : List (Nat × Nat)          -- channel and share
  deriving DecidableEq, Repr

/-- What the monitor sees of a window. Of a window without bytes, counted at SKEW_MIN_LOAD 0, skew and shares are free (assumption 72). -/
def State.skewView (s : State) (m : SkewMon) : SkewView :=
  let total := (Tbl.vals m.bytes).sum
  let top := (Tbl.vals m.bytes).foldl max 0
  let busy := busiest 4 m.channels
  if total = 0 then
    let code := Config.freeNat s.free 0 % 65536
    { code := code, reached := decide (16 * s.setting 0x00010002 ≤ code), total := 0
      shares := (List.range 4).map (fun i => ((busy.getD i (0, 0)).1, Config.freeNat s.free (i + 1) % 65536)) }
  else
    -- skew = top / (total / 256); SKEW_THRESHOLD is in sixteenths
    { code := min (top * 65536 / total) 0xFFFF, reached := decide (s.setting 0x00010002 * total ≤ top * 256 * 16), total := total
      shares := busy.map (fun p => (p.1, min (p.2 * 65536 / total) 0xFFFF)) }

/-- SKEW_WINDOW_END (06: R192, R193): a window below SKEW_MIN_LOAD percent of 10.24 GB is ignored. -/
def execSkewWindowEnd (plinth : Nat) (s : State) : Out :=
  let m := Tbl.getD s.skew plinth {}
  let v := s.skewView m
  if s.relaying plinth then .next s
  else
    let clear := { m with bytes := [] }
    if v.total < s.setting 0x00010003 * 102400000 then .next (s.setSkew plinth clear)
    else
      let s := if v.total = 0 then { s with free := s.free + 1 } else s
      if v.reached && m.armed then
        let s := s.setSkew plinth { clear with armed := false, below := 0, events := satAdd 32 m.events 1, last := v.code }
        let s := s.satCheck (hubUnit plinth) (skewItem plinth) m.events (satAdd 32 m.events 1)
        let share := fun (p : Nat × Nat) => leBytes 1 (8 * plinth + p.1 / 32) ++ leBytes 1 (p.1 % 32) ++ leBytes 2 p.2
        .next (s.post 0x0030 (hubUnit plinth)
          (leBytes 1 plinth ++ leBytes 8 (s.now (12 + plinth)) ++ leBytes 2 v.code ++ leBytes 8 v.total ++ v.shares.flatMap share))
      else
        let below := if v.reached then 0 else m.below + 1
        .next (s.setSkew plinth
          { clear with last := v.code, below := if m.armed then 0 else below, armed := m.armed || decide (10 ≤ below) })

/-- PD_IDLE_EXPIRY (06: R196, R197): 0 disables POWER_DOWN. -/
def execPdIdleExpiry (stack : Nat) (s : State) : Out :=
  .next (if (s.stack stack).power == .active && s.setting 0x00010004 != 0 then
    s.setStack stack { s.stack stack with power := .powerDown } else s)

/-- SR_IDLE_EXPIRY (06: R196, R197): 0 disables SELF_REFRESH. -/
def execSrIdleExpiry (stack : Nat) (s : State) : Out :=
  .next (if s.setting 0x00010005 != 0 then s.setStack stack { s.stack stack with power := .selfRefresh } else s)

/-- REFRESH (06: R196): a refresh wakes a stack in POWER_DOWN; in SELF_REFRESH the stack refreshes itself. -/
def execRefresh (stack : Nat) (s : State) : Out :=
  .next (if (s.stack stack).power == .powerDown then s.wakeStack stack else s)

/-- PHY_LINK_FAILURE (16: R478): the stack is lost and the device stops. -/
def execPhyLinkFailure (stack : Nat) (s : State) : Out :=
  .next ((s.setStack stack { s.stack stack with lost := true }).failStop 0x16 true)

end Sys2Proof.Machine
end

