-- ==== Sys2Proof/Machine/Ports.lean ====
section
/-!
DEFINITION. The sending side of the fabric: packet and flit bytes (08: R241; 10: R313, R316), route words and routing tables (10: R339
to R343), credits and packing (10: R331, R332), link packets (10: R321, R322), and a channel going down (10: R335, R336).
-/
namespace Sys2Proof.Machine

open Sys2Proof

/-! ### Bytes -/

/-- The bytes of a fabric packet (08: R241). -/
def FabPkt.bytes (p : FabPkt) : List Byte :=
  leBytes 1 p.ftype ++ leBytes 1 (p.tc + 8 * b2n p.twin) ++ leBytes 2 p.payload.length ++ leBytes 2 p.srcNode ++
    leBytes 2 p.dstNode ++ leBytes 2 p.hallTag ++ leBytes 2 p.srcUnit ++ leBytes 4 p.reqId ++
    (if p.ftype = 9 then leBytes 6 p.waypoint ++ leBytes 2 0 else leBytes 7 p.addr ++ leBytes 1 p.arg) ++
    leBytes 1 p.status ++ (if p.ftype = 9 then leBytes 1 p.opcode ++ leBytes 6 0 else leBytes 7 0) ++ p.payload

/-- The packet a header and payload spell (08: R241). -/
def FabPkt.ofBytes (bs : List Byte) : FabPkt :=
  { ftype := field bs 0 1
    tc := field bs 1 1 % 8
    twin := bit 3 (field bs 1 1)
    srcNode := field bs 4 2 % 2 ^ 14
    dstNode := field bs 6 2 % 2 ^ 14
    hallTag := field bs 8 2
    srcUnit := field bs 0xA 2 % 2 ^ 12
    reqId := field bs 0xC 4
    addr := if field bs 0 1 = 9 then 0 else field bs 0x10 7
    arg := if field bs 0 1 = 9 then 0 else field bs 0x17 1
    status := field bs 0x18 1
    waypoint := if field bs 0 1 = 9 then field bs 0x10 6 else 0
    opcode := if field bs 0 1 = 9 then field bs 0x19 1 else 0
    payload := slice bs 0x20 (field bs 2 2) }

/-- A unit's bytes: route word, then packet, on 8-byte boundaries (10: R316). -/
def FabUnit.bytes (u : FabUnit) : List Byte := pad8 (leBytes 8 u.route ++ u.pkt.bytes)

/-- What a unit is charged, in 32-byte units; a link packet needs no credit (10: R331). -/
def FabUnit.charge (u : FabUnit) : Nat := if 16 ≤ u.pkt.ftype then 0 else (8 + 32 + u.pkt.payload.length + 31) / 32

/-- Consecutive pieces of `n` bytes, the last filled with zeros. -/
def pieces (n : Nat) : Nat → List Byte → List (List Byte)
  | 0, _ => []
  | k + 1, bs => if bs.isEmpty then [] else padTo n bs :: pieces n k (bs.drop n)

/-! ### Modes and places -/

/-- The mode of a port before its peer is heard (10: R320): true is hall. -/
def State.portHall (s : State) (b q : Nat) : Bool :=
  decide (512 < s.fab.hallSize) || bit (16 * b + q) s.fab.switched ||
    (List.range 15).any (fun c => switchOut (s.switchCfg b (c + 1)) q != q)

/-- Service address of a counter of a channel end (21: R588): `rcv` the receiving end. -/
def chanItem (b q i : Nat) (rcv : Bool) : Nat :=
  svcAddr (16 + b) 0xD (0x100 * ((if rcv then 16 else 0) + q) + (if i < 4 then 8 + 8 * i else 0x28 + 4 * (i - 4)))

/-- Unit of a port (07: R594). -/
def portUnit (b q : Nat) : Nat := unitId (16 + b) (16 + q)

/-- A sender counter advanced: 0 to 3 are 64 bits wide (10: R346). -/
def State.bumpTx (s : State) (b q i n : Nat) : State :=
  let e := s.tx b q
  let s' := s.setTx b q { e with counters := bumpTbl e.counters i (if i < 4 then 64 else 32) n }
  if i < 4 then s' else s'.satBump e.counters i n (portUnit b q) (chanItem b q i false)

/-- A receiver counter advanced. -/
def State.bumpRx (s : State) (b q i n : Nat) : State :=
  let e := s.rx b q
  let s' := s.setRx b q { e with counters := bumpTbl e.counters i (if i < 4 then 64 else 32) n }
  if i < 4 then s' else s'.satBump e.counters i n (portUnit b q) (chanItem b q i true)

/-- A beacon counter advanced: 0 is 64 bits wide (21: R589). -/
def State.bumpBeacon (s : State) (b i : Nat) : State :=
  let e := s.beacon b
  let s' := s.setBeacon b { e with counters := bumpTbl e.counters i (if i = 0 then 64 else 32) 1 }
  if i = 0 then s' else s'.satBump e.counters i 1 (unitId (16 + b) 0) (svcAddr (16 + b) 0xE (4 + 4 * i))

/-- May a port carry DATA: its sender UP, and in direct mode its receiver too (10: R334). -/
def State.portUp (s : State) (b q : Nat) : Bool :=
  (s.tx b q).st == .up && ((s.tx b q).hall || (s.rx b q).st == .up)

/-- Does the configuration in force give the bank its own fibre (10: R338)? -/
def State.bankStraight (s : State) (b q : Nat) : Bool := switchOut (s.beacon b).fibres q == q

/-! ### Route words (10: R339 to R343) -/

def hopOf (w i : Nat) : Nat := w / 2 ^ (7 * i) % 128
def nextOf (w : Nat) : Nat := bits 59 56 w
def nhopsOf (w : Nat) : Nat := bits 63 60 w

/-- A word with NEXT aside (10: R343). -/
def wordKey (w : Nat) : Nat := w % 2 ^ 56 + nhopsOf w * 2 ^ 60

/-- A usable word: its first hop's port is UP, up for routing, and the word is not held (10: R341). -/
def State.wordUsable (s : State) (place w : Nat) : Bool :=
  let h := hopOf w 0
  nhopsOf w != 0 && s.portUp (h / 16) (h % 16) && s.bankStraight (h / 16) (h % 16) &&
    !s.fab.heldWords.contains (place, wordKey w)

/-- The table place of a destination: 256 times the table, plus the index (10: R340, R341). -/
def State.routePlace (s : State) (dst : Nat) : Nat :=
  if bits 13 6 dst = bits 13 6 s.ownNode then 256 + dst % 64 else bits 13 6 dst

/-- The words of a table place: GROUP_TABLE below 256, NODE_TABLE above (10: R340). -/
def State.routeWords (s : State) (place : Nat) : List Nat :=
  if place < 256 then Tbl.getD s.fab.groupTable place [] else Tbl.getD s.fab.nodeTable (place - 256) []

/-- The route a plinth chooses by flow key (10: R341). -/
def State.chooseRoute (s : State) (p dst key : Nat) : Option Nat :=
  if s.fab.node = none then none
  else
    let us := (s.routeWords (s.routePlace dst)).filter (s.wordUsable (s.routePlace dst))
    let pick := parity 64 (Nat.land key (Tbl.getD s.fab.s0 p 0)) + 2 * parity 64 (Nat.land key (Tbl.getD s.fab.s1 p 0))
    if us.isEmpty then none else us[pick % us.length]?

/-- The flow key of a packet (10: R341). -/
def FabPkt.key (p : FabPkt) : Nat :=
  if p.ftype = 5 ∨ p.ftype = 7 then p.srcNode + 2 ^ 14 * p.reqId
  else if p.ftype = 8 ∨ p.ftype = 9 then p.hallTag + 2 ^ 16 * p.srcNode
  else if 16 ≤ p.ftype then p.dstNode
  else p.addr / 256

/-! ### Sending -/

/-- Credit left for a class (10: R332). -/
def TxEnd.avail (e : TxEnd) (c : Nat) : Nat := subMod 32 (Tbl.getD e.granted c 0) (Tbl.getD e.charged c 0)

/-- The share of a port in its plinth's spill region, in flits (10: R329). -/
def State.spillShare (s : State) : Nat := s.spillSize / 32 / 256

/-- Replay capacity of a port in flits, with the share of its session (10: R329; 18: R539); while its plinth re-lays only the on-chip
flits count (06: R194). -/
def State.replayCap (s : State) (b q : Nat) : Nat :=
  let relay := (s.upd.relay.map (fun r => r.plinths.contains (b / 2))).getD false
  6144 + (if relay then 0 else (s.tx b q).share)

/-- Can the sender pack this unit now: channel up, not stopped, credit for all of it, and room for replay? -/
def State.canPack (s : State) (b q : Nat) (u : FabUnit) : Bool :=
  let e := s.tx b q
  s.portUp b q && !((s.beacon b).quiesce.contains q) && decide (u.charge ≤ e.avail u.pkt.tc) &&
    decide (e.unacked.length + (u.bytes.length + 239) / 240 ≤ s.replayCap b q)

/-- The acknowledgement that a flit of the port carries for the reverse channel, in direct mode: ACKSEQ and AK (10: R313). A NAK goes
once, in its LINK_ACK, and no flit repeats it (10: R325). -/
def State.carriedAck (s : State) (b q : Nat) : Nat × Nat :=
  let e := s.rx b q
  if (s.tx b q).hall || e.ident.isNone then (0, 0) else (subMod 20 e.expect 1, 1)

/-- An IDLE flit of the port. -/
def State.idleFlit (s : State) (b q : Nat) : FabFlit := { fseq := 0, ftype := 0, ackSeq := (s.carriedAck b q).1, ak := (s.carriedAck b q).2 }

/-- Flits of the port put on its lanes. -/
def State.lightFlits (s : State) (b q : Nat) (fl : List FabFlit) : State := s.putFlits b q (s.idleFlit b q) fl

/-- A link packet in a CTRL flit (10: R314, R316). -/
def State.lightCtrl (s : State) (b q : Nat) (pkt : FabPkt) : State :=
  s.lightFlits b q [{ s.idleFlit b q with ftype := 2, payload := pad8 pkt.bytes }]

/-- The unit's flits numbered and sent, charged once (10: R316, R331). One unit starts in each flit. -/
def State.packUnit (s : State) (b q : Nat) (u : FabUnit) : State :=
  let e := s.tx b q
  let ps := pieces 240 (u.bytes.length) u.bytes
  let fl := (List.range ps.length).map (fun i =>
    ({ fseq := (e.next + i) % 2 ^ 20, ftype := 1, payload := ps.getD i []
       ackSeq := (s.carriedAck b q).1, ak := (s.carriedAck b q).2 } : FabFlit))
  let s := s.setTx b q { e with
    next := (e.next + ps.length) % 2 ^ 20
    unacked := e.unacked ++ fl
    sent := e.sent ++ fl
    charged := Tbl.upd e.charged u.pkt.tc 0 (fun c => addMod 32 c u.charge) }
  let s := s.lightFlits b q fl
  let s := s.setBeacon b { s.beacon b with idlePorts := (s.beacon b).idlePorts.filter (fun p => p ≠ q) }
  s.bumpTx b q 0 ps.length

/-- Does a packet name one block of its home (08: R249, R273)? -/
def FabPkt.ofBlock (p : FabPkt) : Bool := decide (1 ≤ p.ftype) && (decide (p.ftype ≤ 4) || p.ftype == 6)

/-- Must a unit stay behind an earlier one: both of one class, or requests to one block (08: R249, R272, R273)? Link packets need no credit and pass. -/
def FabUnit.behind (u e : FabUnit) : Bool :=
  decide (u.pkt.ftype < 16) && decide (e.pkt.ftype < 16) &&
    (u.pkt.tc == e.pkt.tc || u.pkt.ofBlock && e.pkt.ofBlock && u.pkt.addr / 256 == e.pkt.addr / 256)

/-- Waiting units packed in arrival order, each as its class's credit allows (10: R331); `stuck` are the earlier ones that stay. -/
def pumpUnits (b q : Nat) : List FabUnit → List FabUnit → State → List FabUnit × State
  | stuck, [], s => (stuck, s)
  | stuck, u :: us, s =>
    if !stuck.any u.behind && s.canPack b q u then pumpUnits b q stuck us (s.packUnit b q u)
    else pumpUnits b q (stuck ++ [u]) us s

/-- The sender of a port takes up what waits for it. -/
def State.pump (s : State) (b q : Nat) : State :=
  let w := (s.tx b q).waiting
  let r := pumpUnits b q [] w s
  r.2.setTx b q { r.2.tx b q with waiting := r.1 }

/-- The egress a unit's route names next: 16 times the beacon, plus the port. -/
def FabUnit.egress (u : FabUnit) : Nat := hopOf u.route (nextOf u.route)

/-- A unit handed to the egress its route names next; NEXT is counted as it leaves (10: R342). -/
def State.sendUnit (s : State) (u : FabUnit) : State :=
  let h := u.egress
  let b := h / 16
  let q := h % 16
  let u' : FabUnit := { u with route := u.route + 2 ^ 56 }
  (s.setTx b q { s.tx b q with waiting := (s.tx b q).waiting ++ [u'] }).pump b q

/-- A packet sent from a plinth's hub by routing table, or dropped where no word is usable (10: R341). -/
def State.sendPkt (s : State) (p : Nat) (pkt : FabPkt) : State :=
  match s.chooseRoute p pkt.dstNode pkt.key with
  | none => s
  | some w => s.sendUnit { route := w, pkt := pkt }

/-- The first bytes of a link packet's payload (10: R321). -/
def linkHead (b q session : Nat) : List Byte := leBytes 1 b ++ leBytes 1 q ++ leBytes 1 session ++ leBytes 1 0

/-- A link packet of a receiver or sender at port Bb.Pq: a CTRL flit on the port's own transmit fibre, and in hall mode a routed copy
as well (10: R322). -/
def State.sendLink (s : State) (b q ftype dst : Nat) (payload : List Byte) : State :=
  let pkt : FabPkt := { ftype := ftype, tc := 0, srcNode := s.ownNode, dstNode := dst, hallTag := 0, payload := payload }
  let e := s.tx b q
  let s := (s.setTx b q { e with links := e.links ++ [pkt] }).lightCtrl b q pkt
  if e.hall then s.sendPkt (b / 2) pkt else s

/-! ### ROUTE_FAIL (10: R321, R336, R343) -/

/-- Every table place that holds the word, NEXT aside. -/
def State.placesOf (s : State) (k : Nat) : List Nat := (List.range 320).filter (fun p => (s.routeWords p).any (fun w => wordKey w == k))

/-- A word put under hold wherever the tables have it (10: R343). -/
def State.holdWord (s : State) (w : Nat) : State :=
  let new := ((s.placesOf (wordKey w)).map (fun p => (p, wordKey w))).filter (fun h => !s.fab.heldWords.contains h)
  { s with fab := { s.fab with heldWords := s.fab.heldWords ++ new } }

/-- ROUTE_FAIL for a dropped unit, to its SRC_NODE; a unit of the own package holds the word at once. `head` names the channel it tells of: the
egress for PORT_DOWN, else the channel that brought the unit (assumption 60). -/
def State.routeFail (s : State) (b cause hop : Nat) (head : List Byte) (u : FabUnit) : State :=
  let s := s.bumpBeacon b 4
  if u.pkt.srcNode = s.ownNode then s.holdWord u.route
  else
    s.sendPkt (b / 2) { ftype := 0x14, tc := 0, srcNode := s.ownNode, dstNode := u.pkt.srcNode, hallTag := 0
                        payload := head ++ leBytes 1 cause ++ leBytes 1 hop ++ leBytes 2 0 ++ leBytes 8 u.route }

/-- The channel that a receive direction serves, as link packets name it. -/
def State.rxHead (s : State) (b q : Nat) : List Byte := ((s.rx b q).ident.map (fun c => linkHead c.beacon c.port c.session)).getD (linkHead b q 0)

/-- ROUTE_FAIL PORT_DOWN, at most once per millisecond for one route word (10: R336). -/
def State.dropUnit (s : State) (b : Nat) (u : FabUnit) : State :=
  let now := s.now (16 + b)
  let recent := (s.beacon b).failSent.filter (fun f => decide (now - f.2 < 156250))
  if recent.any (fun f => f.1 == wordKey u.route) then s
  else
    let s := s.setBeacon b { s.beacon b with failSent := recent ++ [(wordKey u.route, now)] }
    s.routeFail b 0 (nextOf u.route) (linkHead (u.egress / 16) (u.egress % 16) (s.tx (u.egress / 16) (u.egress % 16)).session) u

/-! ### Receive pools (10: R331 to R333, R342) -/

/-- LINK_CREDIT of a receive direction with an open session (10: R321, R332). -/
def State.sendCredit (s : State) (b q : Nat) : State :=
  let e := s.rx b q
  match e.ident with
  | none => s
  | some c =>
    let s := s.setRx b q { e with reported := e.freed }
    s.sendLink b q 0x12 c.node (linkHead c.beacon c.port c.session ++ (List.range 6).flatMap (fun i => leBytes 4 (Tbl.getD e.freed i 0)))

/-- A packet has left the pool: its credit is granted again, and told once 4 KiB of a class are free. -/
def State.freeUnit (s : State) (b q : Nat) (u : FabUnit) : State :=
  let e := s.rx b q
  let c := u.pkt.tc
  if u.pkt.ftype ≥ 16 then s
  else
    let n := addMod 32 (Tbl.getD e.freed c 0) u.charge
    let s := s.setRx b q { e with freed := Tbl.set e.freed c n }
    if 128 ≤ subMod 32 n (Tbl.getD e.reported c 0) then s.sendCredit b q else s

/-- Does the port take no transit: down, or its bank on another fibre (10: R336, R338)? One that quiesces holds its packets. -/
def State.portGone (s : State) (b q : Nat) : Bool :=
  !s.bankStraight b q || (!s.portUp b q && (s.tx b q).st != .quiescing)

/-- Packets of a pool sent on where their egress takes them, dropped where it is down, else kept in order; `stuck` are the earlier ones that stay. -/
def moveUnits (b q : Nat) : List FabUnit → List FabUnit → State → List FabUnit × State
  | stuck, [], s => (stuck, s)
  | stuck, u :: us, s =>
    let h := u.egress
    let v : FabUnit := { u with route := u.route + 2 ^ 56 }
    if s.portGone (h / 16) (h % 16) then moveUnits b q stuck us ((s.dropUnit (h / 16) u).freeUnit b q u)
    else if !stuck.any (fun e => e.egress == h && u.behind e) && s.canPack (h / 16) (h % 16) v then
      moveUnits b q stuck us (((s.packUnit (h / 16) (h % 16) v).bumpBeacon b 0).freeUnit b q u)
    else moveUnits b q (stuck ++ [u]) us s

/-- One pool. -/
def State.movePool (s : State) (b q : Nat) : State :=
  let r := moveUnits b q [] (s.rx b q).pool s
  r.2.setRx b q { r.2.rx b q with pool := r.1 }

/-- Every pool that holds a packet. -/
def State.movePools (s : State) : State := (Tbl.keys s.rxEnds).foldl (fun acc i => acc.movePool (i / 16) (i % 16)) s

/-! ### A channel going down (10: R335, R336) -/

/-- PORT_DOWN (13: R423). Causes: 0 lock loss, 1 direction down, 2 fence, 3 RX_DOWN, 4 replay timer, 5 rejoin or mode change, 6 re-point. -/
def State.postPortDown (s : State) (b q cause : Nat) : State :=
  s.post 0x0029 (portUnit b q) (leBytes 1 b ++ leBytes 1 q ++ leBytes 1 cause)

/-- The sender of a port goes DOWN: unacknowledged flits, spill and credits discarded, waiting packets dropped (10: R336). -/
def State.txDown (s : State) (b q cause : Nat) : State :=
  let e := s.tx b q
  if e.st == .down then s
  else
    let dropped := e.waiting
    let s := s.setTx b q { e with
      st := .down, downSeen := true, spilling := false, unacked := [], spilled := 0, granted := [], charged := []
      expiries := 0, waiting := [], echoes := [] }
    let s := s.bumpTx b q 6 1
    let s := s.postPortDown b q cause
    (dropped.foldl (fun acc u => acc.dropUnit b { u with route := u.route - 2 ^ 56 }) s).movePools

/-- The receiver of a port goes DOWN. Packets already in its pool move on normally (10: R318). -/
def State.rxDown (s : State) (b q cause : Nat) : State :=
  let e := s.rx b q
  if e.st == .down then s
  else
    let s := s.setRx b q { e with st := .down, downSeen := true, ident := none, nakOut := false, ackDue := 0, partialIn := [] }
    let s := s.bumpRx b q 7 1
    s.postPortDown b q cause

/-- A whole port down; in direct mode one direction takes the other along (10: R334). -/
def State.portDown (s : State) (b q cause : Nat) : State := (s.txDown b q cause).rxDown b q cause

/-- Every port takes the mode of 10: R320; a port whose mode changes goes down and comes up with a new session (18: R539). -/
def State.refreshModes (s : State) : State :=
  (List.range 128).foldl (fun acc i =>
    let b := i / 16
    let q := i % 16
    let m := acc.portHall b q
    if (acc.tx b q).hall == m then acc
    else
      let acc := acc.portDown b q 5
      let acc := acc.setTx b q { acc.tx b q with hall := m }
      acc.setRx b q { acc.rx b q with hall := m }) s

end Sys2Proof.Machine
end

