-- ==== Sys2Proof/Machine/Space.lean ====
section
/-!
DEFINITION. The fabric memory space: windows, fixed regions, the fabric caches, atomics, and requests at their entry hub and at their
home (08: R233 to R259, R271, R272; 06: R194).
-/
namespace Sys2Proof.Machine

open Sys2Proof

/-! ### Windows (08: R237 to R240) -/

/-- Access bits of a window entry. -/
def accRead : Nat := 1
def accWrite : Nat := 2
def accAtomic : Nat := 4
def accExport : Nat := 8
def accMirror : Nat := 16

/-- Does an entry cover the node and every byte, and grant the access? -/
def WinEntry.grants (e : WinEntry) (node l n need : Nat) : Bool :=
  decide (e.nodeLo ≤ node) && decide (node ≤ e.nodeHi) && decide (e.base ≤ l) && decide (l + n ≤ e.limit + 1) &&
    Nat.land e.access need == need

/-- Does the address run touch a spill region (10: R330)? -/
def State.spillHit (s : State) (a n : Nat) : Bool :=
  s.isLocal a && (s.inSpill (localOf a) || s.inSpill (localOf a + n - 1)) && s.spillSize != 0

/-- The check at the entry hub (08: R238). PT0 reaches the package's own memory with READ and WRITE (08: R237). -/
def State.windowOk (s : State) (pt a n need : Nat) : Bool :=
  !s.spillHit a n &&
    (if pt = 0 then s.isLocal a && (need == accRead || need == accWrite)
    else (((Tbl.get? s.parts pt).map (fun p => (Tbl.vals p.window).any (fun e => e.grants (nodeOf a) (localOf a) n need))).getD false))

/-- The check at the home of a request from another package (08: R239). -/
def State.exportOk (s : State) (pt : Option Nat) (a n need : Nat) : Bool :=
  !s.spillHit a n &&
    (match pt with
    | some k => ((Tbl.get? s.parts k).map (fun p =>
        (Tbl.vals p.window).any (fun e => e.grants s.ownNode (localOf a) n (need + accExport)))).getD false
    | none => false)

/-- A counter of a plinth's fabric cache advanced (08: R251; 21: R584): 8 is WINDOW_VIOLATIONS, 32 bits wide. -/
def State.bumpCache (s : State) (p i n : Nat) : State :=
  let c := s.cache p
  let s' := s.setCache p { c with counters := bumpTbl c.counters i (if i < 8 then 64 else 32) n }
  if i < 8 then s' else s'.satBump c.counters i n (unitId (12 + p) 4) (svcAddr (12 + p) 7 0x40)

/-- WINDOW_FAULT, counted at the plinth whose hub made the check (08: R240). -/
def State.violation (s : State) (p pt a need : Nat) : State :=
  (s.bumpCache p 8 1).postFor pt 0x0020 (hubUnit p) (leBytes 1 pt ++ leBytes 8 a ++ leBytes 1 need)

/-! ### Fixed regions (08: R252 to R256) -/

/-- Does a region cover a byte of the run? -/
def Region.touches (r : Region) (node l n : Nat) : Bool :=
  r.node == node && decide (r.base < l + n) && decide (l < r.base + r.length)

/-- Is a byte of the run in a region that some tag of this member holds (08: R254)? -/
def State.inFixed (s : State) (a n : Nat) : Bool :=
  (Tbl.vals s.tags).any (fun t => t.regions.any (fun r => r.touches (nodeOf a) (localOf a) n))

/-- Is the block in a region in effect under the tag, so that a fill becomes FIXED (08: R253, R256)? -/
def State.fixedFill (s : State) (tag a : Nat) : Bool :=
  (s.tagSt tag).regions.any (fun r => r.st == .inEffect && r.touches (nodeOf a) (localOf a / 256 * 256) 256)

/-! ### The fabric cache (08: R245 to R248, R255) -/

def CacheLine.isFixed (l : CacheLine) : Bool := l.st == .fixed

/-- The set of a block: 196,608 sets. -/
def cacheSet (block : Nat) : Nat := block % 196608

/-- Does the line hit for a tag whose waypoint is `w` (08: R245, R247, R253)? -/
def CacheLine.hits (l : CacheLine) (tag block : Nat) (w : Option Nat) : Bool :=
  l.hallTag == tag && l.block == block &&
    (match l.st with
    | .fixed => true
    | .leased st => w == some st)

/-- Lines FIXED now. -/
def Cache.fixedCount (c : Cache) : Nat := (c.lines.filter CacheLine.isFixed).length

/-- Lines a plinth may hold FIXED (08: R255). -/
def State.fixedLimit (s : State) : Nat := 3145728 * s.setting 0x00010006 / 8

/-- The least recently used of some lines. -/
def oldestLine : List CacheLine → Option CacheLine
  | [] => none
  | l :: ls => match oldestLine ls with
    | none => some l
    | some m => some (if m.age < l.age then m else l)

/-- The cache without one line. -/
def Cache.drop (c : Cache) (x : CacheLine) : Cache :=
  { c with lines := c.lines.filter (fun l => !(l.hallTag == x.hallTag && l.block == x.block)) }

/-- A filled line placed: the same line replaced, the FIXED share kept, and the least recently used line of a full set evicted. The
number counts evictions. -/
def Cache.install (c : Cache) (limit : Nat) (x : CacheLine) : Cache × Nat :=
  let c := c.drop x
  let overShare := x.isFixed && decide (limit ≤ c.fixedCount)
  let inSet := c.lines.filter (fun l => l.isFixed && cacheSet l.block == cacheSet x.block)
  let victim := if overShare then oldestLine (if inSet.isEmpty then c.lines.filter CacheLine.isFixed else inSet) else none
  let c1 := match victim with
    | some v => c.drop v
    | none => c
  let row := c1.lines.filter (fun l => cacheSet l.block == cacheSet x.block)
  let full := decide (16 ≤ row.length)
  let c2 := match full, oldestLine row with
    | true, some v => c1.drop v
    | _, _ => c1
  let x := { x with age := c2.clock + 1 }
  ({ c2 with lines := c2.lines ++ [x], clock := c2.clock + 1 }, b2n victim.isSome + b2n full)

/-- Every line of some kind made INVALID in one plinth. -/
def State.dropLines (s : State) (p : Nat) (gone : CacheLine → Bool) : State :=
  let c := s.cache p
  s.setCache p { c with lines := c.lines.filter (fun l => !gone l) }

/-- The same in all four plinths. -/
def State.dropAllLines (s : State) (gone : CacheLine → Bool) : State :=
  (List.range 4).foldl (fun acc p => acc.dropLines p gone) s

/-- Waypoint that a member holds for a tag (08: R593). -/
def State.waypointHeld (s : State) (tag : Nat) : Option Nat := if (s.tagSt tag).asking then none else (s.tagSt tag).waypoint

/-- Has an advance of the tag dropped its leases, its outcome not yet known (08: R263)? -/
def State.outcomeOpen (s : State) (tag : Nat) : Bool := ((s.tagSt tag).advance.map (·.asking)).getD false

/-- Waypoint of a tag for reads: none while the outcome of an advance of the tag, or of the hall, is not known. -/
def State.waypointOf (s : State) (tag : Nat) : Option Nat :=
  if s.outcomeOpen tag || s.outcomeOpen 0 then none else s.waypointHeld tag

/-! ### Word masks (08: R242) -/

/-- The word mask of a run inside a block. -/
def maskOf (a n : Nat) : Nat :=
  ((List.range 32).map (fun k => if 8 * k < a % 256 + n ∧ a % 256 < 8 * k + 8 then 2 ^ k else 0)).sum

/-- A run of bytes at an offset as the block's 256 bytes and mask. -/
def blockRun (off : Nat) (data : List Byte) : List Byte × List Bool :=
  (padTo 256 (List.replicate off 0 ++ data),
    (List.range 256).map (fun i => decide (off ≤ i) && decide (i < off + data.length)))

/-- Whole 8-byte words under a mask as the block's 256 bytes and mask. -/
def maskedWords (mask : Nat) (data : List Byte) : List Byte × List Bool :=
  let ks := setBits 32 0 mask
  ((List.range 256).map (fun i => data.getD (8 * (ks.takeWhile (fun k => k < i / 8)).length + i % 8) 0),
    (List.range 256).map (fun i => bit (i / 8) mask))

/-- What a WR or MIRROR_WR payload stores in its block, none where it is malformed. Bytes fewer than the masked words stand at ADDR. -/
def wrPayload (a : Nat) (payload : List Byte) : Option (List Byte × List Bool) :=
  let mask := field payload 0 4
  let data := payload.drop 4
  let words := popCount 32 mask
  if payload.length < 5 ∨ 260 < payload.length ∨ mask = 0 then none
  else if data.length = 8 * words then some (maskedWords mask data)
  else if data.length < 8 * words ∧ a % 256 + data.length ≤ 256 ∧ maskOf a data.length = mask then some (blockRun (a % 256) data)
  else none

/-! ### Twins at home (08: R271, R272) -/

/-- Is a byte of the block's run in a mirrored region of the package? -/
def State.isMirrored (s : State) (l n : Nat) : Bool :=
  s.parts.any (fun p => (Tbl.vals p.2.window).any (fun e =>
    decide (e.nodeLo ≤ s.ownNode) && decide (s.ownNode ≤ e.nodeHi) && bit 4 e.access &&
      decide (e.base < l + n) && decide (l ≤ e.limit)))

/-- Does a home change travel to the twin now? -/
def State.mirrors (s : State) (l n : Nat) : Bool := (s.fab.twin == .active || s.fab.twin == .resync) && s.isMirrored l n

/-- Does STANDBY keep stores and atomics from a run (08: R271; assumption 82)? -/
def State.notIssued (s : State) (l n : Nat) : Bool := s.fab.twin == .standby && s.isMirrored l n

/-- Is a request identifier in use or still closed (08: R244)? -/
def State.idTaken (s : State) (id : Nat) : Bool :=
  s.fab.closedIds.any (fun c => c.1 == id) || s.fab.outstanding.any (fun o => o.reqId == id || o.twin && o.orig == id && o.fromNode.isNone) ||
    s.relayWait.any (fun h => h.id == some id)

/-- A fresh request identifier, none in use or still closed (08: R244). -/
def State.newReqId (s : State) : Nat × State :=
  let n := s.fab.closedIds.length + 2 * s.fab.outstanding.length + s.relayWait.length + 1
  let id := (((List.range n).map (fun i => addMod 32 s.fab.nextReqId i)).find? (fun i => !s.idTaken i)).getD s.fab.nextReqId
  (id, { s with fab := { s.fab with nextReqId := addMod 32 id 1 } })

/-- Is a run inside one aligned 4 bytes, so that its MIRROR_WR carries only those (08: R242)? -/
def inHalf (l n : Nat) : Bool := decide (l % 4 + n ≤ 4)

/-- The MIRROR_WR of a change (08: R242, R272): the words under the mask of its block, or the 4 bytes about `l`. -/
def State.mirrorPkt (s : State) (l mask : Nat) (half : Bool) (hallTag id : Nat) : FabPkt :=
  let base := if half then l / 4 * 4 else l / 256 * 256
  let data := if half then Store.readN s.mem base 4
    else (setBits 32 0 mask).flatMap (fun k => Store.readN s.mem (base + 8 * k) 8)
  { ftype := 6, tc := 1, twin := true, srcNode := s.ownNode, dstNode := s.ownNode, hallTag := hallTag
    srcUnit := unitId (12 + homePlinth l) 0, reqId := id, addr := s.ownNode * 2 ^ 42 + base
    payload := leBytes 4 mask ++ data }

/-- A MIRROR_WR takes the path of those to its block that no acknowledgement has ended, and waits while that path is unusable or an earlier one waits
(08: R273; 10: R341); with none outstanding it takes the path that its flow key picks, and is dropped where no word is usable. -/
def State.sendMirror (s : State) (pkt : FabPkt) : State :=
  let block := localOf pkt.addr / 256
  let waits := { s with fab := { s.fab with mirrorWait := s.fab.mirrorWait ++ [pkt] } }
  let go := fun (w : Nat) =>
    ({ s with fab := { s.fab with outstanding := s.fab.outstanding.map (fun o =>
        if o.twin && o.reqId == pkt.reqId then { o with route := w } else o) } } : State).sendUnit { route := w, pkt := pkt }
  if s.fab.mirrorWait.any (fun p => localOf p.addr / 256 == block) then waits
  else
    match s.fab.outstanding.find? (fun o => o.twin && localOf o.addr / 256 == block && o.route != 0) with
    | some o => if s.wordUsable (s.routePlace pkt.dstNode) o.route then go o.route else waits
    | none =>
      match s.chooseRoute (homePlinth (localOf pkt.addr)) pkt.dstNode pkt.key with
      | some w => go w
      | none => s

/-- Waiting MIRROR_WRs whose requests are still open, tried again in order. -/
def State.retryMirrors (s : State) : State :=
  (s.fab.mirrorWait.filter (fun p => s.fab.outstanding.any (fun o => o.twin && o.reqId == p.reqId))).foldl State.sendMirror
    { s with fab := { s.fab with mirrorWait := [] } }

/-- A home change sent to the twin as one MIRROR_WR (08: R272); the request waits for its MIRROR_ACK. -/
def State.mirrorOut (s : State) (l mask : Nat) (half : Bool) (r : OutReq) : State :=
  let id := s.newReqId
  let s := id.2
  let s := { s with fab := { s.fab with
    outstanding := s.fab.outstanding ++ [{ r with reqId := id.1, orig := r.reqId, twin := true, route := 0 }] } }
  s.sendMirror (s.mirrorPkt l mask half r.hallTag id.1)

/-! ### Answers -/

/-- A COMPLETION for a request of another package, from its home (08: R241, R243). -/
def State.reply (s : State) (home node hallTag unit reqId status : Nat) (data : List Byte) : State :=
  s.sendPkt home
    { ftype := 5, tc := 2, srcNode := s.ownNode, dstNode := node, hallTag := hallTag, srcUnit := unit, reqId := reqId
      status := status, payload := data }

/-- Blocks that `n` bytes from an address touch. -/
def blocksOf (a n : Nat) : List Nat := if n = 0 then [] else (List.range ((a + n - 1) / 256 - a / 256 + 1)).map (fun i => a / 256 + i)

/-- Does some block of a run keep its requests waiting? -/
def State.runBusy (s : State) (l n : Nat) : Bool := (blocksOf l n).any (fun b => s.memBusy (256 * b))

/-- Bytes of the package's own memory, block by block; the first error ends it. -/
def State.readBlocks (s : State) (l : Nat) : List Nat → Nat → List Byte → Nat × List Byte × State
  | [], _, acc => (0, acc, s)
  | blk :: rest, n, acc =>
    let lo := max l (blk * 256)
    let m := min (l + n) (blk * 256 + 256) - lo
    let r := s.ctlRead lo m
    if r.1 = 0 then State.readBlocks r.2.2 l rest n (acc ++ r.2.1) else (r.1, [], r.2.2)

/-- A run of the package's own memory read: status, bytes, and the state after it. -/
def State.readRun (s : State) (l n : Nat) : Nat × List Byte × State := s.readBlocks l (blocksOf l n) n []

/-- Entries into advances that have moved a tag: its own and the hall's (08: R261, R262). A request is stamped with them when it is issued. -/
def State.entryOf (s : State) (tag : Nat) : Nat := (s.tagSt tag).entry + (if tag = 0 then 0 else (s.tagSt 0).entry)

/-- A part of a memory command that has ended. -/
def MemOp.part (m : MemOp) (id status : Nat) (data : List Byte) : MemOp :=
  match m.waiting.find? (fun w => w.1 = id) with
  | none => m
  | some w =>
    { m with
      waiting := m.waiting.filter (fun x => x.1 ≠ id)
      parts := if status = 0 then m.parts ++ [(w.2, data)] else m.parts
      err := if status = 0 then m.err
        else match m.err with
          | some e => some (if w.2 < e.2 then (status, w.2) else e)
          | none => some (status, w.2) }

/-- A request ended: its completion goes to its requester, here or on another package, from the hub where it ended (assumption 73). Requests of Exsar belong to the memory command
of the mailbox in their TAG, which also numbers its parts. -/
def State.finish (s : State) (r : OutReq) (status : Nat) (data : List Byte) : State :=
  let data := if status = 0 then data else if status = 2 then List.replicate r.len 0 else []
  match r.fromNode with
  | some n => s.reply (homePlinth (localOf r.addr)) n r.hallTag r.unit r.reqId status data
  | none =>
    if r.unit = exsarUnit then
      { s with helm := { s.helm with memOps := Tbl.adjust s.helm.memOps (r.tag / 8192) (fun m => m.part (r.tag % 8192) status data) } }
    else s.complete (hubUnit r.plinth) r.partition r.unit r.tag status data

/-! ### Entry hub (08: R238, R245 to R249; 10: R341) -/

/-- What a unit asks. -/
inductive Ask where
  | rd (n : Nat)
  | wr (data : List Byte)
  | part (data : List Byte)     -- a V-stage's store of fewer than 4 bytes: a request of its word under a byte mask (03: R96; 05: R153)
  | atomic (op : Nat) (payload : List Byte)
  | hint
  deriving DecidableEq, Repr

def Ask.need : Ask → Nat
  | .rd _ | .hint => accRead
  | .wr _ | .part _ => accWrite
  | .atomic _ _ => accAtomic

def Ask.len : Ask → Nat
  | .rd n => n
  | .wr d | .part d => d.length
  | .atomic op _ => (atomicSize op).getD 1
  | .hint => 1

/-- Well formed: inside one block, 4-byte to 256-byte stores, aligned atomics (07: R212; 08: R257). -/
def Ask.ok (a : Nat) : Ask → Bool
  | .rd n => decide (1 ≤ n) && decide (a % 256 + n ≤ 256)
  | .wr d => decide (4 ≤ d.length) && decide (a % 256 + d.length ≤ 256)
  | .part d => decide (1 ≤ d.length) && decide (a % 4 + d.length ≤ 4)
  | .atomic op p => atomicOk a op p
  | .hint => true

def Ask.kind : Ask → ReqKind
  | .rd _ => .rd
  | .wr _ | .part _ => .wr
  | .atomic _ _ => .atomic
  | .hint => .hint

/-- The command that asks this, for a request that has to wait. -/
def Ask.instr (q : UnitReq) : Ask → Instr
  | .rd n => .memRd q (n - 1)
  | .wr d | .part d => .memWr q d
  | .atomic op p => .atomicRequest q op p
  | .hint => .hint q

/-- The completion of a hint is never returned; any other goes from the hub of a plinth to the unit, or to the memory command. -/
def State.answer (s : State) (p : Nat) (q : UnitReq) (k : Ask) (status : Nat) (data : List Byte) (id : Nat) : State :=
  if k = .hint then s
  else s.finish
    { plinth := p, unit := q.src, tag := q.tag, reqId := id, partition := q.partition, hallTag := 0, kind := k.kind
      addr := q.addr, len := k.len } status data

/-- A request at its home on this package (06: R173; 08: R257, R272). -/
def State.serveLocal (s : State) (q : UnitReq) (k : Ask) (id entry : Nat) : State :=
  let l := localOf q.addr
  let tag := s.tagOfPart q.partition
  let req : OutReq :=
    { plinth := homePlinth l, unit := q.src, tag := q.tag, reqId := id, partition := q.partition, hallTag := tag
      kind := k.kind, addr := q.addr, len := k.len, aheadOf := entry }
  match k with
  | .rd n =>
    let r := s.ctlRead l n
    r.2.2.answer (homePlinth l) q k r.1 r.2.1 id
  | .hint => (s.ctlRead l 256).2.2
  | .wr d | .part d =>
    let s := s.ctlStore l d
    if s.mirrors l d.length then s.mirrorOut l (maskOf l d.length) (inHalf l d.length) req else s.answer (homePlinth l) q k 0 [] id
  | .atomic op p =>
    let r := s.atomicAt l op p
    if r.1 == 0 && r.2.2.mirrors l k.len then r.2.2.mirrorOut l (maskOf l k.len) (inHalf l k.len) { req with data := r.2.1 }
    else r.2.2.answer (homePlinth l) q k r.1 r.2.1 id

/-- Requests outstanding from a plinth to a block. -/
def State.sameBlock (s : State) (p a : Nat) : List OutReq :=
  s.fab.outstanding.filter (fun r => !r.twin && r.plinth = p && r.addr / 256 = a / 256)

/-- Is a place in a mirrored region of the partition's window (05: R154)? -/
def State.mirroredFor (s : State) (pt a : Nat) : Bool :=
  (((Tbl.get? s.parts pt).map (fun p => Tbl.vals p.window)).getD []).any (fun e =>
    decide (e.nodeLo ≤ nodeOf a) && decide (nodeOf a ≤ e.nodeHi) && bit 4 e.access && decide (e.base ≤ localOf a) && decide (localOf a ≤ e.limit))

/-- A request that leaves the package (08: R241, R248; 10: R341): none where it has to wait for the route its block holds. -/
def State.sendRequest (s : State) (p : Nat) (q : UnitReq) (k : Ask) (id entry : Nat) : Option State :=
  let tag := s.tagOfPart q.partition
  let whole := k.kind == .rd || k.kind == .hint
  let pkt : FabPkt :=
    { ftype := match k with
        | .rd _ | .hint => 1
        | .wr _ | .part _ => 2
        | .atomic _ _ => 3
      tc := if k.kind == .wr && s.mirroredFor q.partition q.addr then 1 else 3
      srcNode := s.ownNode, dstNode := nodeOf q.addr, hallTag := tag, srcUnit := q.src, reqId := id
      addr := if whole then q.addr / 256 * 256 else q.addr
      arg := match k with
        | .rd _ | .hint => 255
        | .wr _ | .part _ => 0
        | .atomic op _ => op
      payload := match k with
        | .wr d | .part d => leBytes 4 (maskOf q.addr d.length) ++ d
        | .atomic _ pl => pl
        | _ => [] }
  let go := fun (w : Nat) =>
    let r : OutReq :=
      { plinth := p, unit := q.src, tag := q.tag, reqId := id, partition := q.partition, hallTag := tag, kind := k.kind
        addr := q.addr, len := k.len, waypoint := s.waypointOf tag, route := w, aheadOf := entry }
    let s := if whole then s
      else
        -- lines of the block go, and reads on their way may no longer fill (08: R246, R248)
        let s := s.dropLines p (fun l => l.block == q.addr / 256)
        { s with fab := { s.fab with outstanding := s.fab.outstanding.map (fun o =>
            if o.plinth = p ∧ o.addr / 256 = q.addr / 256 then { o with stale := true } else o) } }
    let s := { s with fab := { s.fab with outstanding := s.fab.outstanding ++ [r] } }
    s.sendUnit { route := w, pkt := pkt }
  match s.sameBlock p q.addr with
  | o :: _ => if s.wordUsable (s.routePlace pkt.dstNode) o.route then some (go o.route) else none
  | [] =>
    match s.chooseRoute p pkt.dstNode pkt.key with
    | some w => some (go w)
    | none => some (s.answer p q k 6 [] id)

/-- A read or hint of a remote block at its plinth's cache (08: R245 to R247). -/
def State.cacheRead (s : State) (p : Nat) (q : UnitReq) (k : Ask) (id entry : Nat) : Option State :=
  let tag := s.tagOfPart q.partition
  let block := q.addr / 256
  match (s.cache p).lines.find? (fun l => l.hits tag block (s.waypointOf tag)) with
  | some l =>
    let c := s.cache p
    let s := s.setCache p { c with
      lines := c.lines.map (fun x => if x.hallTag = tag ∧ x.block = block then { x with age := c.clock + 1 } else x)
      clock := c.clock + 1 }
    some ((s.bumpCache p 0 1).answer p q k 0 (slice l.data (q.addr % 256) k.len) id)
  | none => (s.bumpCache p 1 1).sendRequest p q k id entry

/-- The request of a unit that a waiting command asks for, if it is one. -/
def HeldReq.asked (h : HeldReq) : Option UnitReq :=
  match h.cmd with
  | .memRd q _ | .memWr q _ | .atomicRequest q _ _ | .hint q => some q
  | _ => none

/-- Does an earlier request from the plinth to a remote block wait for its route (08: R249)? -/
def State.heldAhead (s : State) (p a : Nat) : Bool :=
  s.relayWait.any (fun h => h.block.isNone && h.copyOf.isNone &&
    (h.asked.map (fun q => plinthOf (q.src / 128) == p && q.addr / 256 == a / 256)).getD false)

/-- A request that waits for its block's route (10: R341). -/
def State.holdRoute (s : State) (id : Nat) (c : Instr) (entry : Nat) : State :=
  { s with relayWait := s.relayWait ++ [{ id := some id, cmd := c, entry := entry }] }

/-- A checked request carried on: to its home here, or out of the package. -/
def State.routeRequest (s : State) (q : UnitReq) (k : Ask) (id entry : Nat) : State :=
  let p := plinthOf (q.src / 128)
  if s.isLocal q.addr then
    if k.need != accRead && s.notIssued (localOf q.addr) k.len then s.answer p q k 0xA [] id
    else if s.memBusy (localOf q.addr) then s.hold (some id) (k.instr q) (localOf q.addr) entry else s.serveLocal q k id entry
  else if s.fab.node = none then s.answer p q k 6 [] id
  else if s.heldAhead p q.addr then s.holdRoute id (k.instr q) entry
  else
    let r := match k with
      | .rd _ | .hint => s.cacheRead p q k id entry
      | _ => s.sendRequest p q k id entry
    r.getD (s.holdRoute id (k.instr q) entry)

/-- A request at its entry hub: window first, then form, fixed regions, and the way to memory (08: R238, R254). -/
def State.request (s : State) (q : UnitReq) (k : Ask) : State :=
  let id := s.newReqId
  let s := id.2
  let p := plinthOf (q.src / 128)
  if !s.windowOk q.partition q.addr k.len k.need then
    (s.violation p q.partition q.addr k.need).answer p q k 1 [] id.1
  else if !k.ok q.addr then s.answer p q k 7 [] id.1
  else if k.need != accRead && s.inFixed q.addr k.len then s.answer p q k 8 [] id.1
  else s.routeRequest q k id.1 (s.entryOf (s.tagOfPart q.partition))

/-- A MIRROR_WR applied at a package in STANDBY and acknowledged (08: R273). -/
def State.applyMirror (s : State) (q : FabReq) (payload : List Byte) : State :=
  match wrPayload q.addr payload with
  | none => s
  | some (data, mask) =>
    let s := s.ctlWrite (localOf q.addr / 256 * 256) data mask
    s.sendPkt (homePlinth (localOf q.addr))
      { ftype := 7, tc := 2, twin := true, srcNode := s.ownNode, dstNode := q.srcNode, hallTag := q.hallTag
        srcUnit := q.srcUnit, reqId := q.reqId }

/-! ### At the home of another package's request (08: R239, R243, R254, R271) -/

/-- The status that keeps a fabric request from being served, if one does. -/
def State.homeStop (s : State) (q : FabReq) (n need : Nat) (ok : Bool) : Option Nat :=
  if !s.isReady then some 5
  else if s.fab.twin == .standby && !q.twin then some 0xA
  else if !s.exportOk (s.partOfTag q.hallTag) q.addr n need then some 1
  else if !ok then some 7
  else if s.relaying (homePlinth (localOf q.addr)) then some 5
  else if need != accRead && s.inFixed q.addr n then some 8
  else none

/-- A refused fabric request, answered; a window violation is counted at the home plinth. -/
def State.homeRefuse (s : State) (q : FabReq) (need status : Nat) : State :=
  let h := homePlinth (localOf q.addr)
  let s := if status = 1 then s.violation h ((s.partOfTag q.hallTag).getD 0xFF) q.addr need else s
  s.reply h q.srcNode q.hallTag q.srcUnit q.reqId status []

/-- The first completion that waits for a unit under a tag, taken over its links; none where there is none, or a link cannot carry it yet. -/
def State.takeDone (s : State) (unit tag status : Nat) (data : List Byte) : Option State :=
  let same := fun (q : HubPkt) => q.typ = 6 && q.dst = unit && q.tag = tag && q.specific = status && q.payload == data
  s.takeSent same

/-- A packet taken from those delivered to their home hub, where it is one of them. -/
def State.takeArrived (s : State) (same : FabPkt → Bool) : State :=
  match s.fab.arrived.find? same with
  | none => s
  | some p => { s with fab := { s.fab with arrived := s.fab.arrived.erase p } }

end Sys2Proof.Machine
end

