-- ==== Sys2Proof/Machine/CollOps.lean ====
section
/-!
DEFINITION. The collective engine's exchanges: members and their coordinates, the parts that members hold, what a phase of each kind sends and
combines, and the sending of it (08: R266 to R269; 02: R51).

A collective's data are cut into parts. Which member holds which part before and after a phase follows from the operation and the kinds of the phases;
which packets carry a part is the model's own (assumption 59). The order in which contributions combine is not fixed (02: R51), so several combine along a
tree of free choices (assumption 8).
-/
namespace Sys2Proof.Machine

open Sys2Proof

/-! ### Members (08: R267) -/

/-- Members along a dimension, and how far apart in index neighbours along it are. -/
def Coll.dim (c : Coll) (d : Nat) : Nat := max 1 (c.dims.getD d 1)
def Coll.stride (c : Coll) (d : Nat) : Nat := ((List.range d).map c.dim).foldl (· * ·) 1

/-- The coordinate of a member along a dimension, and the member on its line at another coordinate. -/
def Coll.coord (c : Coll) (m d : Nat) : Nat := m / c.stride d % c.dim d
def Coll.mate (c : Coll) (m d j : Nat) : Nat := m - c.coord m d * c.stride d + j * c.stride d

/-! ### Elements (08: R258, R266, R269) -/

/-- Bytes of an element type, and whether it is an integer (04: R122 gives the codes). -/
def collElem (dtype : Nat) : Option (Nat × Bool) :=
  match dtype with
  | 0 => some (4, false) | 1 => some (8, false) | 2 => some (2, false) | 6 => some (4, true) | 7 => some (8, true)
  | _ => none

/-- Does the operation reduce? -/
def collReduces (op : Nat) : Bool := op == 3 || op == 4 || op == 5

/-- Minimum or maximum of codes of a floating format, as 08: R258 orders them. -/
def collMinMax (f : Fmt) (w : Nat) (max : Bool) (a b : Nat) : Nat :=
  if f.isNan a then (if f.isNan b then ((Fmt.encode f false .nan).1) else b)
  else if f.isNan b then a
  else
    let va := f.decode a
    let vb := f.decode b
    let less := if va.isZero && vb.isZero then bit (w - 1) a && !bit (w - 1) b else Fp.lt va vb
    if less == max then b else a

/-- Two values combined: BF16 is held as FP32 until the end (08: R269). -/
def collCombine (dtype redop a b : Nat) : Nat :=
  let int := fun (w : Nat) =>
    match redop with
    | 0 => addMod w a b
    | 1 => iMinMax w false a b
    | 2 => iMinMax w true a b
    | 3 => Nat.land a b
    | 4 => Nat.lor a b
    | _ => Nat.xor a b
  let flt := fun (f : Fmt) (w : Nat) =>
    match redop with
    | 0 => (fAdd f a b).1
    | 1 => collMinMax f w false a b
    | _ => collMinMax f w true a b
  match dtype with
  | 1 => flt .fp64 64
  | 6 => int 32
  | 7 => int 64
  | _ => flt .fp32 32

/-- Values combined along a tree of free choices; the first number bounds the steps. -/
def combineFree (f : Nat → Nat → Nat) (seed : Nat) : Nat → List Nat → Nat
  | 0, vs => vs.headD 0
  | k + 1, vs =>
    let i := Config.freeNat seed (2 * k) % max 1 vs.length
    let rest := vs.eraseIdx i
    if rest.isEmpty then vs.headD 0
    else
      let j := Config.freeNat seed (2 * k + 1) % rest.length
      combineFree f seed k (f (vs.getD i 0) (rest.getD j 0) :: rest.eraseIdx j)

/-- Values of one type combined, several of them along a tree of free choices, element by element of `w` bytes. -/
def combineParts (dtype redop w seed : Nat) (ps : List (List Byte)) : List Byte :=
  (List.range ((ps.headD []).length / w)).flatMap (fun e =>
    leBytes w (combineFree (collCombine dtype redop) (seed + e) ps.length (ps.map (fun p => field p (w * e) w))))

/-- BF16 elements as FP32, and FP32 elements rounded to BF16 (08: R269). -/
def widenBf16 (bs : List Byte) : List Byte := (List.range (bs.length / 2)).flatMap (fun i => leBytes 2 0 ++ slice bs (2 * i) 2)
def roundBf16 (bs : List Byte) : List Byte :=
  (List.range (bs.length / 4)).flatMap (fun i => leBytes 2 (Fmt.encode .bf16 false (Fmt.decode .fp32 (field bs (4 * i) 4))).1)

/-! ### Parts -/

/-- Does the collective carry BF16 contributions as FP32? -/
def Coll.widens (c : Coll) : Bool := collReduces c.op && c.dtype == 2

/-- The parts of a collective: one for each member a part is meant for or comes from, one for each pair of them in ALL_TO_ALL, and BROADCAST's single one. -/
def Coll.keys (c : Coll) (n : Nat) : List Nat :=
  match c.op with
  | 2 => [0]
  | 7 => List.range (n * n)
  | _ => List.range n

/-- The member a part is meant for, and the member it comes from. -/
def Coll.target (c : Coll) (n key : Nat) : Nat := if c.op = 7 then key % n else key
def Coll.origin (c : Coll) (n key : Nat) : Nat := if c.op = 7 then key / n else key

/-- Where the part for a member begins in SRC: whole blocks, as evenly as they go. -/
def Coll.partAt (c : Coll) (n t : Nat) : Nat := 256 * (c.count / 256 * t / n)

/-- Bytes of a part as it is exchanged. -/
def Coll.keyLen (c : Coll) (n key : Nat) : Nat :=
  match c.op with
  | 1 => 0
  | 2 | 6 => c.count
  | _ => (c.partAt n (c.target n key + 1) - c.partAt n (c.target n key)) * (if c.widens then 2 else 1)

/-- The parts a member holds of its own SRC. -/
def Coll.ownItems (c : Coll) (n me : Nat) (src : List Byte) : Tbl (List Byte) :=
  let part := fun (t : Nat) => slice src (c.partAt n t) (c.partAt n (t + 1) - c.partAt n t)
  match c.op with
  | 1 => (List.range n).map (fun t => (t, []))
  | 2 => if me = c.rootOf n then [(0, src)] else []
  | 6 => [(me, src)]
  | 7 => (List.range n).map (fun t => (me * n + t, part t))
  | _ => (List.range n).map (fun t => (t, if c.widens then widenBf16 (part t) else part t))

/-- The parts that make this member's DST, in order. -/
def Coll.outKeys (c : Coll) (n me : Nat) : List Nat :=
  match c.op with
  | 1 => []
  | 2 => [0]
  | 3 => if me = c.rootOf n then List.range n else []
  | 5 => [me]
  | 7 => (List.range n).map (fun j => j * n + me)
  | _ => List.range n

/-- This member's DST once the last phase is over. -/
def Coll.result (c : Coll) (n me : Nat) : List Byte :=
  let bs := (c.outKeys n me).flatMap (fun k => Tbl.getD c.items k [])
  if c.widens then roundBf16 bs else bs

/-! ### Phases (08: R268) -/

/-- KIND of the last of the first `k` phases that runs along a dimension. -/
def Coll.lastKind (c : Coll) (k d : Nat) : Option Nat := (((c.phases.take k).filter (fun p => p.2.1 == d)).getLast?).map (fun p => p.1)

/-- Does a member hold a part once the first `k` phases are over? -/
def Coll.holds (c : Coll) (n k m key : Nat) : Bool :=
  (List.range 3).all (fun d =>
    let like := fun (x : Nat) => c.coord m d == c.coord x d
    match c.lastKind k d with
    | none => match c.op with
      | 2 => like (c.rootOf n)
      | 6 | 7 => like (c.origin n key)
      | _ => true
    | some 1 => like (c.target n key)
    | some 3 => like (c.rootOf n)
    | some 5 => c.op == 1 || like (c.target n key)
    | some _ => true)

/-- The phase under way: KIND, DIM and SWITCH_CFG. -/
def Coll.now (c : Coll) : Option (Nat × Nat × Nat) := if c.phase = 0 then none else c.phases[c.phase - 1]?

/-- Exchanges of the phase under way: a ring takes one for each other member of the line. -/
def Coll.steps (c : Coll) : Nat :=
  match c.now with
  | none => 0
  | some (kind, d, _) => if kind = 1 ∨ kind = 2 then c.dim d - 1 else min 1 (c.dim d - 1)

/-- The other members of the line along which the phase runs. -/
def Coll.mates (c : Coll) (me : Nat) : List Nat :=
  match c.now with
  | none => []
  | some (_, d, _) => ((List.range (c.dim d)).map (c.mate me d)).filter (fun m => m ≠ me)

/-- The parts that one member sends another in the exchange under way. -/
def Coll.message (c : Coll) (n a b : Nat) : List Nat :=
  match c.now with
  | none => []
  | some (kind, d, _) =>
    let size := c.dim d
    let ca := c.coord a d
    let cb := c.coord b d
    let root := c.coord (c.rootOf n) d
    let held := fun (m key : Nat) => c.holds n (c.phase - 1) m key
    let next := cb == (ca + 1) % size
    (c.keys n).filter (fun key =>
      match kind with
      | 1 => next && held a key && c.coord (c.target n key) d == (ca + size - 1 - c.step) % size
      | 2 => next && held (c.mate a d ((ca + size - c.step) % size)) key
      | 3 => ca != root && cb == root && held a key
      | 4 => ca == root && held a key
      | _ => held a key && (c.op == 1 || c.coord (c.target n key) d == cb))

/-- Members to whom this one sends in the exchange under way, and those it hears from. -/
def Coll.outgoing (c : Coll) (n me : Nat) : List Nat := (c.mates me).filter (fun b => !(c.message n me b).isEmpty)
def Coll.incoming (c : Coll) (n me : Nat) : List Nat := (c.mates me).filter (fun a => !(c.message n a me).isEmpty)

/-- Packets of at most 2,048 bytes that carry some parts (08: R241): at least one. -/
def Coll.packets (c : Coll) (n : Nat) (keys : List Nat) : Nat := max 1 (((keys.map (c.keyLen n)).sum + 2047) / 2048)

/-- Bytes cut into parts of given lengths. -/
def splitParts (len : Nat → Nat) : List Nat → List Byte → List (Nat × List Byte)
  | [], _ => []
  | k :: ks, bs => (k, bs.take (len k)) :: splitParts len ks (bs.drop (len k))

/-- The parts of one member's message that has come. -/
def Coll.cameFrom (c : Coll) (n me a : Nat) : List (Nat × List Byte) :=
  let ks := c.message n a me
  splitParts (c.keyLen n) ks ((Tbl.getD c.inq a []).take (c.packets n ks)).flatten

/-- Is the exchange over: every message sent, and every one awaited here? -/
def Coll.exchanged (c : Coll) (n me : Nat) : Bool :=
  (c.outgoing n me).all (fun b => c.sent.contains b) &&
    (c.incoming n me).all (fun a => decide (c.packets n (c.message n a me) ≤ (Tbl.getD c.inq a []).length))

/-- What came is combined with what is held, or joins it; the next exchange follows. -/
def Coll.taken (c : Coll) (n me seed : Nat) : Coll :=
  let came := (c.incoming n me).flatMap (c.cameFrom n me)
  let reduces := (c.now.map (fun p => p.1 == 1 || p.1 == 3)).getD false
  let w := if c.widens then 4 else ((collElem c.dtype).map (·.1)).getD 4
  { c with
    items := (c.keys n).filterMap (fun key =>
      let own := (Tbl.get? c.items key).toList
      let ps := (came.filter (fun x => x.1 == key)).map (fun x => x.2)
      if ps.isEmpty then own.head?.map (fun b => (key, b))
      else some (key, if reduces then combineParts c.dtype c.redop w (seed + c.partAt n (c.target n key)) (own ++ ps) else ps.headD []))
    inq := (c.incoming n me).foldl (fun t a => Tbl.adjust t a (fun q => q.drop (c.packets n (c.message n a me)))) c.inq
    step := c.step + 1, sent := [] }

/-- The phase under way is over: what the member no longer holds goes, and the next phase begins. -/
def Coll.nextPhase (c : Coll) (n me : Nat) : Coll :=
  { c with items := c.items.filter (fun x => c.holds n c.phase me x.1), phase := c.phase + 1, step := 0, sent := [] }

/-! ### The engine's sending (08: R268, R269) -/

def State.coll? (s : State) (id : Nat) : Option Coll := s.fab.colls.find? (fun c => c.id == id)
def State.putColl (s : State) (c : Coll) : State :=
  { s with fab := { s.fab with colls := s.fab.colls.map (fun x => if x.id = c.id then c else x) } }

/-- The unit of the collective engine (07: R594). -/
def collUnit : Nat := unitId 12 3

/-- The route to a neighbour: by the tables, or in a phase with a switch configuration by the port that this gives, once the beacon has re-pointed and the
port is up (10: R338). -/
def State.collWay (s : State) (c : Coll) (node key : Nat) : Option Nat :=
  let cfg := (c.now.map (fun p => p.2.2)).getD 0xFF
  if cfg = 0xFF then s.chooseRoute 0 node key
  else
    let h := Config.collPort cfg node % 128
    let e := s.beacon (h / 16)
    if s.portUp (h / 16) (h % 16) && e.config == cfg && e.repointTo.isNone then some (h + 2 ^ 60) else none

/-- The own message to a member, sent where its way is open. -/
def State.sendMessage (s : State) (id n me b : Nat) : State :=
  match s.coll? id with
  | none => s
  | some c =>
    let ks := c.message n me b
    let data := ks.flatMap (fun k => Tbl.getD c.items k [])
    let pkt : FabPkt :=
      { ftype := 8, tc := 5, srcNode := s.ownNode, dstNode := (s.collNodes c).getD b 0, hallTag := c.hallTag, srcUnit := collUnit
        reqId := c.id % 2 ^ 32 }
    match s.collWay c pkt.dstNode pkt.key with
    | none => s
    | some w =>
      ((List.range (c.packets n ks)).foldl (fun acc i =>
        acc.sendUnit { route := w, pkt := { pkt with addr := 2048 * i, payload := slice data (2048 * i) 2048 } }) s).putColl
          { c with sent := c.sent ++ [b] }

/-- A collective driven on: what it can send goes out, and each exchange that is over is taken; the first number bounds the exchanges. -/
def State.driveColl (id : Nat) : Nat → State → State
  | 0, s => s
  | k + 1, s =>
    match s.coll? id with
    | none => s
    | some c =>
      let n := (s.collNodes c).length
      let me := s.collMe c
      if c.steps ≤ c.step then s
      else
        let s := ((c.outgoing n me).filter (fun b => !c.sent.contains b)).foldl (fun acc b => acc.sendMessage id n me b) s
        match s.coll? id with
        | none => s
        | some c =>
          if c.exchanged n me then State.driveColl id k (({ s with free := s.free + c.count + 1 } : State).putColl (c.taken n me s.free))
          else s

/-- The same, through all the exchanges of its phase. -/
def State.drive (s : State) (id : Nat) : State := State.driveColl id (((s.coll? id).map (·.steps)).getD 0) s

/-- Every collective driven on. -/
def State.driveColls (s : State) : State := s.fab.colls.foldl (fun acc c => acc.drive c.id) s

end Sys2Proof.Machine
end

