-- ==== Sys2Proof/Machine/Home.lean ====
section
/-!
DEFINITION. Requests of other packages at their home, and the requests that wait in a controller or for a route, tried again (06: R176, R177, R189,
R190, R194; 08: R239, R241 to R243, R257, R272, R273).
-/
namespace Sys2Proof.Machine

open Sys2Proof

/-- The request a mirrored change of another package's store or atomic completes. -/
def mirroredReq (q : FabReq) (kind : ReqKind) (len : Nat) (data : List Byte) : OutReq :=
  { plinth := homePlinth (localOf q.addr), unit := q.srcUnit, tag := 0, reqId := q.reqId, partition := 0, hallTag := q.hallTag
    kind := kind, addr := q.addr, len := len, fromNode := some q.srcNode, data := data }

/-- The home's answer to another package's request. -/
def State.replyTo (s : State) (q : FabReq) (status : Nat) (data : List Byte) : State :=
  s.reply (homePlinth (localOf q.addr)) q.srcNode q.hallTag q.srcUnit q.reqId status data

/-! ### Checked requests in service -/

def State.serveRd (s : State) (q : FabReq) : State :=
  let r := s.ctlRead (localOf q.addr) (q.arg + 1)
  r.2.2.replyTo q r.1 r.2.1

/-- The masked words, or the few bytes of one word; mirrored where R272 asks. -/
def State.serveWr (s : State) (q : FabReq) (payload : List Byte) : State :=
  match wrPayload q.addr payload with
  | none => s
  | some (data, mask) =>
    let l := localOf q.addr / 256 * 256
    let s := s.ctlWrite l data mask
    if s.mirrors l 256 then s.mirrorOut (localOf q.addr) (field payload 0 4) (payload.length == 8) (mirroredReq q .wr 0 []) else s.replyTo q 0 []

def State.serveAtomic (s : State) (q : FabReq) (payload : List Byte) : State :=
  let n := (atomicSize q.arg).getD 1
  let l := localOf q.addr
  let r := s.atomicAt l q.arg payload
  if r.1 == 0 && r.2.2.mirrors l n then r.2.2.mirrorOut l (maskOf l n) (inHalf l n) (mirroredReq q .atomic n r.2.1)
  else r.2.2.replyTo q r.1 (if r.1 = 0 then r.2.1 else List.replicate n 0)

def State.serveHint (s : State) (q : FabReq) : State := (s.ctlRead (localOf q.addr / 256 * 256) 256).2.2

/-- A checked request of another package at its block's controller: it waits while the block is kept busy, under an identifier of the home's own. -/
def State.serveOrHold (s : State) (q : FabReq) (c : Instr) (serve : State → State) : State :=
  if s.memBusy (localOf q.addr) then
    let id := s.newReqId
    id.2.hold (some id.1) c (localOf q.addr) 0
  else serve s

/-! ### Arrival -/

/-- RD: its bytes (08: R239, R241). -/
def State.homeRead (s : State) (q : FabReq) : State :=
  match s.homeStop q (q.arg + 1) accRead (decide (q.addr % 256 + (q.arg + 1) ≤ 256)) with
  | some st => s.homeRefuse q accRead st
  | none => s.serveOrHold q (.rd q) (fun s => s.serveRd q)

/-- WR: the block under its mask (08: R242). -/
def State.homeWrite (s : State) (q : FabReq) (payload : List Byte) : State :=
  match s.homeStop { q with addr := q.addr / 256 * 256 } 256 accWrite (wrPayload q.addr payload).isSome with
  | some st => s.homeRefuse q accWrite st
  | none => s.serveOrHold q (.wr q payload) (fun s => s.serveWr q payload)

/-- ATOMIC (08: R257). -/
def State.homeAtomic (s : State) (q : FabReq) (payload : List Byte) : State :=
  match s.homeStop q ((atomicSize q.arg).getD 1) accAtomic (atomicOk q.addr q.arg payload) with
  | some st => s.homeRefuse q accAtomic st
  | none => s.serveOrHold q (.fabricAtomic q payload) (fun s => s.serveAtomic q payload)

/-- HINT, served without a completion (08: R241, R243). -/
def State.homeHint (s : State) (q : FabReq) : State :=
  match s.homeStop q 1 accRead true with
  | some 1 => s.violation (homePlinth (localOf q.addr)) ((s.partOfTag q.hallTag).getD 0xFF) q.addr accRead
  | some _ => s
  | none => s.serveOrHold q (.fabricHint q) (fun s => s.serveHint q)

/-- MIRROR_WR at a package in STANDBY (06: R194; 08: R273). -/
def State.homeMirror (s : State) (q : FabReq) (payload : List Byte) : State :=
  s.serveOrHold q (.mirrorWr q payload) (fun s => s.applyMirror q payload)

/-! ### Mirrored copies (08: R274; 11: R369) -/

/-- A block that a resync's channel reads, sent to the twin; its bytes enter the channel's CRC in the order of the span. -/
def State.serveCopy (s : State) (q : UnitReq) (k : Nat) : State :=
  let u := q.src
  let l := localOf q.addr
  let r := s.ctlRead l 256
  let s := r.2.2
  if r.1 != 0 then s.complete (hubUnit (homePlinth l)) q.partition u q.tag r.1 []
  else
    let s := s.onChan k (fun c =>
      match c.stores.find? (fun x => x.tag = q.tag) with
      | some x => { (c.takeIn x.off r.2.1) with ready := c.ready }
      | none => c)
    s.mirrorOut l 0xFFFFFFFF false
      { plinth := k / 64, unit := u, tag := q.tag, reqId := 0, partition := q.partition, hallTag := s.tagOfPart q.partition, kind := .mirror
        addr := q.addr, len := 256 }

/-- The same while the block is kept busy. -/
def State.holdCopy (s : State) (q : UnitReq) (k : Nat) : State :=
  { s with relayWait := s.relayWait ++ [{ id := none, cmd := .memRd q 255, block := some (localOf q.addr / 256), copyOf := some k }] }

/-! ### Waiting requests -/

/-- A request that waited in a controller and passed its checks before: UNAVAILABLE once the plinth re-lays, if it is another package's. -/
def State.resumeHome (s : State) (h : HeldReq) (q : FabReq) (serve : State → State) : State :=
  let l := localOf q.addr
  if s.relaying (homePlinth l) then (if h.cmd matches .fabricHint _ then s else s.replyTo q 5 [])
  else if s.memBusy l then { s with relayWait := s.relayWait ++ [h] }
  else serve s

/-- One waiting request tried again. -/
def State.resume (s : State) (h : HeldReq) : State :=
  let id := h.id.getD 0
  let again : State := { s with relayWait := s.relayWait ++ [h] }
  match h.cmd with
  | .memRd q n => if let some k := h.copyOf then (if s.memBusy (localOf q.addr) then again else s.serveCopy q k) else s.routeRequest q (.rd (n + 1)) id h.entry
  | .memWr q d => s.routeRequest q (if d.length < 4 then .part d else .wr d) id h.entry
  | .atomicRequest q op p => s.routeRequest q (.atomic op p) id h.entry
  | .hint q => s.routeRequest q .hint id h.entry
  | .rd q => s.resumeHome h q (fun s => s.serveRd q)
  | .wr q p => s.resumeHome h q (fun s => s.serveWr q p)
  | .fabricAtomic q p => s.resumeHome h q (fun s => s.serveAtomic q p)
  | .fabricHint q => s.resumeHome h q (fun s => s.serveHint q)
  | .mirrorWr q p => if s.memBusy (localOf q.addr) then again else s.applyMirror q p
  | .hbmRead r e1 e2 n => if s.busyAt r.addr r.bank then again else s.serveRead r e1 e2 n
  | .hbmStore r d e1 e2 => if s.busyAt r.addr r.bank then again else s.serveStore r d e1 e2
  | _ => s

/-- Every waiting request tried again, oldest first: those to one block keep their order (06: R177). -/
def State.retryHeld (s : State) : State := s.relayWait.foldl State.resume { s with relayWait := [] }

end Sys2Proof.Machine
end

