-- ==== Sys2Proof/Machine/Port.lean ====
section
/-!
DEFINITION. The host port: Ethernet frames and flow control, Helm frames, sessions, mailboxes' two ends, bulk streams and the sideband
(12: R375 to R396; 16: R495; 17: R503, R521).
-/
namespace Sys2Proof.Machine

open Sys2Proof

/-! ### Changes of the port -/

def State.setEth (s : State) (f : EthPort → EthPort) : State := { s with helm := { s.helm with eth := f s.helm.eth } }
def State.setSessions (s : State) (l : List Session) : State := { s with helm := { s.helm with sessions := l } }
def State.session? (s : State) (id : Nat) : Option Session := s.helm.sessions.find? (fun x => x.id == id)
def State.putSession (s : State) (x : Session) : State :=
  s.setSessions (s.helm.sessions.map (fun y => if y.id = x.id then x else y))
def Session.key (x : Session) : Nat := 8 * x.partition + x.mailbox

/-- Does Exsar take Helm frames: past step 5, no failover under way, and still running (14: R440; 16: R490, R495)? -/
def State.helmOn (s : State) : Bool :=
  s.pins.aux && s.pins.mainRails && s.pins.resetN && decide (6 ≤ s.boot.phase) && !s.boot.gap && !s.boot.exsarGone

/-- May the port send a frame of a priority? -/
def State.portSends (s : State) (prio : Nat) : Bool := s.helm.eth.up && !s.helm.eth.xoffRecv.contains prio

/-- A frame sent at HELM_PCP (12: R377): on the wire, or waiting for XON; without a link it is lost. -/
def State.sendFrame (s : State) (f : TxFrame) : State :=
  let prio := s.nor.hostCfg.helmPcp
  if !s.helmOn || !s.helm.eth.up then s
  else if s.portSends prio then { s with helm := { s.helm with tx := s.helm.tx ++ [f] } }
  else s.setEth (fun e => { e with txWait := e.txWait ++ [(prio, f)] })

/-- A host address and UDP port as one number. -/
def destOf (addr port : Nat) : Nat := addr * 2 ^ 16 + port

/-- FLAGS and ACKSEQ of a frame of a session: valid once a frame has been accepted (12: R378, R384). -/
def Session.ackSeq (x : Session) : Nat := subMod 32 x.expect 1

/-- An ACK frame; it carries everything accepted so far. -/
def State.sendAck (s : State) (x : Session) : State :=
  (s.putSession { x with ackOwed := 0 }).sendFrame
    { session := x.id, kind := 4, seq := x.txNext, ackSeq := x.ackSeq, flags := 2, body := [], dest := destOf x.hostAddr x.hostPort }

/-! ### Authentication (12: R378, R380) -/

/-- Header and body of a frame as they stand under the MAC. -/
def helmBytes (f : HelmFrame) (kind : Nat) : List Byte :=
  leBytes 2 f.magic ++ leBytes 1 f.version ++ leBytes 1 kind ++ leBytes 4 f.session ++ leBytes 4 f.seq ++ leBytes 4 f.ackSeq ++
    leBytes 2 f.body.length ++ leBytes 1 f.flags ++ leBytes 5 0 ++ f.body

/-- The first 16 bytes of HMAC-SM3 under a key. -/
def helmMacOk (f : HelmFrame) (kind key : Nat) : Bool :=
  f.mac == (Config.hmacSm3 (leBytes 16 key) (helmBytes f kind)).take 16

/-- Fields common to every frame. -/
def helmHeadOk (f : HelmFrame) : Bool := f.magic == 0x4D48 && f.version == 1 && decide (f.body.length ≤ 9128)

/-- AUTH_DROPS (12: R380). -/
def State.authDrop (s : State) : State :=
  let n := s.helm.eth.authDrops
  (s.setEth (fun e => { e with authDrops := satAdd 32 n 1 })).satCheck exsarUnit 0 n (satAdd 32 n 1)

/-- A frame longer than the MAC takes, counted in OVERSIZE_DROPS. -/
def State.oversizeDrop (s : State) : State :=
  let n := s.helm.eth.oversizeDrops
  (s.setEth (fun e => { e with oversizeDrops := satAdd 32 n 1 })).satCheck exsarUnit 1 n (satAdd 32 n 1)

/-- A BULK frame that found its RXQ full, counted in RXQ_FULL_DROPS. -/
def State.rxqDrop (s : State) : State :=
  let n := s.helm.eth.rxqFullDrops
  (s.setEth (fun e => { e with rxqFullDrops := satAdd 32 n 1 })).satCheck exsarUnit 2 n (satAdd 32 n 1)

/-- The session of an authenticated frame. -/
def State.authentic (s : State) (f : HelmFrame) (kind : Nat) : Option Session :=
  match s.session? f.session with
  | none => none
  | some x => if helmHeadOk f && helmMacOk f kind x.kHD then some x else none

/-! ### Outbound entries (12: R383, R384, R387) -/

/-- Entries whose whole response is acknowledged leave their queue. -/
def dropDone : List OutEntry → List OutEntry → List OutEntry
  | held, [] => held
  | held, e :: es =>
    if e.more then dropDone (held ++ [e]) es
    else if (held ++ [e]).all (·.done) then dropDone [] es
    else held ++ [e] ++ dropDone [] es

/-- Number `a` equals or precedes `b` (12: R383). -/
def seqUpTo (a b : Nat) : Bool := a == b || serialNewer 32 b a

/-- Entries acknowledged by ACKSEQ. -/
def Mailbox.acked (m : Mailbox) (ack : Nat) : Mailbox :=
  { m with out := dropDone [] (m.out.map (fun e => if e.sent && seqUpTo e.seq ack then { e with done := true } else e)) }

/-- Frames sent and not acknowledged. -/
def Mailbox.unacked (m : Mailbox) : List OutEntry := m.out.filter (fun e => e.sent && !e.done)

/-- ACKSEQ of any frame of the host: it counts where it names a frame that is sent and unacknowledged (12: R378, R384). -/
def State.takeAck (s : State) (x : Session) (f : HelmFrame) : State :=
  let m := s.mbox x.key
  if bit 1 f.flags && m.unacked.any (fun e => e.seq == f.ackSeq) then
    (s.setMbox x.key (m.acked f.ackSeq)).putSession { x with rto := s.nor.hostCfg.rto }
  else s

/-- What every authenticated frame does: the host's address and its acknowledgement are taken (12: R376, R384). -/
def State.takeFrame (s : State) (x : Session) (f : HelmFrame) : State :=
  let x := { x with hostAddr := f.srcAddr, hostPort := f.srcPort }
  (s.putSession x).takeAck x f

/-- A mailbox's undelivered entries, to be numbered afresh (12: R382, R385, R396). -/
def Mailbox.renumbered (m : Mailbox) : Mailbox :=
  { m with out := m.out.map (fun e => { e with sent := false, done := false, seq := 0 }) }

/-! ### Sessions -/

/-- The open service level returns to 0, posting LOCK (17: R521); in failure stop it stays until a reset (17: R522). -/
def State.lockLevel (s : State) : State :=
  if s.sec.level = 0 ∨ s.boot.dev = .failureStop then s
  else ({ s with sec := { s.sec with level := 0, levelSession := none, levelRef := 0 } }).post 0x005A exsarUnit []

/-- A session closes: its mailbox keeps what is undelivered, drops what has not started, and a level it opened closes (12: R385; 17: R521). A
reason is sent where the device closes. -/
def State.closeSession (s : State) (x : Session) (reason : Option Nat) : State :=
  let s := match reason with
    | some r => s.sendFrame { session := x.id, kind := 9, seq := x.txNext, ackSeq := x.ackSeq, flags := 2
                              body := leBytes 1 r ++ leBytes 3 0, dest := destOf x.hostAddr x.hostPort }
    | none => s
  let s := s.setSessions (s.helm.sessions.filter (fun y => y.id ≠ x.id))
  let s := s.setMbox x.key { (s.mbox x.key).renumbered with queue := [] }
  let s := if s.sec.levelSession = some x.id then s.lockLevel else s
  { s with sec := { s.sec with challenge := if (s.sec.challenge.map (·.2.2.1)) = some x.id then none else s.sec.challenge } }

/-- A sequence-consuming frame accepted; the sixteenth since the last acknowledgement is acknowledged at once (12: R384). -/
def State.accepted (s : State) (id : Nat) : State :=
  match s.session? id with
  | none => s
  | some x =>
    let x := { x with expect := addMod 32 x.expect 1, ackOwed := x.ackOwed + 1 }
    if 16 ≤ x.ackOwed then (s.putSession x).sendAck x else s.putSession x

/-! ### The Ethernet port (12: R375 to R377) -/

/-- Bytes a priority holds. -/
def EthPort.bytesHeld (e : EthPort) (prio : Nat) : Nat := (Tbl.getD e.held prio []).sum

/-- XOFF at 75 percent of 256 KiB, XON below 50 percent. -/
def EthPort.flow (e : EthPort) (prio : Nat) : EthPort :=
  let n := e.bytesHeld prio
  if 196608 ≤ n then (if e.xoffSent.contains prio then e else { e with xoffSent := e.xoffSent ++ [prio] })
  else if n < 131072 then { e with xoffSent := e.xoffSent.filter (fun p => p ≠ prio) }
  else e

/-- A held frame handed on: the oldest of the expected priority, or of the lowest that holds one. -/
def State.unhold (s : State) (prio : Nat) : State :=
  s.setEth (fun e =>
    match (prio :: List.range 8).find? (fun p => !(Tbl.getD e.held p []).isEmpty) with
    | none => e
    | some p => EthPort.flow { e with held := Tbl.upd e.held p [] (fun l => l.drop 1) } p)

/-- ETH_FRAME_RX: longer frames are counted and dropped, frames of other VLANs and datagrams that are not for Helm are dropped; a Helm frame
waits in its priority's buffer. -/
def execEthFrameRx (f : EthFrame) (s : State) : Out :=
  let prio := match f.vlan with
    | some _ => f.pcp % 8
    | none => 0
  let c := s.nor.hostCfg
  let vlanOk := match f.vlan with
    | some v => c.vlan == 0 || v == c.vlan
    | none => true
  .next (if !s.helm.eth.up then s
  else if 9216 < f.length then s.oversizeDrop
  else if vlanOk && f.udpPort == some c.udpPort && !f.fragment && f.checksumOk &&
      decide (s.helm.eth.bytesHeld prio + f.length ≤ 262144) then
    s.setEth (fun e => EthPort.flow { e with held := Tbl.upd e.held prio [] (fun l => l ++ [f.length]) } prio)
  else s)

/-- PFC_XOFF (12: R377). -/
def execPfcXoff (prio : Nat) (s : State) : Out :=
  .next (s.setEth (fun e => if e.xoffRecv.contains prio then e else { e with xoffRecv := e.xoffRecv ++ [prio] }))

/-- PFC_XON (12: R377): the priority's frames that waited go out in order. -/
def execPfcXon (prio : Nat) (s : State) : Out :=
  let go := (s.helm.eth.txWait.filter (fun w => w.1 = prio)).map (fun w => w.2)
  .next { s with helm := { s.helm with
    tx := s.helm.tx ++ go
    eth := { s.helm.eth with
      xoffRecv := s.helm.eth.xoffRecv.filter (fun p => p ≠ prio), txWait := s.helm.eth.txWait.filter (fun w => w.1 ≠ prio) } } }

/-- The link-local address formed from the MAC address: fe80::/64 and the modified EUI-64 (12: R376). -/
def linkLocal : Nat :=
  let m := Config.macAddress % 2 ^ 48
  let hi := Nat.xor (m / 2 ^ 24) 0x020000
  0xFE80 * 2 ^ 112 + hi * 2 ^ 40 + 0xFFFE * 2 ^ 24 + m % 2 ^ 24

/-- NEIGHBOUR_DISCOVERY, for an address the port holds. -/
def execNeighbourDiscovery (target : Nat) (s : State) : Out :=
  .next (if s.helm.eth.up && (target == linkLocal || (s.nor.hostCfg.ipv6 != 0 && target == s.nor.hostCfg.ipv6)) then
    s.setEth (fun e => { e with replies := e.replies ++ [.neighbour target] }) else s)

/-- ICMP_ECHO: the link-local IPv6 address always answers, IPv4 where one is configured. -/
def execIcmpEcho (v6 : Bool) (payload : List Byte) (s : State) : Out :=
  .next (if s.helm.eth.up && (v6 || s.nor.hostCfg.ipv4 != 0) then
    s.setEth (fun e => { e with replies := e.replies ++ [.echo v6 payload] }) else s)

/-- ARP_REQUEST for the configured IPv4 address. -/
def execArpRequest (target : Nat) (s : State) : Out :=
  .next (if s.helm.eth.up && s.nor.hostCfg.ipv4 != 0 && target == s.nor.hostCfg.ipv4 then
    s.setEth (fun e => { e with replies := e.replies ++ [.arp target] }) else s)

/-- ETHERNET_LINK_LOSS: sessions, mailboxes and everything behind the port run on (12: R396). -/
def execEthernetLinkLoss (s : State) : Out :=
  .next (s.setEth (fun e => { e with up := false, held := [], xoffSent := [], xoffRecv := [], txWait := [] }))

/-- ETHERNET_LINK_UP (14: R440). -/
def execEthernetLinkUp (s : State) : Out := .next (s.setEth (fun e => { e with up := s.pins.aux && s.pins.mainRails && s.pins.resetN }))

/-! ### Opening (12: R381, R382; 17: R503, R505, R506) -/

/-- REJECT of an OPEN_1. -/
def State.reject (s : State) (f : HelmFrame) (reason : Nat) : State :=
  s.sendFrame { session := 0, kind := 0xA, seq := 0, ackSeq := 0, flags := 0
                body := f.body.take 4 ++ leBytes 1 reason ++ leBytes 3 0, dest := destOf f.srcAddr f.srcPort }

/-- Does a partition exist? PT0 always does (04: R116). -/
def State.partExists (s : State) (pt : Nat) : Bool := pt == 0 || Tbl.has s.parts pt

/-- OPEN_1. The exchange gives R_B, S_B, S_A, K_HD and K_DH in that order (assumption 5). A part in RETURNED opens no session. -/
def execOpen1 (f : HelmFrame) (rand : Nat) (s : State) : Out :=
  if !s.helmOn then .next s
  else
    let s := s.unhold s.nor.hostCfg.helmPcp
    let pt := field f.body 4 1
    let mb := field f.body 5 1
    let slot := field f.body 6 1
    .next (if !helmHeadOk f || f.session != 0 || f.mac != List.replicate 16 0 then s.authDrop
    else if f.body.length < 72 || 8 ≤ mb || s.nor.fuses.lifecycle == 2 then s
    else if !s.partExists pt then s.reject f 2
    else
      match if slot < 4 then Tbl.get? s.nor.keys (4 * pt + slot) else none with
      | none => s.reject f 1
      | some key =>
        if 16 ≤ s.helm.halfOpen.length then s.reject f 3
        else
          let x := Config.exchange key (slice f.body 8 64) rand pt slot mb
          let id := s.helm.nextSession
          let h : HalfOpen :=
            { id := id, hostTag := field f.body 0 4, partition := pt, mailbox := mb, keySlot := slot
              kHD := field x 128 16, kDH := field x 144 16, sA := slice x 96 32 }
          let s := { s with helm := { s.helm with
            halfOpen := s.helm.halfOpen ++ [h], nextSession := if id + 1 < 2 ^ 32 then id + 1 else 1 } }
          s.sendFrame { session := id, kind := 7, seq := 0, ackSeq := 0, flags := 0
                        body := f.body.take 4 ++ slice x 0 96, dest := destOf f.srcAddr f.srcPort })

/-- OPEN_3: an authenticated frame with the right S_A opens the session; another session on its mailbox is taken over. -/
def execOpen3 (f : HelmFrame) (s : State) : Out :=
  if !s.helmOn then .next s
  else
    let s := s.unhold s.nor.hostCfg.helmPcp
    .next (match s.helm.halfOpen.find? (fun h => h.id == f.session) with
    | none => s.authDrop
    | some h =>
      if !helmHeadOk f || !helmMacOk f 8 h.kHD then s.authDrop
      else if f.body.take 32 != h.sA then
        s.authDrop.post 0x0058 exsarUnit (leBytes 1 h.partition ++ leBytes 1 h.mailbox ++ leBytes 16 f.srcAddr)
      else
        let s := { s with helm := { s.helm with halfOpen := s.helm.halfOpen.filter (fun y => y.id ≠ h.id) } }
        let s := match s.helm.sessions.find? (fun y => y.key == 8 * h.partition + h.mailbox) with
          | some old => s.closeSession old (some 2)
          | none => s
        let x : Session :=
          { id := h.id, partition := h.partition, mailbox := h.mailbox, keySlot := h.keySlot, kHD := h.kHD, kDH := h.kDH
            hostAddr := f.srcAddr, hostPort := f.srcPort, rto := s.nor.hostCfg.rto }
        (s.setSessions (s.helm.sessions ++ [x])).sendAck x)

/-- HALF_OPEN_EXPIRY (12: R381). -/
def execHalfOpenExpiry (session : Nat) (s : State) : Out :=
  .next { s with helm := { s.helm with halfOpen := s.helm.halfOpen.filter (fun h => h.id ≠ session) } }

/-! ### Commands no row names (12: R386; 13: R398, R399) -/

/-- Codes answered before READY and in a failure stop (13: R399; 16: R495). -/
def earlyCodes : List Nat := [0x0001, 0x0002, 0x0003, 0x0004, 0x0006, 0x0060]

/-- Every assigned CODE (13). -/
def knownCodes : List Nat :=
  [0x0001, 0x0002, 0x0003, 0x0004, 0x0005, 0x0006, 0x0007, 0x0008, 0x0009,
   0x0010, 0x0011, 0x0012, 0x0013, 0x0014, 0x0015, 0x0016, 0x0017, 0x0018, 0x0019,
   0x0020, 0x0021, 0x0022, 0x0023, 0x0024, 0x0028, 0x0029, 0x002A,
   0x0030, 0x0031, 0x0032, 0x0033, 0x0034, 0x0035, 0x0036,
   0x0040, 0x0041, 0x0042, 0x0043, 0x0044, 0x0045, 0x0046, 0x0047, 0x0048, 0x0049, 0x004A,
   0x0050, 0x0051, 0x0052, 0x0053, 0x0054, 0x0055, 0x0056, 0x0057,
   0x0060, 0x0061, 0x0062, 0x0063, 0x0064, 0x0065, 0x0070, 0x0071, 0x0072]

/-- Commands at the head of a queue whose CODE is reserved or unassigned are answered UNKNOWN_COMMAND, or NOT_READY before READY. -/
def answerUnknown (mb : Nat) : List QueuedCmd → State → State
  | [], s => s.setMbox mb { s.mbox mb with queue := [] }
  | c :: cs, s =>
    let code := field c.body 0 2
    if knownCodes.contains code then s.setMbox mb { s.mbox mb with queue := c :: cs }
    else answerUnknown mb cs (s.respond (mb, c.seq) code (if s.isReady then 7 else 0xE) [])

/-- A mailbox with nothing running answers the unknown commands it has reached. -/
def State.skipUnknown (s : State) (mb : Nat) : State :=
  if (s.mbox mb).running = none then answerUnknown mb (s.mbox mb).queue s else s

/-- The answer of a command queued, and the mailbox's next unknown commands answered. A command that a changeover has answered FAILOVER gets no
second answer (12: R396). -/
def State.answerCmd (s : State) (w : Waiter) (code status : Nat) (payload : List Byte) : State :=
  if (s.mbox w.1).running = some w.2 then (s.respond w code status payload).skipUnknown w.1 else s

/-! ### Frames of a session -/

/-- COMMAND: the next expected frame is queued while the mailbox holds fewer than 32; an earlier one is answered with the current ACKSEQ; a
later one, or one that finds 32 queued, is dropped (12: R383, R386, R396). -/
def execCommand (f : HelmFrame) (s : State) : Out :=
  if !s.helmOn then .next s
  else
    let s := s.unhold s.nor.hostCfg.helmPcp
    .next (match s.authentic f 1 with
    | none => s.authDrop
    | some x =>
      let s := s.takeFrame x f
      if f.seq = x.expect then
        let m := s.mbox x.key
        if 32 ≤ m.queue.length then s
        else ((s.setMbox x.key { m with queue := m.queue ++ [{ seq := f.seq, body := f.body }] }).accepted x.id).skipUnknown x.key
      else if serialNewer 32 x.expect f.seq then
        match s.session? x.id with
        | some y => s.sendAck y
        | none => s
      else s)

/-- ACK (12: R384). -/
def execAck (f : HelmFrame) (s : State) : Out :=
  if !s.helmOn then .next s
  else
    let s := s.unhold s.nor.hostCfg.helmPcp
    .next (match s.authentic f 4 with
    | none => s.authDrop
    | some x => s.takeFrame x f)

/-- Bytes a receive queue holds. -/
def BulkStream.held (b : BulkStream) : Nat := (b.rxq.map List.length).sum

/-- May DATA of a BULK frame have this length (12: R390)? -/
def bulkLenOk (n : Nat) (last : Bool) : Bool := decide (1 ≤ n) && decide (n ≤ 8192) && (last || (decide (64 ≤ n) && n % 64 == 0))

/-- BULK: accepted with the right OFFSET and room in RXQ (12: R390 to R392). Bytes owed to a failed descriptor, and all bytes after the chain's
END, are acknowledged and discarded, the latter with one BULK_OVERRUN. -/
def execBulk (f : HelmFrame) (s : State) : Out :=
  if !s.helmOn then .next s
  else
    let s := s.unhold s.nor.hostCfg.bulkPcp
    .next (match s.authentic f 5 with
    | none => s.authDrop
    | some x =>
      let s := s.takeFrame x f
      let n := field f.body 0 1
      let data := f.body.drop 12
      if f.seq = x.expect then
        match Tbl.get? s.helm.bulk n with
        | none => s
        | some b =>
          if b.mailbox ≠ x.key ∨ field f.body 4 8 ≠ b.offset ∨ bulkLenOk data.length (bit 0 (field f.body 1 1)) = false then s
          else if 524288 < b.held + data.length then
            s.rxqDrop
          else
            let gone := if b.atEnd then data.length else min b.discard data.length
            let keep := data.drop gone
            let post := b.atEnd && !b.overrun
            let b' : BulkStream := { b with
              offset := addMod 64 b.offset data.length
              rxq := if keep.isEmpty then b.rxq else b.rxq ++ [keep]
              discard := if b.atEnd then b.discard else b.discard - gone
              overrun := b.overrun || b.atEnd }
            let s := { s with helm := { s.helm with bulk := Tbl.set s.helm.bulk n b' } }
            let s := if post then s.postFor x.partition 0x0013 exsarUnit (leBytes 1 n ++ leBytes 8 b'.offset) else s
            s.accepted x.id
      else if serialNewer 32 x.expect f.seq then
        match s.session? x.id with
        | some y => s.sendAck y
        | none => s
      else s)

/-- CLOSE from the host (12: R385). -/
def execClose (f : HelmFrame) (s : State) : Out :=
  if !s.helmOn then .next s
  else
    let s := s.unhold s.nor.hostCfg.helmPcp
    .next (match s.authentic f 9 with
    | none => s.authDrop
    | some x => (s.takeFrame x f).closeSession x none)

/-! ### Sending -/

/-- The first entry not yet sent, marked with a sequence number. -/
def markSent (seq : Nat) : List OutEntry → Option (OutEntry × List OutEntry)
  | [] => none
  | e :: es =>
    if e.sent then (markSent seq es).map (fun r => (r.1, e :: r.2))
    else some ({ e with sent := true, seq := seq }, { e with sent := true, seq := seq } :: es)

/-- KIND of an entry's frame (12: R379). -/
def OutEntry.frameKind (e : OutEntry) : Nat := if e.kind = .response then 2 else 3

/-- The frame that carries an entry of a session. -/
def Session.frameOf (x : Session) (e : OutEntry) : TxFrame :=
  { session := x.id, kind := e.frameKind, seq := e.seq, ackSeq := x.ackSeq, flags := b2n e.more + (if x.expect = 0 then 0 else 2)
    body := e.body, dest := destOf x.hostAddr x.hostPort }

/-- A message of SB's outbound queue goes out over I3C (12: R394); the last of a response lets SB take its next command. -/
def State.sendSideband (s : State) : State :=
  let m := s.mbox sbKey
  match m.out with
  | [] => s
  | e :: es =>
    let s := s.setMbox sbKey { m with out := es }
    { s with helm := { s.helm with sb := { s.helm.sb with
        sent := s.helm.sb.sent ++ [e.body]
        busy := if e.kind = .response ∧ e.more = false then false else s.helm.sb.busy
        ibi := !es.isEmpty && s.helm.sb.ibi } } }

/-- HELM_FRAME_SEND (12: R383): the next entry of the session's mailbox goes out while fewer than 64 frames are unacknowledged. Session 0
stands for the sideband, whose messages need none. -/
def execHelmFrameSend (session : Nat) (s : State) : Out :=
  .next (if !s.helmOn then s
  else if session = 0 then s.sendSideband
  else
    match s.session? session with
    | none => s
    | some x =>
      let m := s.mbox x.key
      if 64 ≤ m.unacked.length || !s.portSends s.nor.hostCfg.helmPcp then s
      else
        match markSent x.txNext m.out with
        | none => s
        | some (e, out) =>
          let s := s.setMbox x.key { m with out := out }
          (s.putSession { x with txNext := addMod 32 x.txNext 1, ackOwed := 0 }).sendFrame (x.frameOf e))

/-- HELM_RETRANSMIT_TIMEOUT (12: R384): every unacknowledged frame again, from the oldest, and the timer doubled up to 64 ms. -/
def execHelmRetransmitTimeout (session : Nat) (s : State) : Out :=
  .next (match s.session? session with
  | none => s
  | some x =>
    let es := (s.mbox x.key).unacked
    if es.isEmpty || !s.helmOn then s
    else
      let s := s.putSession { x with rto := max x.rto (min (2 * x.rto) 64000), ackOwed := 0 }
      es.foldl (fun acc e => acc.sendFrame (x.frameOf e)) s)

/-- HELM_ACK_DELAY_EXPIRY (12: R384). -/
def execHelmAckDelayExpiry (session : Nat) (s : State) : Out :=
  .next (match s.session? session with
  | none => s
  | some x => if x.ackOwed = 0 || !s.helmOn then s else s.sendAck x)

/-- HELM_KEEPALIVE_ACK (12: R384). -/
def execHelmKeepaliveAck (session : Nat) (s : State) : Out :=
  .next (match s.session? session with
  | none => s
  | some x => if s.helmOn then s.sendAck x else s)

/-- HELM_SESSION_TIMEOUT (12: R384, R385). -/
def execHelmSessionTimeout (session : Nat) (s : State) : Out :=
  .next (match s.session? session with
  | none => s
  | some x => if s.helmOn then s.closeSession x (some 1) else s)

/-! ### Sideband (12: R394, R395) -/

/-- The commands SB accepts. -/
def sidebandCodes : List Nat := [0x0001, 0x0002, 0x0003, 0x0004, 0x0006, 0x0007, 0x0008, 0x0009]

/-- SIDEBAND_MESSAGE: one command at a time; BUSY until the last message of the running one's response is out, INVALID off the list. -/
def execSidebandMessage (body : List Byte) (s : State) : Out :=
  let code := field body 0 2
  let sb := s.helm.sb
  .next (if !s.helmOn then s
  else if sb.busy then
    { s with helm := { s.helm with sb := { sb with
      sent := sb.sent ++ [leBytes 2 code ++ leBytes 1 2 ++ leBytes 1 0 ++ leBytes 4 sb.cmdSeq] } } }
  else if !sidebandCodes.contains code then
    { s with helm := { s.helm with sb := { sb with
      sent := sb.sent ++ [leBytes 2 code ++ leBytes 1 1 ++ leBytes 1 0 ++ leBytes 4 sb.cmdSeq ++ leBytes 4 0] } } }
  else
    let n := addMod 32 sb.cmdSeq 1
    let m := s.mbox sbKey
    let s := { s with helm := { s.helm with sb := { sb with cmdSeq := n, busy := true } } }
    s.setMbox sbKey { m with queue := m.queue ++ [{ seq := n, body := body }] })

end Sys2Proof.Machine
end

