-- ==== Sys2Proof/Machine/HelmBase.lean ====
section
/-!
DEFINITION. What every Helm command shares: how it starts from its mailbox, the checks every command passes, statuses, and its answer
(12: R386, R395; 13: R397 to R402).
-/
namespace Sys2Proof.Machine

open Sys2Proof

/-! ### Answers -/

/-- How a command ends for now: a status with its payload, or still running (a Long command keeps its mailbox and number). -/
inductive Ans where
  | done (status : Nat) (payload : List Byte) (s : State)
  | runs (s : State)

/-- OK without payload. -/
def okAns (s : State) : Ans := .done 0 [] s
/-- INVALID with the offset of the first failing field, in the payload (13: R398). -/
def badAns (off : Nat) (s : State) : Ans := .done 1 (leBytes 4 off) s
/-- A status without payload. -/
def errAns (status : Nat) (s : State) : Ans := .done status [] s

/-! ### Starting (12: R386) -/

/-- The mailbox with the command taken up: it is the head of the queue, and nothing runs. No command enters but by a COMMAND frame that a session
authenticates or by a sideband message (00: R3; 12: R383, R395), so the row of one that does not wait there does nothing (assumption 7). -/
def Mailbox.starts (m : Mailbox) (seq : Nat) (body : List Byte) : Option Mailbox :=
  match m.running, m.queue with
  | none, c :: cs => if c.seq = seq ∧ c.body = body then some { m with running := some seq, runCode := field body 0 2, queue := cs } else none
  | _, _ => none

/-- Offset of the first field that a payload of `len` bytes does not hold whole, or of the bytes beyond the last field. -/
def shortAt : List Nat → Nat → Nat → Option Nat
  | [], off, len => if len = off then none else some off
  | n :: ns, off, len => if off + n ≤ len then shortAt ns (off + n) len else some off

/-- One command run whole: the checks of R399, R395 and R401 (scope PT0), the shape of its payload where `sizes` gives it, then its own
meaning. -/
def State.helmRun (s : State) (code : Nat) (pt0 : Bool) (sizes : Option (List Nat)) (w : Waiter) (payload : List Byte)
    (run : Waiter → List Byte → State → Ans) : State :=
  let early := earlyCodes.contains code
  if !s.isReady && !early then s.answerCmd w code 0xE []
  else if w.1 == sbKey && !sidebandCodes.contains code then s.answerCmd w code 1 (leBytes 4 0)
  else if pt0 && mbPartition w.1 != 0 then s.answerCmd w code 6 []
  else
    match (sizes.bind (fun ns => shortAt ns 0 payload.length)) with
    | some off => s.answerCmd w code 1 (leBytes 4 off)
    | none =>
      match run w payload s with
      | .done status out t => t.answerCmd w code status out
      | .runs t => t

/-- A Helm command taken from its mailbox (12: R386; 13: R397, R402). -/
def State.runHelm (s : State) (code : Nat) (pt0 : Bool) (sizes : Option (List Nat)) (mb seq : Nat) (body : List Byte)
    (run : Waiter → List Byte → State → Ans) : Out :=
  if !s.helmOn || !s.partExists (mbPartition mb) then .next s
  else
    match (s.mbox mb).starts seq body with
    | none => .next s
    | some m => .next ((s.setMbox mb m).helmRun code pt0 sizes (mb, seq) (body.drop 4) run)

/-- A command whose rows differ by a field of its payload at an offset: this row runs it where the field holds the row's value, answers
INVALID where it holds none of the values `0` to `most`, and leaves it to the other rows otherwise. -/
def State.runMode (s : State) (code : Nat) (pt0 : Bool) (sizes : Option (List Nat)) (off mode most mb seq : Nat) (body : List Byte)
    (run : Waiter → List Byte → State → Ans) : Out :=
  let m := field (body.drop 4) off 1
  if body.length < 5 + off ∨ m = mode then s.runHelm code pt0 sizes mb seq body run
  else if most < m then s.runHelm code pt0 sizes mb seq body (fun _ _ t => badAns off t)
  else .next s

/-- The partition a command acts for. -/
def ptOf (w : Waiter) : Nat := mbPartition w.1

/-- May this mailbox name this partition (13: R401)? -/
def mayName (w : Waiter) (target : Nat) : Bool := ptOf w == 0 || ptOf w == target

end Sys2Proof.Machine
end

