-- ==== Sys2Proof/Machine/Validate.lean ====
section
/-!
DEFINITION. Validation of an armature before it binds a stage (04: R118 to R134, R595; 02: R45; 03: R70, R86, R87, R592; 01: R24).
Each check is a reason of 04: R130, the offset of the field it looks at, and whether the field passes; reasons are taken in code
order, and within one reason entries in table order (assumption 20).
-/
namespace Sys2Proof.Machine

open Sys2Proof

/-- One check: reason, offset, passed. -/
abbrev Check := Nat × Nat × Bool

/-- The first check that fails. -/
def firstBad (cs : List Check) : Option (Nat × Nat) := (cs.find? (fun c => !c.2.2)).map (fun c => (c.1, c.2.1))

/-- The failing check of the lowest field, the lower reason where two fail there. -/
def lowestBad (cs : List Check) : Option (Nat × Nat) :=
  (cs.filter (fun c => !c.2.2)).foldl (fun best c => match best with
    | none => some (c.1, c.2.1)
    | some b => if c.2.1 < b.2 || (c.2.1 == b.2 && decide (c.1 < b.1)) then some (c.1, c.2.1) else some b) none

/-- Every byte of a run is zero, one check a byte. -/
def zeroRun (reason : Nat) (bs : List Byte) (base lo n : Nat) : List Check :=
  (List.range n).map (fun i => (reason, base + lo + i, field bs (lo + i) 1 == 0))

/-- Store size of a stage entry. -/
def entStore (e : List Byte) : Nat := lsSize (stTypeOf e)

/-- Bytes that elements of a format take (02: R40). -/
def fmtBytes (f : Fmt) (n : Nat) : Nat := (n * f.width + 7) / 8

/-! ### FORMAT (0x01) and TABLE (0x02) -/

def checkHeader (a : List Byte) : List Check :=
  let total := field a 8 4
  [(1, 0, field a 0 4 == 0x314D5241), (1, 4, field a 4 2 == 1), (1, 6, field a 6 2 == 64),
   (1, 8, total % 16 == 0 && decide (64 ≤ total) && decide (total ≤ 262144) && total == a.length),
   (1, 0xC, field a 0xC 4 == crc32c (a.take 12 ++ [0, 0, 0, 0] ++ a.drop 16)),
   (1, 0x1D, decide (armRunAhead a ≤ 3)), (1, 0x1F, decide (field a 0x1F 1 < 4)), (1, 0x3D, field a 0x3D 1 == 0),
   (1, 0x3E, decide (field a 0x3E 2 ≤ 2000))]

/-- End of the code section, relative to its start. -/
def codeSize (a : List Byte) : Nat :=
  (List.range (armNStage a)).foldl (fun m i =>
    let e := stageEnt a i
    if stTypeOf e = 1 ∧ 1 ≤ vNInstr e ∧ vNInstr e ≤ 64 then max m (vCodeOff e + 16 * vNInstr e) else m) 0

/-- The tables: place of the offset field, offset, size. -/
def armTables (a : List Byte) : List (Nat × Nat × Nat) :=
  [(0x20, field a 0x20 4, 64 * armNStage a), (0x24, field a 0x24 4, 8 * armNStream a), (0x28, field a 0x28 4, 16 * armNRegion a),
   (0x2C, field a 0x2C 4, 32 * armNLoad a), (0x30, field a 0x30 4, 32 * armNSource a), (0x34, field a 0x34 4, codeSize a)]

def overlaps (t u : Nat × Nat × Nat) : Bool :=
  t.2.2 != 0 && u.2.2 != 0 && decide (t.2.1 < u.2.1 + u.2.2) && decide (u.2.1 < t.2.1 + t.2.2)

def checkTables (a : List Byte) : List Check :=
  let n := armNStage a
  [(2, 0x18, decide (1 ≤ n) && decide (n ≤ 64)), (2, 0x1A, decide (armNRegion a ≤ 16)),
   (2, 0x1C, decide (1 ≤ armNSource a) && decide (armNSource a ≤ 8))] ++
    (armTables a).map (fun t =>
      (2, t.1, t.2.1 % 16 == 0 && decide (64 ≤ t.2.1) && decide (t.2.1 + t.2.2 ≤ field a 8 4) &&
        (armTables a).all (fun u => u.1 == t.1 || decide (t.1 < u.1) || !overlaps t u))) ++
    (List.range (armNStream a)).flatMap (fun i =>
      [(2, offStream a i, decide (strSrc a i < n)), (2, offStream a i + 2, decide (strDst a i < n))]) ++
    (List.range (armNLoad a)).map (fun i => (2, offLoad a i, decide (ldStage a i < n))) ++
    (List.range (armNSource a)).map (fun i => (2, offSource a i, decide (srcStage a i < n)))

/-! ### Heads and STAGE_UNAVAILABLE (0x03) -/

/-- Stages of a type on a die (01: R20; 07: R594). -/
def typeCount : Nat → Nat
  | 0 => 6
  | 1 => 16
  | _ => 4

/-- Does an entry name a stage that exists? -/
def headOk (e : List Byte) : Bool :=
  decide (field e 0 1 ≤ 11) && decide (stTypeOf e ≤ 3) && decide (field e 2 1 < typeCount (stTypeOf e))

/-- May the partition bind the stage now (04: R130; 16: R479)? -/
def State.bindable (s : State) (pt k : Nat) : Bool :=
  bit k (((Tbl.get? s.parts pt).map (·.stageSet)).getD 0) && (s.stage k).st == .free && (s.die (stDie k)).life == .up

def checkAvail (s : State) (pt : Nat) (dieMap : List Nat) (a : List Byte) : List Check :=
  (3, 0x1F, !armStrict a || dieMap == List.range 12) ::
    (List.range (armNStage a)).map (fun i =>
      let e := stageEnt a i
      let k := entStage dieMap e
      (3, offStage a i, !headOk e ||
        (s.bindable pt k && (List.range i).all (fun j => !(headOk (stageEnt a j) && entStage dieMap (stageEnt a j) == k)))))

/-! ### OPERATION (0x04) -/

/-- Formats that B, or A, may have in the transposed layout (03: R87). -/
def plainFmt (f : Fmt) : Bool := f == .int8 || f == .int4 || f == .bf16 || f == .fp16 || f == .fp32

def checkM (e : List Byte) (o : Nat) : List Check :=
  let a := mFmtA e
  let b := mFmtB e
  let sp := mSparse e
  let sl := mSlice e
  let int := a == .int8 || a == .int4
  let out := field e 0xA 1
  let al := fun (off : Nat) (used : Bool) => ((4, o + off, !used || field e off 4 % 64 == 0) : Check)
  [(4, o + 4, decide (stFlags e < 2048) && mC0 e != 3 && !(mBFromIn1 e && mC0 e == 2) &&
      (!sp || b.isMx || b == .int8 || b == .bf16) && (!mBKn e || (plainFmt b && !sp && !mBFromIn1 e)) &&
      (!mAKm e || (plainFmt a && bit 3 (stFlags e))) &&
      (!sl || (!sp && !mBKn e && !mAKm e && !mBFromIn1 e && mC0 e == 0 && !mSatFinite e)) && !(mC0 e == 1 && mDrainLs e && mDrainT e)),
   (4, o + 8, (fmtOf (field e 8 1)).isSome && (!sl || a == .int8)),
   (4, o + 9, (fmtOf (field e 9 1)).isSome && pairOk a b && (!sl || b == .int8)),
   (4, o + 0xA, (if int || sl then out == 6 else out == 0 || out == 2 || out == 3) &&
      !(mC0 e == 1 && mDrainLs e && out != 0 && out != 6)),
   (4, o + 0xC, decide (1 ≤ mRows e)),
   (4, o + 0x10, decide (1 ≤ mK e) && (!a.isMx || mK e % 32 == 0) && (!sp || mK e % 4 == 0)),
   (4, o + 0x14, decide (1 ≤ mN e)), al 0x18 (mAFromLs e), al 0x1C (!mBFromIn1 e), al 0x20 (!mBFromIn1 e && b.isMx),
   al 0x24 (!mBFromIn1 e && sp), al 0x28 (mAFromLs e && a.isMx), al 0x2C (mC0 e == 1 || mDrainLs e),
   (4, o + 0x30, decide (1 ≤ field e 0x30 2) && decide (field e 0x30 2 ≤ 512))] ++
    zeroRun 4 e o 0xB 1 ++ zeroRun 4 e o 0x32 14

/-- Operations of a V instruction (04: R123). -/
def vOpcodes : List Nat :=
  [0x01, 0x02, 0x03, 0x04, 0x05, 0x06, 0x07, 0x08, 0x09, 0x0A, 0x0B, 0x0C, 0x10, 0x11, 0x12, 0x13, 0x14, 0x15, 0x18, 0x19,
   0x1A, 0x1B, 0x20, 0x21, 0x22, 0x28, 0x30, 0x31, 0x38, 0x39, 0x3F]

/-- An operand's KIND, and its reserved bit. -/
def vOperandOk (i : List Byte) (off : Nat) (kinds : List Nat) : Bool :=
  !bit 10 (field i off 2) && kinds.contains (vKind i off)

/-- One V instruction at offset `o` (04: R123; 03: R92). -/
def checkInstr (i : List Byte) (o : Nat) : List Check :=
  let fi := fmtD (field i 1 1 % 16)
  let fo := fmtD (field i 1 1 / 16)
  let w := max fi.width fo.width
  let srcs := [0, 1, 2, 3, 4, 5, 8]
  let mx := fi.isMx || fo.isMx || vOpc i == 0x19
  [(4, o, vOpcodes.contains (vOpc i)),
   (4, o + 1, (fmtOf (field i 1 1 % 16)).isSome && (fmtOf (field i 1 1 / 16)).isSome && (vOpc i != 0x19 || fo.isMx) &&
      (vOpc i != 0x18 || !fo.isMx)),
   (4, o + 2, vOperandOk i 2 [0, 6, 7, 8]), (4, o + 4, vOperandOk i 4 srcs), (4, o + 6, vOperandOk i 6 srcs),
   (4, o + 8, vOperandOk i 8 srcs), (4, o + 0xA, vOperandOk i 0xA [0, 8]),
   (4, o + 0xC, decide (1 ≤ vLen i) && decide (vLen i ≤ 32768 / w) && (!mx || vLen i % 32 == 0)),
   (4, o + 0xE, decide (field i 0xE 1 < 64)), (4, o + 0xF, decide (field i 0xF 1 ≤ 12))]

def checkV (a e : List Byte) (o : Nat) : List Check :=
  [(4, o + 4, stFlags e == 0), (4, o + 8, vCodeOff e % 16 == 0), (4, o + 0xC, decide (1 ≤ vNInstr e) && decide (vNInstr e ≤ 64)),
   (4, o + 0xE, decide (field e 0xE 1 ≤ 4))] ++ zeroRun 4 e o 0xF 1 ++ zeroRun 4 e o 0x11 7 ++ zeroRun 4 e o 0x29 3 ++
    (if 64 < vNInstr e then []
    else (List.range (vNInstr e)).flatMap (fun j => checkInstr (vInstr a e j) (offCode a + vCodeOff e + 16 * j)))

def checkG (e : List Byte) (o : Nat) : List Check :=
  let op := stOpcode e
  let rl := field e 0xC 4
  [(4, o + 4, decide (stFlags e < 8) && (!gPairs e || op == 0x33) && (!gXLocal e || gPairs e) &&
      (!gArrival e || op != 0x34)),
   (4, o + 9, if op = 0x30 then true else if op = 0x33 then decide (field e 9 1 ≤ 1) else decide (field e 9 1 ≤ 4)),
   (4, o + 0xA, if op = 0x32 then [1, 2, 4, 8].contains (field e 0xA 1) else
      if op = 0x33 then decide (field e 0xA 1 ≤ 2) else true),
   (4, o + 0xB, op != 0x35 || (atomicSize (field e 0xB 1)).isSome),
   (4, o + 0xC, if op = 0x31 ∨ op = 0x34 then decide (4 ≤ rl) && decide (rl ≤ 65536) && rl % 4 == 0
      else if op = 0x30 then decide (rl ≤ 2048) && rl % 4 == 0 else true),
   (4, o + 0x28, (op != 0x30 || field e 0x28 8 % 4 == 0) && (!gXLocal e || field e 0x28 8 % 64 == 0))] ++
    zeroRun 4 e o 0x31 1 ++ zeroRun 4 e o 0x34 12

def checkS (e : List Byte) (o : Nat) : List Check :=
  let op := stOpcode e
  let fmt := fun (off : Nat) => field e off 1 == 0 || field e off 1 == 2 || field e off 1 == 3
  let k := field e 0x16 2
  let nseg := field e 0x18 4
  [(4, o + 4, decide (stFlags e < 2) && !(stFlags e == 1 && op == 0x4A)), (4, o + 8, fmt 8), (4, o + 9, fmt 9),
   (4, o + 0xA, decide (field e 0xA 1 ≤ 1)), (4, o + 0xB, op != 0x4A || (decide (2 ≤ field e 0xB 1) && decide (field e 0xB 1 ≤ 16))),
   (4, o + 0x14, !(op == 0x48 || op == 0x49) ||
      (decide (32 ≤ field e 0x14 2) && decide (field e 0x14 2 ≤ 4096) && field e 0x14 2 % 32 == 0)),
   (4, o + 0x16, !(op == 0x49 || op == 0x4A) || (decide (1 ≤ k) && decide (k ≤ 256))),
   (4, o + 0x18, op < 0x48 || (decide (1 ≤ nseg) && (op == 0x4A || decide (nseg ≤ 4096)) &&
      (op != 0x49 || decide (nseg * k ≤ 131072))))] ++
    zeroRun 4 e o 0x1C 4 ++ zeroRun 4 e o 0x28 24

/-- Opcodes of a type (04: R122). -/
def typeOps : Nat → List Nat
  | 0 => [0x10, 0x11]
  | 1 => [0x20]
  | 2 => [0x30, 0x31, 0x32, 0x33, 0x34, 0x35]
  | _ => [0x40, 0x41, 0x42, 0x43, 0x44, 0x45, 0x46, 0x48, 0x49, 0x4A]

def checkStage (a : List Byte) (i : Nat) : List Check :=
  let e := stageEnt a i
  let o := offStage a i
  [(4, o, decide (field e 0 1 ≤ 11)), (4, o + 1, decide (stTypeOf e ≤ 3)), (4, o + 2, decide (field e 2 1 < typeCount (stTypeOf e))),
   (4, o + 3, (typeOps (stTypeOf e)).contains (stOpcode e))] ++ zeroRun 4 e o 6 2 ++
    (match stTypeOf e with
    | 0 => checkM e o
    | 1 => checkV a e o
    | 2 => checkG e o
    | _ => checkS e o)

def checkLoadOp (a : List Byte) (i : Nat) : List Check :=
  let e := loadEnt a i
  let o := offLoad a i
  let v := stTypeOf (stageEnt a (ldStage a i)) == 1
  [(4, o + 1, decide (ldWhen a i ≤ 3)), (4, o + 2, decide (field e 2 1 ≤ 1)), (4, o + 4, v || ldLs a i % 64 == 0),
   (4, o + 8, ldLen a i % 64 == 0 && ldLen a i != 0)] ++ zeroRun 4 e o 0xC 4

def checkSourceOp (a : List Byte) (i : Nat) : List Check :=
  let e := sourceEnt a i
  let o := offSource a i
  let rb := srcRecBytes a i
  let w := portWidth ((inKind (stTypeOf (stageEnt a (srcStage a i))) (srcPort a i)).getD false)
  [(4, o + 8, decide (field e 8 2 ≤ 1024)),
   (4, o + 0xA, !srcFeed a i || (rb % 4 == 0 && rb != 0 && decide (rb ≤ w)))] ++ zeroRun 4 e o 0xE 2

/-! ### LOCAL_RANGE (0x05) -/

/-- Local ranges of an M-stage: place of the field, base, length (03: R87, R88, R592; 04: R122). -/
def mRanges (e : List Byte) : List (Nat × Nat × Nat) :=
  let a := mFmtA e
  let b := mFmtB e
  let planes := if mSlice e then 7 else 1
  let kept := if mSparse e then mK e / 2 else mK e
  let c := max (if mC0 e = 1 then 4 else 0) (if mDrainLs e then (mFmtOut e).width / 8 else 0)
  (if mAFromLs e then (0x18, field e 0x18 4, fmtBytes a (planes * mRows e * mK e)) ::
      (if a.isMx then [(0x28, field e 0x28 4, mRows e * (mK e / 32))] else []) else []) ++
    (if mBFromIn1 e then [] else (0x1C, field e 0x1C 4, fmtBytes b (planes * mN e * kept)) ::
      ((if b.isMx then [(0x20, field e 0x20 4, mN e * (mK e / 32))] else []) ++
        (if mSparse e then [(0x24, field e 0x24 4, mN e * ((mK e / 4 + 1) / 2))] else []))) ++
    (if c = 0 then [] else [(0x2C, field e 0x2C 4, mRows e * mN e * c)])

/-- Bytes of the two exponent arrays of a SLICE_ACC: two for each row and each column of the GEMM_SLICE stage that feeds it (03: R95). -/
def expBytes (a : List Byte) (i : Nat) : Nat :=
  (((List.range (armNStream a)).filter (fun q => strDst a q == i)).map (fun q =>
    let e := stageEnt a (strSrc a q)
    if stTypeOf e = 0 ∧ mSlice e then 2 * (mRows e + mN e) else 0)).foldl max 1

def checkLocal (a : List Byte) : List Check :=
  (List.range (armNStage a)).flatMap (fun i =>
    let e := stageEnt a i
    match stTypeOf e with
    | 0 => (mRanges e).map (fun r => ((5, offStage a i + r.1, decide (r.2.1 + r.2.2 ≤ entStore e)) : Check))
    | 1 => [(5, offStage a i + 0x2C, !vHas a e 0x39 || decide (field e 0x2C 4 + expBytes a i ≤ entStore e))]
    | 2 => [(5, offStage a i + 0x28, !gXLocal e || decide (field e 0x28 8 < 2 ^ 22))]
    | _ => []) ++
  (List.range (armNLoad a)).map (fun i =>
    let e := stageEnt a (ldStage a i)
    let n := ldLen a i * (if ldPing a i then 2 else 1)
    let top := if stTypeOf e = 2 then 2 ^ 22 else entStore e
    (5, offLoad a i + 4, decide (ldLs a i + n ≤ top)))

/-! ### STREAM (0x06) and BUFFER (0x07) -/

/-- One round of marking: a stage all of whose feeding stages are marked is marked. -/
def markRound (a : List Byte) (marked : List Nat) : List Nat :=
  (List.range (armNStage a)).filter (fun x =>
    (List.range (armNStream a)).all (fun i => strDst a i != x || marked.contains (strSrc a i)))

/-- Stages marked after so many rounds; without a cycle every stage is marked after NSTAGE rounds. -/
def markRounds (a : List Byte) : Nat → List Nat
  | 0 => []
  | n + 1 => markRound a (markRounds a n)

def checkStream (a : List Byte) (dieMap : List Nat) (i : Nat) : List Check :=
  let o := offStream a i
  let es := stageEnt a (strSrc a i)
  let ed := stageEnt a (strDst a i)
  let same := dieMap.getD (field es 0 1) 0 == dieMap.getD (field ed 0 1) 0
  let d := strDepth a i
  [(6, o + 1, (outKind (stTypeOf es) (strSrcPort a i)).isSome), (6, o + 3, (inKind (stTypeOf ed) (strDstPort a i)).isSome &&
      !(outKind (stTypeOf es) (strSrcPort a i) == some false && inKind (stTypeOf ed) (strDstPort a i) == some true)),
   (6, o + 4, d == 0 || (if same then d == 16 else decide (32 ≤ d) && decide (d ≤ 512) && d % 16 == 0)),
   (6, o + 6, decide (field (streamEnt a i) 6 1 ≤ 1)), (6, o + 7, field (streamEnt a i) 7 1 == 0)]

def checkSourcePort (a : List Byte) (i : Nat) : List Check :=
  let o := offSource a i
  let kind := field (sourceEnt a i) 2 1
  [(6, o + 2, decide (kind ≤ 1)),
   (6, o + 1, if kind = 1 then srcPort a i == 0xFF
      else (inKind (stTypeOf (stageEnt a (srcStage a i))) (srcPort a i)).isSome),
   (6, o, kind != 1 || ((connected a (srcStage a i)).isEmpty &&
      (List.range i).all (fun j => srcFeed a j || srcStage a j != srcStage a i)))]

def checkFeeding (a : List Byte) (i : Nat) : List Check :=
  let e := stageEnt a i
  let used := usedInputs a e
  let o := offStage a i + 3
  [(6, o, used.all (fun p => !(producers a i p).isEmpty)), (6, o, (connected a i).all used.contains),
   (6, o, [0, 1, 2].all (fun p => decide ((producers a i p).length ≤ 16))),
   (6, o, [0, 1].all (fun p => decide ((streamsFrom a i p).length ≤ 8))),
   (6, o, !(connected a i).isEmpty || (tokenOf a i).isSome)]

/-- Index slots a die's buffer would hold: a data slot counts four (04: R133, R595). -/
def bufferUse (a : List Byte) (dieMap : List Nat) (d : Nat) : Nat :=
  ((List.range (armNStream a)).map (fun i =>
    let d1 := dieMap.getD (field (stageEnt a (strSrc a i)) 0 1) 0
    let ed := stageEnt a (strDst a i)
    let d2 := dieMap.getD (field ed 0 1) 0
    if d2 = d ∧ d1 ≠ d2 then
      streamDepth a dieMap i * (if (inKind (stTypeOf ed) (strDstPort a i)).getD false then 1 else 4) else 0)).sum +
  ((List.range (armNSource a)).map (fun i =>
    if srcFeed a i ∧ dieMap.getD (field (stageEnt a (srcStage a i)) 0 1) 0 = d then 256 else 0)).sum

def checkBuffers (a : List Byte) (dieMap : List Nat) : List Check :=
  (List.range 12).map (fun d => (7, field a 0x24 4, decide (bufferUse a dieMap d ≤ 16384)))

/-! ### REGION (0x08) and REPEAT (0x0A) -/

/-- The region exists and declares the access. -/
def regHas (a : List Byte) (r need : Nat) : Bool := decide (r < armNRegion a) && Nat.land (regAccess a r) need == need

/-- Regions a V-stage entry writes. -/
def vWrites (a e : List Byte) : List Nat :=
  (vCode a e).flatMap (fun i => if vOpc i = 0x30 ∨ vOpc i = 0x31 then [(vStore e (vIFlag i 5)).1] else [])

/-- Regions the armature's V-stages write, through a swap too (04: R121). -/
def armWrites (a : List Byte) : List Nat :=
  let w := (List.range (armNStage a)).flatMap (fun i => if stTypeOf (stageEnt a i) = 1 then vWrites a (stageEnt a i) else [])
  w ++ (if w.contains (armSwapA a) then [armSwapB a] else []) ++ (if w.contains (armSwapB a) then [armSwapA a] else [])

def checkRegions (a : List Byte) : List Check :=
  (List.range (armNRegion a)).flatMap (fun r =>
    let o := offRegion a r
    [(8, o, decide (1 ≤ regLength a r) && decide (regLength a r < 2 ^ 56)),
     (8, o + 8, decide (regAccess a r < 16) && !(regRunAhead a r && (armWrites a).contains r)),
     (8, o + 9, decide (6 ≤ regAlign a r) && decide (regAlign a r ≤ 40))] ++ zeroRun 8 (regionEnt a r) o 0xA 6) ++
  (List.range (armNStage a)).flatMap (fun i =>
    let e := stageEnt a i
    let o := offStage a i
    match stTypeOf e with
    | 1 => [(8, o + 0x10, !(vCode a e).any (fun j => (vOpc j == 0x30 || vOpc j == 0x31) && !vIFlag j 5) || regHas a (field e 0x10 1) 2),
            (8, o + 0x28, !(vCode a e).any (fun j => (vOpc j == 0x30 || vOpc j == 0x31) && vIFlag j 5) || regHas a (field e 0x28 1) 2)]
    | 2 => [(8, o + 8, regHas a (field e 8 1) (if stOpcode e = 0x35 then 4 else 1)),
            (8, o + 0x30, !(gPairs e && !gXLocal e) || regHas a (field e 0x30 1) 1)]
    | _ => []) ++
  (List.range (armNLoad a)).map (fun i => (8, offLoad a i + 3, regHas a (ldRegion a i) 1)) ++
  (List.range (armNSource a)).map (fun i => (8, offSource a i + 3, !srcFeed a i || regHas a (srcRegion a i) 1))

def checkRepeat (a : List Byte) : List Check :=
  let r := armRepeat a
  let e := stageEnt a (armControl a)
  let swap := fun (x y : Nat) => if x = 0xFF then y == 0xFF else r && regHas a x 3 && x != y
  [(0xA, 0x38, !r || armRepeatMax a != 0),
   (0xA, 0x3A, if r then decide (armControl a < armNStage a) && stTypeOf e == 1 && vHas a e 0x3F else armControl a == 0xFF),
   (0xA, 0x3B, swap (armSwapA a) (armSwapB a)), (0xA, 0x3C, swap (armSwapB a) (armSwapA a))]

/-! ### All of it -/

/-- Pipelines loaded in a partition. -/
def State.pipesOf (s : State) (pt : Nat) : List Nat := (s.pipes.filter (fun p => p.2.partition = pt)).map (·.1)

/-- Validation: the reason and the offset of the first field that fails: header and tables before what they place, then the lowest offset,
and the quotas last (04: R130; assumption 20). -/
def State.validate (s : State) (pt : Nat) (dieMap : List Nat) (a : List Byte) : Option (Nat × Nat) :=
  let each := fun (n : Nat) (f : Nat → List Check) => (List.range n).flatMap f
  match firstBad (checkHeader a) with
  | some b => some b
  | none =>
    match firstBad (checkTables a) with
    | some b => some b
    | none =>
      match lowestBad (checkAvail s pt dieMap a ++ each (armNStage a) (checkStage a) ++ each (armNLoad a) (checkLoadOp a) ++
        each (armNSource a) (checkSourceOp a) ++ checkLocal a ++ each (armNStream a) (checkStream a dieMap) ++
        each (armNSource a) (checkSourcePort a) ++ each (armNStage a) (checkFeeding a) ++
        [(6, field a 0x24 4, (markRounds a (armNStage a)).length == armNStage a)] ++ checkBuffers a dieMap ++ checkRegions a ++
        checkRepeat a) with
      | some b => some b
      | none => if s.pipes.length < 256 ∧ (s.pipesOf pt).length < ((Tbl.get? s.parts pt).map (·.maxPipelines)).getD 0 then none else some (9, 0)

end Sys2Proof.Machine
end

