-- ==== Sys2Proof/Machine/Pipe.lean ====
section
/-!
DEFINITION. Pipelines: where their stages, batches and invocations stand, completion records, the discard of an abort, streams with
credits and fan-in, and the end of a batch at a stage (03: R77 to R81, R112; 04: R133 to R137, R142; 05: R145 to R148, R171; 16: R481).
-/
namespace Sys2Proof.Machine

open Sys2Proof

/-! ### Places -/

/-- The home sequencer's unit (05: R149; 07: R594). -/
def Pipe.home (p : Pipe) : Nat := unitId (stDie (p.stg 0)) 32
def Pipe.headEpoch (p : Pipe) : Option Nat := p.batches.head?.map (·.epoch)
def Pipe.isHead (p : Pipe) (e : Nat) : Bool := p.headEpoch == some e
def Pipe.batch? (p : Pipe) (e : Nat) : Option Batch := p.batches.find? (fun b => b.epoch = e)
/-- The batch a stage works on: the oldest it has not finished. -/
def Pipe.cur (p : Pipe) (i : Nat) : Option Batch := p.batches.find? (fun b => !b.stagesDone.contains i)
def Pipe.inv? (p : Pipe) (q : Nat) : Option Inv := p.invs.find? (fun v => v.seq = q)
def Pipe.mapInv (p : Pipe) (q : Nat) (f : Inv → Inv) : Pipe := { p with invs := p.invs.map (fun v => if v.seq = q then f v else v) }
def Pipe.mapBatch (p : Pipe) (e : Nat) (f : Batch → Batch) : Pipe :=
  { p with batches := p.batches.map (fun b => if b.epoch = e then f b else b) }
def Pipe.str (p : Pipe) (k : Nat) : StreamSt := Tbl.getD p.streams k {}
def Pipe.setStr (p : Pipe) (k : Nat) (x : StreamSt) : Pipe := { p with streams := Tbl.set p.streams k x }
def Pipe.src (p : Pipe) (i : Nat) : SrcState := Tbl.getD p.sources i {}
def Pipe.setSrc (p : Pipe) (i : Nat) (x : SrcState) : Pipe := { p with sources := Tbl.set p.sources i x }

/-- The pipeline changed in place. -/
def State.onPipe (s : State) (pl : Nat) (f : Pipe → Pipe) : State := { s with pipes := Tbl.adjust s.pipes pl f }

/-- A stage changed. -/
def State.onStage (s : State) (k : Nat) (f : Stage → Stage) : State := s.setStage k (f (s.stage k))

/-- Where a stage is bound. -/
def State.boundAt (s : State) (k : Nat) : Option (Nat × Nat × Pipe) :=
  match (s.stage k).bind with
  | none => none
  | some (pl, i) => (s.pipe? pl).map (fun p => (pl, i, p))

/-- Service address of a stage counter (21: R577): counters 0 to 13 are 64 bits wide, LS_CE_COUNT is 14. -/
def stageItem (k i : Nat) : Nat := svcAddr (stDie k) 1 (0x100 * stUnit k + 8 + 8 * i)

/-- A stage counter advanced (03: R114). -/
def State.bumpStage (s : State) (k i n : Nat) : State :=
  let x := s.stage k
  let s' := s.setStage k { x with counters := bumpTbl x.counters i (if i < 14 then 64 else 32) n }
  if i < 14 then s' else s'.satBump x.counters i n (stId k) (stageItem k i)

/-- A pipeline counter advanced (05: R172): 0 COMMITS, 1 to 5 of 32 bits, 6 to 11 of 64. -/
def State.bumpPipe (s : State) (pl i n : Nat) : State :=
  match s.pipe? pl with
  | none => s
  | some p =>
    let wide := i = 0 ∨ 6 ≤ i
    let s' := s.setPipe pl { p with counters := bumpTbl p.counters i (if wide then 64 else 32) n }
    if wide then s' else s'.satBump p.counters i n p.home (256 * pl + i)

/-- The gap closed: admission resumes, and its notices are gone (09: R296). -/
def State.closeGap (s : State) (pl : Nat) : State :=
  let s := (List.range 8).foldl (fun acc b =>
    acc.setBeacon b { acc.beacon b with notices := (acc.beacon b).notices.filter (fun (n : Nat × Nat × Nat) => n.1 ≠ pl) }) s
  s.onPipe pl (fun p => { p with gap := .none, gapPassed := [], gapReleased := [] })

/-! ### Flags (02: R64 to R67) -/

/-- Flags of work of an epoch: merged at once for the head, else pending against the epoch. -/
def State.raise (s : State) (pl k e : Nat) (f : Flags) : State :=
  if f = Flags.none then s
  else
    match s.pipe? pl with
    | none => s
    | some p =>
      if p.isHead e then
        let s := s.onStage k (fun x => { x with flags := x.flags.or f })
        s.setPipe pl (p.mapInv (((p.batch? e).map (·.inv)).getD 0) (fun v => { v with exc := v.exc.or f }))
      else
        s.onStage k (fun x =>
          let fl := Tbl.set x.pendFlags e ((Tbl.getD x.pendFlags e Flags.none).or f)
          { x with pendFlags := fl })

/-! ### Completion records (04: R137) -/

/-- What a completion record says of the first faulting stage: die, TYPE and INDEX, cause. -/
def faultOf (k : Option Nat) (cause : Nat) : List Byte :=
  match k with
  | none => leBytes 1 0xFF ++ leBytes 1 0 ++ leBytes 1 cause
  | some k => leBytes 1 (stDie k) ++ leBytes 1 (16 * stType k + stIndex k) ++ leBytes 1 cause

def completionRecord (pl : Nat) (p : Pipe) (v : Inv) (status : Nat) (fault : List Byte) : List Byte :=
  leBytes 8 (armId p.arm) ++ leBytes 4 v.seq ++ leBytes 1 pl ++ leBytes 1 p.partition ++ leBytes 1 status ++ leBytes 1 v.endFlags ++
    leBytes 4 v.done ++ leBytes 2 v.reps ++ leBytes 1 v.exc.word ++ fault ++ leBytes 2 0 ++ leBytes 4 v.control ++
    leBytes 8 v.tokens ++ leBytes 8 v.squashed ++ leBytes 16 0

/-- The completion record of an invocation posted in the mailbox it named. -/
def State.endInv (s : State) (pl : Nat) (p : Pipe) (v : Inv) (status : Nat) (fault : List Byte) : State :=
  s.postCompletion (8 * p.partition + v.mailbox) 0x0001 p.home (completionRecord pl p v status fault)

/-- Stores and atomics of a pipeline that are not yet complete at their homes, by stage and tag. -/
def State.openWrites (s : State) (p : Pipe) : List (Nat × Nat) :=
  p.stgs.flatMap (fun k => (s.stage k).v.stores.map (fun t => (k, t.1)) ++
    ((s.stage k).g.reqs.filter (fun r => r.op.isSome && r.issued && r.status.isNone)).map (fun r => (k, r.tag)))

/-- A completion record posted once every store of the pipeline under way is home (04: R137). -/
def State.endLater (s : State) (pl : Nat) (p : Pipe) (v : Inv) (status : Nat) (fault : List Byte) : State :=
  let w := s.openWrites p
  if w.isEmpty then s.endInv pl p v status fault
  else s.onPipe pl (fun q => { q with posts := q.posts ++ [{ inv := v, status := status, fault := fault, waits := w }] })

/-- A releasing pipeline is removed once no stage of it is left in ZEROING and no record waits; its identifier is free again (04: R117, R142). -/
def State.releaseDone (s : State) (pl : Nat) : State :=
  match s.pipe? pl with
  | none => s
  | some p =>
    if p.st == .releasing && p.posts.isEmpty && p.stgs.all (fun k => ((s.stage k).bind.map (·.1)) != some pl) then
      let s := { s with pipes := Tbl.erase s.pipes pl }
      match p.releaseWait with
      | none => s
      | some w => s.answerCmd w 0x0024 0 []
    else s

/-- Writes that are home, or will never be: the records that waited for these alone are posted, in their order. -/
def State.wroteHome (s : State) (pl : Nat) (home : Nat × Nat → Bool) : State :=
  match s.pipe? pl with
  | none => s
  | some p =>
    if p.posts.isEmpty then s
    else
      let posts := p.posts.map (fun x => { x with waits := x.waits.filter (fun w => !home w) })
      let s := s.setPipe pl { p with posts := posts.filter (fun x => !x.waits.isEmpty) }
      ((posts.filter (fun x => x.waits.isEmpty)).foldl (fun acc x => acc.endInv pl p x.inv x.status x.fault) s).releaseDone pl

/-- Records of several invocations, in order: those with an admitted batch end with the status, the others CANCELLED. -/
def State.endInvs (s : State) (pl : Nat) (p : Pipe) (status : Nat) (fault : List Byte) : State :=
  p.invs.foldl (fun acc v =>
    if v.admitted = 0 then acc.endInv pl p v 7 (faultOf none 0)
    else (acc.endLater pl p v status fault).undefineInv p v) s

/-- Answers to the commands that waited for a stop. -/
def State.answerStops (s : State) (p : Pipe) (status : Nat) : State :=
  p.stopWait.foldl (fun acc w => acc.answerCmd w 0x0022 status []) s

/-! ### Channels of a pipeline (04: R129) -/

/-- The channels the pipeline holds, returned to their pool. -/
def State.dropGrants (s : State) (pl : Nat) (gone : ChanGrant → Bool) : State :=
  (List.range 4).foldl (fun acc pd =>
    let gs := Tbl.getD acc.grants pd []
    let out := gs.filter (fun g => g.pipe = pl && gone g)
    let acc := out.foldl (fun a g => a.setChan (64 * pd + g.chan) { a.chan (64 * pd + g.chan) with owner := 0 }) acc
    { acc with grants := Tbl.set acc.grants pd (gs.filter (fun g => !(g.pipe = pl && gone g))) }) s

/-- Requests of the pipeline taken out of every queue. -/
def State.dropChanReqs (s : State) (pl : Nat) : State :=
  { s with chanQueue := s.chanQueue.map (fun q => (q.1, q.2.filter (fun r => r.pipe ≠ pl))) }

/-! ### Discard (04: R142; 05: R171; 16: R481) -/

/-- A G-stage's requests under a squash or an abort: what was never issued goes, the rest waits for its response to be dropped. -/
def GState.discard (g : GState) (gone : Nat → Bool) : GState :=
  let open_ := fun (w : Nat) => g.reqs.any (fun r => r.window = w && r.issued && r.status.isNone && r.leader.isNone)
  { g with
    reqs := List.map (fun r => if gone r.epoch then { r with discard := true } else r)
      (g.reqs.filter (fun r => !(gone r.epoch && (!r.issued || r.leader.isSome || r.status.isSome))))
    items := g.items.filter (fun i => !gone i.epoch)
    ended := g.ended.filter (fun e => !gone e)
    hintQ := g.hintQ.filter (fun h => !gone h.1)
    windows := g.windows.filter (fun w => !gone w.2 || open_ w.1) }

/-- Stands for the epoch of a store whose batch is gone. -/
def noEpoch : Nat := 65536

/-- A stage cleared of all work of its pipeline; a stage in FAULT or FENCED keeps its state. -/
def Stage.cleared (x : Stage) : Stage :=
  { x with
    st := match x.st with
      | .running | .draining => .bound
      | other => other
    pendFlags := [], ports := [], turns := [], paired := [], outbox := [], m := {}, s := {}, headEpoch := none
    v := { nextTag := x.v.nextTag, stores := x.v.stores.map (fun t => (t.1, noEpoch)) }
    g := { (x.g.discard (fun _ => true)) with
      ended := [], pos := 0, loaded := 0, loadDone := false, histNow := [], hist := [], lastRange := none, rowPtrs := [], curRow := none
      hintQ := [] } }

/-- Streams empty again, every credit with its sender. -/
def Pipe.freshStreams (p : Pipe) : Tbl StreamSt :=
  (List.range (armNStream p.arm)).map (fun i => (i, { credits := streamDepth p.arm p.dieMap i }))

/-- All work of a pipeline in flight discarded: records, batches, held work, loads and grants. -/
def State.discardAll (s : State) (pl : Nat) : State :=
  match s.pipe? pl with
  | none => s
  | some p =>
    let s := p.stgs.foldl (fun acc k => acc.onStage k Stage.cleared) s
    let s := { s with held := s.held.map (fun (h : Nat × List HeldStore) => (h.1, h.2.filter (fun x => x.pipe ≠ pl))) }
    let s := (s.dropGrants pl (fun _ => true)).dropChanReqs pl
    s.setPipe pl { p with
      batches := [], readmit := [], invs := [], streams := p.freshStreams
      sources := p.sources.map (fun (x : Nat × SrcState) => (x.1, { x.2 with fed := 0, done := [] }))
      loadsWait := [], loadsDone := [], held := [], errs := [], gone := [], gap := .none, gapPassed := []
      gapReleased := [], sinceGap := 0, drainStop := false, gateStop := false, stopWait := [] }

/-- PIPELINE_FAILED (13: R423). -/
def State.postFailed (s : State) (pl : Nat) (p : Pipe) (status : Nat) (fault : List Byte) : State :=
  s.postFor p.partition 0x0021 p.home (leBytes 1 pl ++ leBytes 1 status ++ fault)

/-- A fault of a pipeline (04: R142; 05: R171): it goes to FAILED once, its invocations end with the status, those without an admitted batch
CANCELLED. `k` is the first faulting stage. From IDLE only an uncorrectable local-store error and a fence reach here. -/
def State.failPipe (s : State) (pl status : Nat) (k : Option Nat) (cause : Nat) : State :=
  match s.pipe? pl with
  | none => s
  | some p =>
    if p.st == .failed || p.st == .releasing then s
    else
      let f := faultOf k cause
      let s := s.endInvs pl p status f
      let s := (s.postFailed pl p status f).answerStops p 0x10
      (s.discardAll pl).onPipe pl (fun q => { q with st := .failed, powerIdle := false })

/-- An abort that keeps the pipeline (04: R142, R143): IDLE, or SUSPENDED where it was gated; FIRST loads repeat. -/
def State.abortPipe (s : State) (pl status : Nat) (dest : PipeSt) : State :=
  match s.pipe? pl with
  | none => s
  | some p =>
    let s := (s.endInvs pl p status (faultOf none 0)).answerStops p 0
    (s.discardAll pl).onPipe pl (fun q => { q with st := dest, powerIdle := dest == .suspended })

/-- A stage enters FAULT (03: R111, R112): the first cause since binding stays, and its pipeline fails with the status. -/
def State.stageFaultAs (s : State) (k cause status : Nat) : State :=
  let s := s.onStage k (fun x => { x with st := .fault, cause := if x.cause = 0 then cause else x.cause, pendFlags := [] })
  match (s.stage k).bind with
  | none => s
  | some (pl, _) => s.failPipe pl status (some k) (s.stage k).cause

/-- A fault that ends the invocation FAULT. -/
def State.stageFault (s : State) (k cause : Nat) : State := s.stageFaultAs k cause 3

/-- The invocation status of an error on a request: LINK_LOST for the LINK_LOST of 08: R243, else FAULT (05: R163). -/
def errStatus (status : Nat) : Nat := if status = 3 then 4 else 3

/-! ### Work of a stage -/

/-- Loads that serve a batch at a stage, by index and unit key (04: R126, R128). -/
def Pipe.loadKey (a : List Byte) (l : Nat) (b : Batch) : Nat :=
  match ldWhen a l with
  | 0 => 0
  | 1 => b.inv
  | 2 => b.epoch
  | _ => b.inv * 65536 + b.rep

/-- Number of the unit a batch uses, for its place in the region: a BATCH load counts anew in each repetition and invocation, a REPEAT load in each
invocation, and an INVOKE load from the loading of the pipeline (assumption 70). -/
def Pipe.loadUnit (a : List Byte) (l : Nat) (b : Batch) : Nat :=
  match ldWhen a l with
  | 0 => 0
  | 1 => b.inv - 1
  | 2 => b.index
  | _ => b.rep

/-- Number of the unit that chooses the half of a PINGPONG load: of a BATCH load it counts on from batch to batch (04: R128). -/
def Pipe.loadHalf (a : List Byte) (l : Nat) (b : Batch) : Nat := (if ldWhen a l = 2 then b.unit else Pipe.loadUnit a l b) % 2

/-- Every BATCH load of the stage for the batch has completed (04: R128). -/
def Pipe.loadsOk (p : Pipe) (i : Nat) (b : Batch) : Bool :=
  (List.range (armNLoad p.arm)).all (fun l =>
    ldStage p.arm l != i || ldWhen p.arm l != 2 || p.loadsDone.contains (l, b.epoch))

/-- A local-store offset of the stage's parameters, moved for the odd unit of a PINGPONG load (04: R128). -/
def Pipe.lsOff (p : Pipe) (i : Nat) (b : Batch) (off : Nat) : Nat :=
  match (List.range (armNLoad p.arm)).find? (fun l => ldStage p.arm l == i && ldPing p.arm l &&
      decide (ldLs p.arm l ≤ off) && decide (off < ldLs p.arm l + ldLen p.arm l)) with
  | none => off
  | some l => if Pipe.loadHalf p.arm l b = 1 then off + ldLen p.arm l else off

/-- What a stage works on. -/
structure Job where
  pl : Nat
  i : Nat
  p : Pipe
  b : Batch
  deriving DecidableEq, Repr

/-- Does the stage run: bound and running with its pipeline, its die up? -/
def State.running (s : State) (k : Nat) : Bool :=
  match s.boundAt k with
  | none => false
  | some (_, _, p) =>
    let run := (s.stage k).st == .running || (s.stage k).st == .draining
    let pr := p.st == .running || p.st == .draining
    run && pr && (s.die (stDie k)).life == .up

/-- The stage's work in hand: it runs, with a batch whose loads are in. -/
def State.job (s : State) (k : Nat) : Option Job :=
  match s.boundAt k, s.running k with
  | some (pl, i, p), true =>
    match p.cur i with
    | none => none
    | some b => if p.loadsOk i b then some { pl := pl, i := i, p := p, b := b } else none
  | _, _ => none

/-- A base of an invocation, SWAP_A and SWAP_B exchanged in odd repetitions (04: R136). -/
def Pipe.base (p : Pipe) (b : Batch) (r : Nat) : Nat :=
  let r := if b.rep % 2 = 1 then (if r = armSwapA p.arm then armSwapB p.arm else if r = armSwapB p.arm then armSwapA p.arm else r) else r
  ((p.inv? b.inv).map (fun v => v.bases.getD r 0)).getD 0

/-! ### Taking records (03: R78; 04: R134) -/

/-- Is a port's fan-in ROUND? -/
def roundIn (a : List Byte) (i port : Nat) : Bool := (streamsInto a i port).any (strRound a)

/-- The producer stages of a port, in producer order. -/
def producerStages (a : List Byte) (i port : Nat) : List Nat :=
  (producers a i port).map (fun k => if 256 ≤ k then 1000 + k else strSrc a k)

/-- The other inputs that take ARRIVAL segments from the same producer stages as this one. -/
def pairedWith (a : List Byte) (i port : Nat) : List Nat :=
  (connected a i).filter (fun q => q != port && !roundIn a i q && !roundIn a i port && decide (1 < (producers a i port).length) &&
    (producerStages a i q).isPerm (producerStages a i port))

/-- The first of some producers, by the stamp of their head record. -/
def earliest (p : Pipe) : List (Nat × Nat) → Option (Nat × Nat × Rec)
  | [] => none
  | (ix, k) :: rest =>
    match (p.str k).fifo.head?, earliest p rest with
    | none, best => best
    | some r, none => if r.typ == .data then some (ix, k, r) else none
    | some r, some (jx, j, q) => if r.typ == .data && decide (r.stamp ≤ q.stamp) then some (ix, k, r) else some (jx, j, q)

/-- Producer whose segment an input port is taking; a marker from it ends the segment too, M-stage rows without ROW_SEG carry no SEG_END
(03: R77, R80; 04: R124). -/
def portHeld (p : Pipe) (x : Stage) (i port : Nat) : Option Nat :=
  (Tbl.getD x.ports port none).filter (fun ix =>
    match (producers p.arm i port)[ix]? with
    | none => true
    | some k => (((p.str k).fifo.head?).map (fun r => r.typ == .data)).getD true)

/-- What stands first on an input port: place among its producers, FIFO and record. A marker stands there once it has come from every
producer. -/
def frontOf (p : Pipe) (x : Stage) (i port : Nat) : Option (Nat × Nat × Rec) :=
  let ks := producers p.arm i port
  let at_ := fun (ix : Nat) => match ks[ix]? with
    | none => none
    | some k => ((p.str k).fifo.head?).map (fun r => (ix, k, r))
  let heads := ks.map (fun k => (p.str k).fifo.head?)
  let marked := !ks.isEmpty && heads.all (fun h => (h.map (fun r => r.typ != .data)).getD false)
  let data := fun (o : Option (Nat × Nat × Rec)) => o.filter (fun f => f.2.2.typ == .data)
  match portHeld p x i port with
  | some ix => data (at_ ix)
  | none =>
    if marked then at_ 0
    else if roundIn p.arm i port then
      -- producers that have passed the epoch are left out of the turn
      let n := ks.length
      let t := Tbl.getD x.turns port 0
      let order := (List.range n).map (fun j => (t + j) % n)
      match order.find? (fun ix => ((heads.getD ix none).map (fun r => r.typ == .data)).getD true) with
      | none => none
      | some ix => data (at_ ix)
    else
      let places := (List.range ks.length).zip ks
      match x.paired.find? (fun q => q.1 = port) with
      | some q => earliest p (places.filter (fun y => (producerStages p.arm i port).getD y.1 0 == q.2))
      | none => earliest p places

/-- The DATA record of the batch in hand that an input port offers. -/
def dataOf (j : Job) (x : Stage) (port : Nat) : Option (Nat × Nat × Rec) :=
  (frontOf j.p x j.i port).filter (fun f => f.2.2.typ == .data && f.2.2.epoch == j.b.epoch)

/-- A FIFO without its head; a stream's credit goes back to its sender. -/
def Pipe.pop (p : Pipe) (key : Nat) : Pipe :=
  let x := p.str key
  p.setStr key { x with fifo := x.fifo.drop 1, due := if 256 ≤ key then x.due else x.due + 1 }

/-- A record taken from a port by its stage. -/
def State.takeRec (s : State) (j : Job) (k port : Nat) (f : Nat × Nat × Rec) : State :=
  let r := f.2.2
  let s := s.onPipe j.pl (fun p => (p.pop f.2.1).mapBatch r.epoch (fun b => { b with taken := Tbl.upd b.taken j.i 0 (· + 1) }))
  let s := s.bumpStage k 1 r.payload.length
  let n := (producers j.p.arm j.i port).length
  let starts := (portHeld j.p (s.stage k) j.i port).isNone
  s.onStage k (fun x => { x with
    ports := Tbl.set x.ports port (if r.segEnd then none else some f.1)
    turns := if r.segEnd then Tbl.set x.turns port ((f.1 + 1) % n) else x.turns
    paired := if !starts then x.paired
      else
        let from_ := (producerStages j.p.arm j.i port).getD f.1 0
        match x.paired.find? (fun q => q.1 = port) with
        | some q => x.paired.erase q
        | none => x.paired ++ (pairedWith j.p.arm j.i port).map (fun q => (q, from_)) })

/-! ### Sending records (04: R134, R138) -/

/-- Room at every destination of an output port for some records. -/
def hasCredit (p : Pipe) (i port n : Nat) : Bool := (streamsFrom p.arm i port).all (fun k => decide (n ≤ (p.str k).credits))

/-- The same, and on OUT0 a token each where a TOKEN source drives the stage. -/
def canEmit (p : Pipe) (i port n : Nat) : Bool :=
  hasCredit p i port n &&
    (port != 0 || match tokenOf p.arm i with
      | none => true
      | some t => decide (n * 65536 ≤ (p.src t).level))

/-- A record put on every stream of an output port. -/
def Pipe.put (p : Pipe) (i port : Nat) (r : Rec) : Pipe :=
  (streamsFrom p.arm i port).foldl (fun acc k =>
    let x := acc.str k
    acc.setStr k { x with wire := x.wire ++ [r], credits := x.credits - 1 }) p

/-- Tokens of a source spent for a batch. -/
def Pipe.spend (p : Pipe) (src n : Nat) (b : Batch) : Pipe :=
  let x := p.src src
  ((p.setSrc src { x with level := x.level - n * 65536, spent := x.spent + n }).mapInv b.inv (fun v => { v with tokens := v.tokens + n })).mapBatch
    b.epoch (fun b => { b with tokens := b.tokens + n })

/-- One DATA record sent from an output port. -/
def State.emitRec (s : State) (j : Job) (k port : Nat) (segEnd : Bool) (payload : List Byte) : State :=
  let s := s.onPipe j.pl (fun p =>
    let p := p.put j.i port { typ := .data, segEnd := segEnd, epoch := j.b.epoch, payload := payload }
    match port, tokenOf p.arm j.i with
    | 0, some t => p.spend t 1 j.b
    | _, _ => p)
  s.bumpStage k 2 payload.length

/-- A payload cut into records of at most `w` bytes. -/
def cutRecs (w : Nat) : Nat → List Byte → List (List Byte)
  | 0, _ => []
  | n + 1, bs => if bs.length ≤ w then [bs] else bs.take w :: cutRecs w n (bs.drop w)

/-- Records an output of so many bytes takes on a port. -/
def recsFor (w n : Nat) : Nat := if n = 0 then 1 else (n + w - 1) / w

/-- Waiting records sent in their order, as far as each has credit and its token; those of a port without streams go nowhere. -/
def State.sendRecs (s : State) (k : Nat) : List (Nat × Bool × List Byte) → State
  | [] => s
  | (port, se, bs) :: rest =>
    match s.job k with
    | none => s
    | some j =>
      let out := fun (t : State) => t.onStage k (fun x => { x with outbox := rest })
      if (streamsFrom j.p.arm j.i port).isEmpty then (out s).sendRecs k rest
      else if canEmit j.p j.i port 1 then (out (s.emitRec j k port se bs)).sendRecs k rest
      else s

/-- What waits at a stage's outputs sent as far as it goes. -/
def State.flush (s : State) (k : Nat) : State := s.sendRecs k (s.stage k).outbox

/-- A payload as records for a port, SEG_END on the last (03: R77). -/
def outRecs (e : List Byte) (port : Nat) (segEnd : Bool) (payload : List Byte) : List (Nat × Bool × List Byte) :=
  let ps := cutRecs (portWidth ((outKind (stTypeOf e) port).getD false)) (payload.length + 1) payload
  (List.range ps.length).map (fun n => (port, segEnd && n + 1 == ps.length, ps.getD n []))

/-- Records put behind those that wait, and sent as far as they go. -/
def State.emitRecs (s : State) (k : Nat) (rs : List (Nat × Bool × List Byte)) : State :=
  (s.onStage k (fun x => { x with outbox := x.outbox ++ rs })).flush k

/-- A payload sent from a port. -/
def State.emitAll (s : State) (j : Job) (k port : Nat) (segEnd : Bool) (payload : List Byte) : State :=
  s.emitRecs k (outRecs (j.p.ent j.i) port segEnd payload)

/-- May the stage go on: nothing of its waits to be sent, and no output port lacks credit (03: R78)? -/
def Job.clear (j : Job) (x : Stage) : Bool := x.outbox.isEmpty && (outPorts j.p.arm j.i).all (fun port => hasCredit j.p j.i port 1)

/-! ### The end of a batch at a stage (03: R80; 04: R124, R141) -/

/-- Every connected input stands at the marker. -/
def atMark (p : Pipe) (x : Stage) (i : Nat) (typ : RecType) : Bool :=
  (connected p.arm i).all (fun port => ((frontOf p x i port).map (fun f => f.2.2.typ == typ)).getD false)

/-- Has an instruction of a V-stage entry this flag? -/
def vHasFlag (a e : List Byte) (b : Nat) : Bool := (vCode a e).any (fun i => vIFlag i b)

/-- Is all work of the batch in hand finished, its inputs apart? -/
def workDone (p : Pipe) (x : Stage) (i : Nat) (e : Nat) : Bool :=
  x.outbox.isEmpty && match stTypeOf (p.ent i) with
  | 0 => x.m.computed && !x.m.full && x.m.drain.isNone
  | 1 => !x.v.inRun && ((!(connected p.arm i).isEmpty) || x.v.ran) && (!vHasFlag p.arm (p.ent i) 4 || x.v.ended)
  | 2 => x.g.ended.contains e && x.g.items.all (fun t => t.epoch != e) && x.g.reqs.all (fun r => r.epoch != e || r.discard)
  | _ => x.s.segs.isEmpty && x.s.block.isEmpty && x.s.lists.isEmpty && x.s.cur.isEmpty

/-- Per-batch state of a stage's inputs begun anew. -/
def Stage.nextInputs (x : Stage) : Stage := { x with ports := [], turns := [], paired := [] }

/-- Per-batch state of a stage begun anew. -/
def Stage.nextBatch (x : Stage) : Stage :=
  { x.nextInputs with
    outbox := [], m := {}, s := {}
    v := { x.v with
      ip := 0, run0 := none, run1 := none, run2 := none, inRun := false, ran := false, atEnd := false, ended := false, seg := 0, acc := []
      line := [], placed := 0, waitHeld := false, undoWait := none, sliceTerm := 0 } }

/-- Per-batch state of what a G-stage takes up begun anew. -/
def GState.nextBatch (g : GState) : GState :=
  { g with pos := 0, loaded := 0, loadDone := false, hist := g.histNow, histNow := [], rowPtrs := [] }

/-- A marker taken from every producer of every connected input, each a record of the epoch taken. -/
def Pipe.takeMark (p : Pipe) (i e : Nat) : Pipe :=
  let keys := (connected p.arm i).flatMap (producers p.arm i)
  (keys.foldl Pipe.pop p).mapBatch e (fun b => { b with taken := Tbl.upd b.taken i 0 (· + keys.length) })

/-- A marker put on every connected output. -/
def Pipe.putMark (p : Pipe) (i : Nat) (r : Rec) : Pipe := (outPorts p.arm i).foldl (fun acc port => acc.put i port r) p

/-- A marker taken from every producer of every connected input and put on every connected output. -/
def Pipe.passMark (p : Pipe) (i : Nat) (r : Rec) : Pipe := (p.takeMark i r.epoch).putMark i r

/-- May a marker leave: a credit at every destination? -/
def markRoom (p : Pipe) (i : Nat) : Bool :=
  (outPorts p.arm i).all (fun port => (streamsFrom p.arm i port).all (fun k => decide (1 ≤ (p.str k).credits)))

/-- What a stage takes records and entries for: the batch in hand, or at a G-stage, which works for up to four batches at once, the oldest
whose inputs have not ended here (03: R100; 05: R150). -/
def State.intake (s : State) (k : Nat) : Option Job :=
  match s.boundAt k, s.running k with
  | some (pl, i, p), true =>
    let ended := (s.stage k).g.ended
    match p.batches.find? (fun b => !b.stagesDone.contains i && !ended.contains b.epoch) with
    | none => none
    | some b => if p.loadsOk i b then some { pl := pl, i := i, p := p, b := b } else none
  | _, _ => none

/-- The inputs of a G-stage's batch end: BATCH_END has come on each, or the span of a LOAD is asked for. -/
def State.endInputs (s : State) (k : Nat) : State :=
  match s.intake k with
  | none => s
  | some j =>
    let x := s.stage k
    let e := j.p.ent j.i
    let over_ := if stOpcode e = 0x30 then x.g.loadDone else atMark j.p x j.i .batchEnd && x.g.items.all (fun t => t.todo.isEmpty)
    if stTypeOf e = 2 ∧ over_ then
      (s.setPipe j.pl (if stOpcode e = 0x30 then j.p else j.p.takeMark j.i j.b.epoch)).onStage k (fun y =>
        { y.nextInputs with g := { y.g.nextBatch with ended := y.g.ended ++ [j.b.epoch] } })
    else s

/-- BATCH_END passed on where the stage has finished the batch and its inputs have ended. -/
def State.endBatchAt (s : State) (k : Nat) : State :=
  match s.job k with
  | none => s
  | some j =>
    let x := s.stage k
    let g := stTypeOf (j.p.ent j.i) == 2
    if workDone j.p x j.i j.b.epoch && (g || atMark j.p x j.i .batchEnd) && markRoom j.p j.i then
      let r : Rec := { typ := .batchEnd, segEnd := false, epoch := j.b.epoch, payload := [] }
      let p := if g then j.p.putMark j.i r else j.p.passMark j.i r
      (s.setPipe j.pl (p.mapBatch j.b.epoch (fun b => { b with stagesDone := b.stagesDone ++ [j.i] }))).onStage k (fun y =>
        if g then { y with g := { y.g with ended := y.g.ended.filter (fun e => e ≠ j.b.epoch) } } else y.nextBatch)
    else s

/-- GAP_MARK passed on where it stands at every input; a stage without inputs issues it after the marked batch. -/
def State.passGap (s : State) (k : Nat) : State :=
  match s.boundAt k with
  | none => s
  | some (pl, i, p) =>
    let due := match p.batches.find? (fun b => b.gap) with
      | none => p.gap == .marked && p.batches.isEmpty
      | some b => b.stagesDone.contains i
    let stand := if (connected p.arm i).isEmpty then p.gap == .marked && due else atMark p (s.stage k) i .gapMark
    if stand && !p.gapPassed.contains i && markRoom p i && (s.stage k).outbox.isEmpty && (s.stage k).g.ended.isEmpty then
      let e := ((connected p.arm i).head?.bind (fun port => (frontOf p (s.stage k) i port).map (fun f => f.2.2.epoch))).getD
        (((p.batches.find? (fun b => b.gap)).map (·.epoch)).getD (subMod 16 p.epochNext 1))
      let r : Rec := { typ := .gapMark, segEnd := false, epoch := e, payload := [] }
      s.setPipe pl { (p.passMark i r) with gapPassed := p.gapPassed ++ [i] }
    else s

/-- Records and markers passed on by a stage as far as they go. -/
def State.settle (s : State) (k : Nat) : State :=
  ((List.range 4).foldl (fun acc _ => (acc.endInputs k).endBatchAt k) (s.flush k)).passGap k

/-! ### The way of a record between two dies (01: R18, R19; 04: R134, R140; 07: R205, R212 to R214) -/

/-- The dies of a stream's sender and receiver. -/
def Pipe.srcDie (p : Pipe) (key : Nat) : Nat := stDie (p.stg (strSrc p.arm key))
def Pipe.dstDie (p : Pipe) (key : Nat) : Nat := stDie (p.stg (strDst p.arm key))

/-- Does a stream stay on one die? -/
def Pipe.sameDie (p : Pipe) (key : Nat) : Bool := p.srcDie key == p.dstDie key

/-- The RECORD packet of a stream's record. -/
def Pipe.recPkt (p : Pipe) (pl key : Nat) (r : Rec) : HubPkt :=
  let code := match r.typ with
    | .data => 0
    | .batchEnd => 1
    | .gapMark => 2
  { typ := 7, tc := 4, partition := p.partition, src := stId (p.stg (strSrc p.arm key)), dst := stId (p.stg (strDst p.arm key))
    specific := r.epoch + 2 ^ 16 * pl + 2 ^ 24 * key + 2 ^ 32 * code + (if r.segEnd then 2 ^ 34 else 0), payload := r.payload }

/-- The STREAM_CREDIT packet that returns credits of a stream. -/
def Pipe.creditPkt (p : Pipe) (pl key n : Nat) : HubPkt :=
  { typ := 8, tc := 0, partition := p.partition, src := stId (p.stg (strDst p.arm key)), dst := stId (p.stg (strSrc p.arm key))
    specific := pl + 2 ^ 8 * key + 2 ^ 16 * n }

/-- The streams of an output port that leave its die. -/
def Pipe.mates (p : Pipe) (key : Nat) : List Nat :=
  (streamsFrom p.arm (strSrc p.arm key) (strSrcPort p.arm key)).filter (fun q => !p.sameDie q)

/-- Some streams changed. -/
def Pipe.onStrs (p : Pipe) (ks : List Nat) (f : StreamSt → StreamSt) : Pipe := ks.foldl (fun acc q => acc.setStr q (f (acc.str q))) p

/-- Some links crossed one after the other by a packet, if all of them carry it now. -/
def State.crossAll (s : State) (pkt : HubPkt) (ks : List Nat) : Option State :=
  if ks.all (fun k => (s.link k).carries pkt) then some (ks.foldl (fun acc k => acc.crossOne pkt k) s) else none

/-- The oldest record of a stream over the sending die's link, once for all streams of its output port. -/
def State.toHub (s : State) (pl key : Nat) (p : Pipe) (r : Rec) : Option State :=
  if (p.str key).hub ≠ 0 then some s
  else (s.crossAll (p.recPkt pl key r) [8 * p.srcDie key]).map (fun t =>
    t.setPipe pl (p.onStrs (p.mates key) (fun x => { x with hub := x.hub + 1 })))

/-- Then over the plinth links, once for all streams of the port to this plinth, on the way that the first of these takes. -/
def State.toFar (s : State) (pl key : Nat) (p : Pipe) (r : Rec) : Option State :=
  let a := plinthOf (p.srcDie key)
  let b := plinthOf (p.dstDie key)
  if a = b ∨ (p.str key).far ≠ 0 then some s
  else
    let qs := (p.mates key).filter (fun q => plinthOf (p.dstDie q) == b)
    (s.crossAll (p.recPkt pl key r) (s.hops (p.recPkt pl (qs.headD key) r) a b)).map (fun t =>
      t.setPipe pl (p.onStrs qs (fun x => { x with far := x.far + 1 })))

/-- A stream's oldest record at its receiver: on the same die at once, between two dies over the hubs (01: R18). A packet of it that came over a link in
flits is taken where it stands; none where a link cannot carry it yet. -/
def State.carry (s : State) (pl key : Nat) (p : Pipe) (r : Rec) : Option State :=
  let pkt := p.recPkt pl key r
  if p.sameDie key then some s
  else if (s.findPkt (fun q => q == pkt)).isSome then s.takeHub (fun q => q == pkt)
  else if (p.str key).wire.head? ≠ some r then some s
  else
    (s.toHub pl key p r).bind (fun t => ((t.pipe? pl).bind (fun p => t.toFar pl key p r)).bind (fun t =>
      t.crossAll pkt [linkPeer (8 * p.dstDie key)]))

/-! ### Arrival of a record at an input (03: R81; 04: R134; 05: R164) -/

/-- A record arrives at a stream's FIFO: the one first on its way, or, with nothing on its way, one that takes a free credit. An older epoch
after a newer one is a fault, and a record of a squashed epoch is discarded and counted. -/
def State.arrive (s : State) (pl key : Nat) (r : Rec) : State :=
  match s.pipe? pl with
  | none => s
  | some p =>
    let x := p.str key
    let i := strDst p.arm key
    let k := p.stg i
    let live := (p.st == .running || p.st == .draining || (p.st == .idle && r.typ == .gapMark)) && decide (key < armNStream p.arm)
    let wire : Option StreamSt := match x.wire with
      | q :: rest => if q = r then some { x with wire := rest, hub := x.hub - 1, far := x.far - 1 } else none
      | [] => if 0 < x.credits then some { x with credits := x.credits - 1 } else none
    match live, wire with
    | true, some x =>
      if (x.newest.map (fun n => serialNewer 16 n r.epoch)).getD false then (s.setPipe pl (p.setStr key x)).stageFault k 5
      else
        match p.batch? r.epoch, p.gap == .marked && r.typ == .gapMark with
        | none, false =>
          let s := s.setPipe pl ((p.setStr key { x with due := x.due + 1 }).mapInv (Tbl.getD p.gone r.epoch 0)
            (fun v => { v with squashed := v.squashed + 1 }))
          s.bumpStage k 6 1
        | _, _ =>
          let s := s.setPipe pl
            { (p.setStr key { x with fifo := x.fifo ++ [{ r with stamp := p.clock }], newest := some r.epoch }) with clock := p.clock + 1 }
          s.settle k
    | _, _ => s

/-- Is a DATA record legal on its stream (03: R77)? -/
def recLegal (p : Pipe) (key : Nat) (segEnd : Bool) (payload : List Byte) : Bool :=
  (segEnd || !payload.isEmpty) &&
    decide (payload.length ≤ portWidth ((inKind (stTypeOf (p.ent (strDst p.arm key))) (strDstPort p.arm key)).getD false))

/-- A stream's record over its way, and into its FIFO. -/
def State.bring (s : State) (pl key : Nat) (r : Rec) : State :=
  match s.pipe? pl with
  | none => s
  | some p => if key < armNStream p.arm then ((s.carry pl key p r).map (fun t => t.arrive pl key r)).getD s else s

/-- RECORD (03: R77, R78). -/
def execRecord (pl stream epoch : Nat) (segEnd : Bool) (payload : List Byte) (s : State) : Out :=
  match s.pipe? pl with
  | none => .next s
  | some p =>
    if recLegal p stream segEnd payload then
      .next (s.bring pl stream { typ := .data, segEnd := segEnd, epoch := epoch, payload := payload })
    else .next s

/-- Credits of a stream on their way to its sender: between two dies as a packet of TC0. -/
def State.carryCredit (s : State) (pl key n : Nat) (p : Pipe) : Option State :=
  let pkt := p.creditPkt pl key n
  if n = 0 ∨ armNStream p.arm ≤ key ∨ p.sameDie key then some s
  else if (s.findPkt (fun q => q == pkt)).isSome then s.takeHub (fun q => q == pkt)
  else s.crossAll pkt (s.way (p.dstDie key) pkt)

/-- STREAM_CREDIT (04: R134): credits owed come back to the sender. -/
def execStreamCredit (pl stream count : Nat) (s : State) : Out :=
  match s.pipe? pl with
  | none => .next s
  | some p =>
    let x := p.str stream
    let n := min count x.due
    match s.carryCredit pl stream n p with
    | none => .next s
    | some s =>
      let s := s.setPipe pl (p.setStr stream { x with due := x.due - n, credits := x.credits + n })
      .next (if stream < armNStream p.arm then s.settle (p.stg (strSrc p.arm stream)) else s)

/-- BATCH_END (03: R80). -/
def execBatchEnd (pl stream epoch : Nat) (s : State) : Out :=
  .next (s.bring pl stream { typ := .batchEnd, segEnd := false, epoch := epoch, payload := [] })

/-- GAP_MARK (03: R80; 04: R141). -/
def execGapMark (pl stream epoch : Nat) (s : State) : Out :=
  .next (s.bring pl stream { typ := .gapMark, segEnd := false, epoch := epoch, payload := [] })

end Sys2Proof.Machine
end

