-- ==== Sys2Proof/Machine/Gate.lean ====
section
/-!
DEFINITION. Power gates of domains: when a pipeline goes to SUSPENDED, when a domain's gate proceeds, and die counters
(04: R142, R143; 11: R368; 15: R467; 21: R578).
-/
namespace Sys2Proof.Machine

open Sys2Proof

/-- A counter of a die advanced: THERMAL_LIMIT_REF and POWER_LIMIT_REF are 64 bits wide, the others 32 (21: R578). -/
def State.bumpDie (s : State) (d i n : Nat) : State :=
  let x := s.die d
  let s' := s.setDie d { x with counters := bumpTbl x.counters i (if i < 2 then 64 else 32) n }
  if i < 2 then s' else s'.satBump x.counters i n (dieUnit d) (svcAddr d 2 (0x20 + 4 * (i - 2)))

/-- Stages of a pipeline put into a state, those in FAULT or FENCED apart. -/
def State.stagesTo (s : State) (p : Pipe) (st : StageSt) : State :=
  p.stgs.foldl (fun acc k => acc.onStage k (fun x => if x.st == .fault || x.st == .fenced then x else { x with st := st })) s

/-- Has the pipeline a stage in a domain of a die? -/
def Pipe.inDomain (p : Pipe) (die dom : Nat) : Bool := p.stgs.any (fun k => stDie k == die && stDomain k == dom)

/-- Has the oldest invocation ended but for its completion record? -/
def Pipe.headOver (p : Pipe) : Bool :=
  (p.invs.head?.map (fun v => v.ending.isSome || (!armRepeat p.arm && v.done == v.nb))).getD false

/-- A pipeline that a gate has stopped goes to SUSPENDED once no batch of it is left (04: R142, R143). -/
def State.suspendDone (s : State) (pl : Nat) : State :=
  match s.pipe? pl with
  | none => s
  | some p =>
    if p.gateStop && p.batches.isEmpty && !p.headOver && (p.st == .running || p.st == .idle) then
      (s.setPipe pl { p with st := .suspended, gateStop := false }).stagesTo p .bound
    else s

/-- May the gate of a domain proceed: no pipeline of it still at work, and no channel on its way to PAUSED (11: R368)? -/
def State.gateClear (s : State) (die dom : Nat) : Bool :=
  (Tbl.vals s.pipes).all (fun p => !p.inDomain die dom || !(p.gateStop || p.st == .running || p.st == .draining)) &&
    (Tbl.vals s.chans).all (fun c => !(c.pausePwr && (c.st == .running || c.st == .pausing)))

/-- Is a stage's domain gated, or its gate begun (15: R467, R468)? -/
def State.darkStage (s : State) (k : Nat) : Bool :=
  bit (stDomain k) (s.die (stDie k)).gated || s.power.gating.contains (stDie k, stDomain k)

/-- Is a stage of a domain bound? -/
def State.domainHeld (s : State) (die dom : Nat) : Bool :=
  (List.range 30).any (fun u => stDomain u == dom && ((s.stage (30 * die + u)).bind).isSome)

/-- A domain gated; its die's DOMAIN_GATES counts it (15: R467; 21: R578). -/
def State.gateNow (s : State) (die dom : Nat) : State :=
  let x := s.die die
  let s := s.setDie die { x with
    gated := Nat.lor x.gated (2 ^ dom), gatedBound := if s.domainHeld die dom then Nat.lor x.gatedBound (2 ^ dom) else x.gatedBound }
  s.bumpDie die 4 1

/-- Every gate begun taken as far as it goes; one whose stages are bound wakes in its turn among those that were shed (15: R468). -/
def State.gateSettle (s : State) : State :=
  let s := (Tbl.keys s.pipes).foldl State.suspendDone s
  s.power.gating.foldl (fun acc g =>
    if acc.gateClear g.1 g.2 then
      let acc := acc.gateNow g.1 g.2
      { acc with power := { acc.power with
          gating := acc.power.gating.filter (fun x => x != g), shed := if acc.domainHeld g.1 g.2 then acc.power.shed ++ [g] else acc.power.shed } }
    else acc) s

end Sys2Proof.Machine
end

