-- ==== Sys2Proof/Machine/PipeMem.lean ====
section
/-!
DEFINITION. What a pipeline sends to memory: stores of V-stages, requests and hints of G-stages, the addresses of G-stage entries, reads
for loads and FEED sources, and a memory error at a stage (03: R96 to R104; 04: R128; 05: R151 to R159, R163).
-/
namespace Sys2Proof.Machine

open Sys2Proof

/-- A store sent to memory for a V-stage (03: R96). It is open until its completion comes. -/
def State.sendStore (s : State) (pl k e addr : Nat) (data : List Byte) : State :=
  let x := s.stage k
  let tag := x.v.nextTag
  let s := s.setStage k { x with v := { x.v with stores := x.v.stores ++ [(tag, e)], nextTag := addMod 16 tag 1 } }
  let s := (s.onPipe pl (fun p => p.mapBatch e (fun b => { b with stores := b.stores + 1 }))).bumpStage k 8 1
  s.request { src := stId k, partition := (s.stage k).partition, tag := tag, addr := addr } (if data.length < 4 then .part data else .wr data)

/-- Is the block of an address cached for the stage's partition? -/
def State.cachedFor (s : State) (k addr : Nat) : Bool :=
  let tag := s.tagOfPart (s.stage k).partition
  (s.cache (plinthOf (stDie k))).lines.any (fun l => l.hits tag (addr / 256) (s.waypointOf tag))

/-- A G-stage request sent to memory. A hinted line that it hits is counted once (05: R172). -/
def State.sendG (s : State) (pl k : Nat) (r : GReq) : State :=
  let q : UnitReq := { src := stId k, partition := (s.stage k).partition, tag := r.tag, addr := r.addr }
  let s := s.bumpStage k 8 1
  match r.op with
  | some op => (s.onPipe pl (fun p => p.mapBatch r.epoch (fun b => { b with stores := b.stores + 1 }))).request q (.atomic op r.operand)
  | none =>
    let hinted := ((s.pipe? pl).map (fun p => p.hinted.contains (r.addr / 256))).getD false
    let s := if hinted && s.cachedFor k r.addr then
        (s.onPipe pl (fun p => { p with hinted := p.hinted.erase (r.addr / 256) })).bumpPipe pl 7 1
      else s
    s.request q (.rd r.len)

/-- Waiting hints issued in their order while fewer than 256 of the stage's are outstanding (05: R150, R159). A hint is no request of the
stage's windows, and counts in HINTS_ISSUED alone (assumption 70). -/
def State.sendHints (s : State) (pl k : Nat) : List (Nat × Nat) → State
  | [] => s
  | (_, addr) :: rest =>
    if 256 ≤ (s.fab.outstanding.filter (fun o => o.unit = stId k && o.kind == .hint)).length then s
    else
      let s := s.onStage k (fun x => { x with g := { x.g with hintQ := rest } })
      let s := (s.bumpPipe pl 6 1).onPipe pl (fun p =>
        { p with hinted := if p.hinted.contains (addr / 256) then p.hinted else p.hinted ++ [addr / 256] })
      (s.request { src := stId k, partition := (s.stage k).partition, tag := 0, addr := addr / 256 * 256 } .hint).sendHints pl k rest

/-- What waits of a stage's hints issued as far as it goes. -/
def State.pumpHints (s : State) (k : Nat) : State :=
  match (s.stage k).bind with
  | none => s
  | some (pl, _) => s.sendHints pl k (s.stage k).g.hintQ

/-- Does an address lie in a RUNAHEAD_OK region of the pipeline (05: R159)? -/
def Pipe.aheadOk (p : Pipe) (b : Batch) (addr : Nat) : Bool :=
  (List.range (armNRegion p.arm)).any (fun r =>
    regRunAhead p.arm r && decide (p.base b r ≤ addr) && decide (addr < p.base b r + regLength p.arm r))

/-- One hint queued: for a place in a RUNAHEAD_OK region whose home is another package. -/
def State.queueHint (s : State) (p : Pipe) (b : Batch) (k addr : Nat) : State :=
  if p.aheadOk b addr && !s.isLocal addr && decide (addr < 2 ^ 56) then
    s.onStage k (fun x => { x with g := { x.g with hintQ := x.g.hintQ ++ [(b.epoch, addr)] } })
  else s

/-! ### Entries of IN0 (03: R98, R99) -/

/-- One index entry: its place relative to the base (absolute for ADDR56), or none for a null entry. -/
abbrev Entry := Option Nat

/-- Bytes of an entry of a format. -/
def idxBytes (f : Nat) : Nat := if f = 0 then 4 else 8

/-- Entries of an index record. A RANGE gives one for each position; `si` and `sj` are the strides. -/
def entriesOf (f si sj : Nat) : Nat → List Byte → List Entry
  | 0, _ => []
  | n + 1, bs =>
    if bs.length < idxBytes f then []
    else
      let w := field bs 0 (idxBytes f)
      let lo := w % 2 ^ 32
      let hi := w / 2 ^ 32
      let es : List Entry := match f with
        | 0 => [if w = 0xFFFFFFFF then none else some (w * si)]
        | 1 => [if w = 0xFFFFFFFFFFFFFFFF then none else some (w * si)]
        | 2 => if hi = 0 then [none] else (List.range hi).map (fun t => some ((lo + t) * si))
        | 3 => [if lo = 0xFFFFFFFF then none else some (lo * si + hi * sj)]
        | _ => [if w % 2 ^ 56 = 2 ^ 56 - 1 then none else some (w % 2 ^ 56)]
      es ++ entriesOf f si sj n (bs.drop (idxBytes f))

/-- Address of an entry, computed in 64 bits: base plus place, or the place itself for ADDR56. -/
def entryAddr (f base place : Nat) : Nat := if f = 4 then place else (base + place) % 2 ^ 64

/-- The last RANGE entry of a record, if its format is RANGE. -/
def lastRangeOf (f : Nat) (bs : List Byte) : Option (Nat × Nat) :=
  if f = 2 ∧ 8 ≤ bs.length then
    let o := bs.length / 8 * 8 - 8
    some (field bs o 4, field bs (o + 4) 4)
  else none

/-! ### Hints at the admission of a run-ahead batch (05: R158 to R160) -/

/-- The places a G-stage's history and last range predict: region, bytes a place, places. -/
def hintPlaces (e : List Byte) (g : GState) (predict : Nat) : List (Nat × Nat × Nat) :=
  let op := stOpcode e
  let reg := field e 8 1
  let row := if op = 0x31 ∨ op = 0x34 then field e 0xC 4 else if op = 0x32 then field e 0xA 1 else (atomicSize (field e 0xB 1)).getD 4
  let hist := if bit 0 predict then
      (if op = 0x31 ∨ op = 0x32 then g.hist.map (fun h => (reg, h, row))
      else if op = 0x33 ∧ gPairs e ∧ !gXLocal e then g.hist.map (fun h => (field e 0x30 1, h, (fmtD (field e 0xA 1)).width / 8)) else [])
    else []
  let range := match bit 1 predict, g.lastRange with
    | true, some (start, count) =>
      if op = 0x33 then
        let w := if field e 9 1 = 1 then 8 else 4
        [(reg, field e 0x10 8 + (start + count) * w, (count + 1) * w)]
      else if op ≠ 0x30 then
        (List.range count).map (fun t => (reg, field e 0x10 8 + (start + count + t) * field e 0x18 8, row))
      else []
    | _, _ => []
  hist ++ range

/-- Hints of every G-stage of a pipeline for a run-ahead batch. -/
def State.hintBatch (s : State) (pl : Nat) (b : Batch) (predict : Nat) : State :=
  match s.pipe? pl with
  | none => s
  | some p =>
    p.idxs.foldl (fun acc i =>
      let e := p.ent i
      let k := p.stg i
      if stTypeOf e = 2 then
        ((hintPlaces e (acc.stage k).g predict).foldl (fun a h =>
          let base := if field e 9 1 = 4 ∧ stOpcode e ≠ 0x33 then 0 else p.base b h.1
          (blocksOf (base + h.2.1) h.2.2).foldl (fun a' blk => a'.queueHint p b k (max (base + h.2.1) (blk * 256))) a) acc).pumpHints k
      else acc) s

/-! ### Errors (03: R104; 05: R163) -/

/-- An error status on a request of a batch: a fault for the head, else held against the epoch. -/
def State.memError (s : State) (pl k e status : Nat) : State :=
  match s.pipe? pl with
  | none => s
  | some p =>
    if p.isHead e then s.stageFaultAs k 2 (errStatus status) else s.onPipe pl (fun q => { q with errs := q.errs ++ [(e, status)] })

/-! ### Reads of loads and FEED sources -/

/-- Does a read for a load or FEED source still wait in a controller of the package's own memory (06: R176, R189, R190, R194)? -/
def State.pipeWaits (s : State) (pt a n : Nat) : Bool := n != 0 && s.windowOk pt a n accRead && s.isLocal a && s.runBusy (localOf a) n

/-- A run of bytes read under a partition's window for a load or FEED source (08: R238): from the package's own memory here; of another
package's memory the command reports the status and the bytes. -/
def State.pipeRead (s : State) (pd pt a n status : Nat) (data : List Byte) : Nat × List Byte × State :=
  if n = 0 then (0, [], s)
  else if !s.windowOk pt a n accRead then (1, [], s.violation pd pt a accRead)
  else if s.isLocal a then s.readRun (localOf a) n
  else (status, if status = 0 then padTo n data else [], s)

end Sys2Proof.Machine
end

