-- ==== Sys2Proof/Machine/PipeRun.lean ====
section
/-!
DEFINITION. Running pipelines: tokens, admission, loads and FEED sources on their channels, commits, squashes, repetitions,
invocations and batch gaps (04: R126 to R129, R135 to R144; 05: R146 to R171).
-/
namespace Sys2Proof.Machine

open Sys2Proof

/-! ### Throttle factor and tokens (04: R138, R139) -/

/-- F of 1: the product of two factors of 1. -/
def throttleOne : Nat := factorOne * factorOne

/-- F of a pipeline, in units of 1 over `throttleOne`. -/
def State.throttle (s : State) (p : Pipe) : Nat :=
  p.stgs.foldl (fun m k => Nat.min m ((s.die (stDie k)).fThermal * (s.die (stDie k)).fPower)) throttleOne

/-- E of a source in 1/65,536 tokens per µs; none where nothing limits it. -/
def State.tokenRate (s : State) (p : Pipe) (i : Nat) : Option Nat :=
  let f := s.throttle p
  let rate := srcRate p.arm i
  let cap := ((Tbl.get? s.parts p.partition).map (·.admitCap)).getD 100
  let limited := f * (p.src i).ref / throttleOne
  if throttleOne ≤ f then (if rate = 0 then none else some (rate * cap / 100))
  else some ((if rate = 0 then limited else Nat.min rate limited) * cap / 100)

/-- Has the source work: an admitted batch it has not delivered, or that its stage has not finished? -/
def Pipe.srcWork (p : Pipe) (i : Nat) : Bool :=
  if srcFeed p.arm i then p.batches.any (fun b => !(p.src i).done.contains b.epoch)
  else p.batches.any (fun b => !b.stagesDone.contains (srcStage p.arm i))

/-- A full bucket. -/
def bucketFull (a : List Byte) (i : Nat) : Nat := srcBurst a i * 65536

/-- TOKEN_BUCKET_REFILL (04: R138, R139): one microsecond has passed. REF follows the last 1,000 of them at F = 1 with work. -/
def execTokenBucketRefill (pl src : Nat) (s : State) : Out :=
  match s.pipe? pl with
  | none => .next s
  | some p =>
    if armNSource p.arm ≤ src then .next s
    else
      let x := p.src src
      let level := match s.tokenRate p src with
        | none => bucketFull p.arm src
        | some e => Nat.min (bucketFull p.arm src) (x.level + e)
      let busy := p.srcWork src || decide (0 < x.spent)
      let recent := if throttleOne ≤ s.throttle p ∧ busy then (x.spent :: x.recent).take 1000 else x.recent
      let ref := if recent.isEmpty then 1250 * 65536 else recent.sum * 65536 / recent.length
      let k := p.stg (srcStage p.arm src)
      let s := s.setPipe pl (p.setSrc src { x with level := level, spent := 0, recent := recent, ref := ref })
      .next (if (s.stage k).outbox.isEmpty then s else s.settle k)

/-! ### Loads (04: R126, R128, R129) -/

/-- Plinth of a stage entry. -/
def Pipe.plinth (p : Pipe) (i : Nat) : Nat := plinthOf (stDie (p.stg i))

/-- The batch that would be admitted next: invocation, repetition, index. A repetition ahead of the control word is admitted only behind the
batch it follows. -/
def Pipe.nextBatch (p : Pipe) : Option (Inv × Nat × Nat) :=
  let open_ := fun (v : Inv) => v.ending.isNone && (armRepeat p.arm || decide (v.admitted < v.nb))
  match p.invs.find? open_ with
  | none => none
  | some v =>
    let rep := v.admitted / v.nb
    let ahead := p.runAhead != 0 && !p.batches.isEmpty
    if armRepeat p.arm && (decide (v.repeatMax ≤ rep) || decide (v.reps < rep) && !(ahead && rep == v.reps + 1)) then none
    else some (v, rep, v.admitted % v.nb)

/-- Has the stage finished every admitted batch but those of some kind? -/
def Pipe.stageFree (p : Pipe) (i : Nat) (but : Batch → Bool) : Bool := p.batches.all (fun b => b.stagesDone.contains i || but b)

/-- The batch that comes next, under the epoch it will have. -/
def Pipe.coming (p : Pipe) : Option Batch :=
  p.nextBatch.map (fun x => { epoch := p.epochNext, inv := x.1.seq, index := x.2.2, rep := x.2.1, unit := p.unitNext })

/-- Loads that may be asked for now, by index and key: FIRST, INVOKE and REPEAT loads of the batch that comes next, BATCH loads of admitted
batches, and with PINGPONG of the batch that comes next too, once the stage has finished all but one before it (04: R128; 05: R151). -/
def Pipe.readyLoads (p : Pipe) : List (Nat × Nat) :=
  (List.range (armNLoad p.arm)).flatMap (fun l =>
    let i := ldStage p.arm l
    let ping := ldPing p.arm l
    if ldWhen p.arm l = 2 then
      ((p.batches ++ (if ping then p.coming.toList else [])).filter (fun b =>
        (regRunAhead p.arm (ldRegion p.arm l) || p.isHead b.epoch || p.batches.isEmpty) &&
          (let older := p.batches.takeWhile (fun c => c.epoch != b.epoch)
           let left := older.filter (fun c => !c.stagesDone.contains i)
           left.isEmpty || (ping && left.length == 1)))).map (fun b => (l, b.epoch))
    else
      match p.nextBatch with
      | none => []
      | some (v, rep, idx) =>
        let b : Batch := { epoch := 0, inv := v.seq, index := idx, rep := rep }
        let ok := match ldWhen p.arm l with
          | 0 => p.stageFree i (fun _ => false)
          | 1 => idx == 0 && rep == 0 && p.stageFree i (fun c => ping && c.inv + 1 == v.seq)
          | _ => idx == 0 && p.batches.isEmpty && rep == v.reps
        if ok then [(l, Pipe.loadKey p.arm l b)] else [])

/-- Loads the next batch still needs before its first token. -/
def Pipe.loadsFor (p : Pipe) (v : Inv) (rep idx : Nat) : Bool :=
  let b : Batch := { epoch := 0, inv := v.seq, index := idx, rep := rep }
  (List.range (armNLoad p.arm)).all (fun l => ldWhen p.arm l == 2 || p.loadsDone.contains (l, Pipe.loadKey p.arm l b))

/-- Requests for loads that have become ready, queued at their plinths. -/
def State.wantLoads (s : State) (pl : Nat) : State :=
  match s.pipe? pl with
  | none => s
  | some p =>
    if p.st == .running || p.st == .draining then
      p.readyLoads.foldl (fun acc x =>
        if p.loadsWait.contains x || p.loadsDone.contains x then acc
        else
          let pd := p.plinth (ldStage p.arm x.1)
          let acc := acc.onPipe pl (fun q => { q with loadsWait := q.loadsWait ++ [x] })
          { acc with chanQueue := Tbl.upd acc.chanQueue (2 * pd + 1) [] (fun q => q ++ [{ pipe := pl, feed := false, items := [x] }]) }) s
    else s

/-- The FEED sources of an invocation without a channel, asked for plinth by plinth. -/
def State.wantFeeds (s : State) (pl q : Nat) : State :=
  match s.pipe? pl with
  | none => s
  | some p =>
    (List.range 4).foldl (fun acc pd =>
      let need := (List.range (armNSource p.arm)).filter (fun i =>
        srcFeed p.arm i && p.plinth (srcStage p.arm i) == pd &&
          !(Tbl.getD acc.grants pd []).any (fun g => g.pipe == pl && g.feed && g.item == (i, q)) &&
          !(Tbl.getD acc.chanQueue (2 * pd) []).any (fun r => r.pipe == pl && r.items.contains (i, q)))
      if need.isEmpty then acc
      else { acc with chanQueue := Tbl.upd acc.chanQueue (2 * pd) [] (fun r =>
        r ++ [{ pipe := pl, feed := true, items := need.map (fun i => (i, q)) }]) }) s

/-- Free channels of a plinth among CH48 to CH63. -/
def State.freeChans (s : State) (pd : Nat) : List Nat :=
  ((List.range 16).map (· + 48)).filter (fun c => !(Tbl.getD s.grants pd []).any (fun g => g.chan = c))

/-- CHANNEL_GRANT (04: R128, R129): loads that have become ready are queued, and the oldest request of the queue is granted where enough
channels are free. -/
def execChannelGrant (plinth : Nat) (feed : Bool) (s : State) : Out :=
  let s := (Tbl.keys s.pipes).foldl State.wantLoads s
  let key := 2 * plinth + b2n (!feed)
  match Tbl.getD s.chanQueue key [] with
  | [] => .next s
  | r :: rest =>
    let free := s.freeChans plinth
    let chans := if feed then (free.filter (fun c => c < 60)).take r.items.length else free.reverse.take 1
    if chans.length < r.items.length then .next s
    else
      let pt := ((s.pipe? r.pipe).map (·.partition)).getD 0
      let gs := (chans.zip r.items).map (fun x => ({ chan := x.1, pipe := r.pipe, feed := feed, item := x.2 } : ChanGrant))
      let s := { s with chanQueue := Tbl.set s.chanQueue key rest, grants := Tbl.upd s.grants plinth [] (fun g => g ++ gs) }
      .next (chans.foldl (fun acc c => acc.setChan (64 * plinth + c) { acc.chan (64 * plinth + c) with owner := pt }) s)

/-- The grant on a channel, given as 64 * plinth + channel. -/
def State.grantOn (s : State) (chan : Nat) : Option ChanGrant :=
  (Tbl.getD s.grants (chan / 64) []).find? (fun g => g.chan = chan % 64)

/-- The batch a load's unit key stands for: an admitted one, or the one that comes next. -/
def Pipe.loadBatch (p : Pipe) (x : Nat × Nat) : Batch :=
  match p.batches.find? (fun b => Pipe.loadKey p.arm x.1 b == x.2) with
  | some b => b
  | none => p.coming.getD { epoch := p.epochNext, inv := 0, index := 0, rep := 0, unit := p.unitNext }

/-- Bytes of its local store that a stage uses in a batch: what its entry's parameters and its program's operands name. -/
def Pipe.lsUsed (p : Pipe) (i : Nat) (b : Batch) : List (Nat × Nat) :=
  let e := p.ent i
  match stTypeOf e with
  | 0 => (mRanges e).map (fun r => (p.lsOff i b r.2.1, r.2.2))
  | 1 => (vCode p.arm e).flatMap (fun c => [2, 4, 6, 8, 0xA].flatMap (fun o =>
      if vKind c o ≠ 0 then []
      else if vRel c o then [(4096 * vRow c o, 4096 * (1024 - vRow c o))]
      else [(4096 * vRow c o, if vOpc c = 0x39 then 4096 * 512 else if vOpc c = 0x38 then 4096 * 8 else 4096)]))
  | 2 => if gXLocal e then [(p.lsOff i b (field e 0x28 8), 2 ^ 22 - field e 0x28 8)] else []
  | _ => []

/-- What a load to a stage's store overwrites of the bytes that the stage uses in the batch it works on meanwhile (03: R75). -/
def Pipe.overUsed (p : Pipe) (x : Nat × Nat) (off n : Nat) : List (Nat × Nat) :=
  let i := ldStage p.arm x.1
  match p.cur i with
  | none => []
  | some c =>
    if Pipe.loadKey p.arm x.1 c = x.2 ∨ !p.loadsOk i c then []
    else ((p.lsUsed i c).map (fun u => (max off u.1, min (off + n) (u.1 + u.2) - max off u.1))).filter (fun u => decide (0 < u.2))

/-- LOAD_COMPLETE (04: R126, R128): the bytes go to the target store; an error is a fault, or is held against a run-ahead batch. Bytes that the
stage uses in the same batch are left undefined (03: R75). -/
def execLoadComplete (pl chan status : Nat) (data : List Byte) (s : State) : Out :=
  match s.pipe? pl, s.grantOn chan with
  | some p, some g =>
    if g.pipe = pl ∧ !g.feed then
      let x := g.item
      let l := x.1
      let a := p.arm
      let b := p.loadBatch x
      let unit := Pipe.loadUnit a l b
      let k := p.stg (ldStage a l)
      let addr := p.base b (ldRegion a l) + ldOffset a l + unit * ldStride a l
      if s.pipeWaits p.partition addr (ldLen a l) then .next s
      else
        let r := s.pipeRead (chan / 64) p.partition addr (ldLen a l) status data
        let s := r.2.2.dropGrants pl (fun h => h.chan = chan % 64)
        let s := s.onPipe pl (fun q => { q with loadsWait := q.loadsWait.erase x })
        if r.1 = 0 then
          let off := ldLs a l + (if ldPing a l ∧ Pipe.loadHalf a l b = 1 then ldLen a l else 0)
          let s := s.onStage k (fun y => { y with store := Store.writeN y.store off r.2.1 })
          let s := (p.overUsed x off (ldLen a l)).foldl (fun acc u => acc.undefineLs k u.1 u.2) s
          let s := s.onPipe pl (fun q => { q with loadsDone := q.loadsDone ++ [x] })
          .next ((s.wantLoads pl).settle k)
        else if ldWhen a l = 2 then .next (s.memError pl k b.epoch r.1)
        else .next (s.stageFaultAs k 2 (errStatus r.1))
    else .next s
  | _, _ => .next s

/-! ### FEED sources (04: R127) -/

/-- A BATCH_END, and after a marked batch a GAP_MARK, put into a FEED source's FIFO. -/
def Pipe.feedEnd (p : Pipe) (src : Nat) (b : Batch) : Pipe :=
  let x := p.str (256 + src)
  let mark := fun (t : RecType) => ({ typ := t, segEnd := false, epoch := b.epoch, payload := [] } : Rec)
  let p := p.setStr (256 + src) { x with fifo := x.fifo ++ [mark .batchEnd] ++ (if b.gap then [mark .gapMark] else []) }
  p.setSrc src { p.src src with fed := 0, done := (p.src src).done ++ [b.epoch] }

/-- FEED_RECORD (04: R127, R138; 05: R151). -/
def execFeedRecord (pl src status : Nat) (data : List Byte) (s : State) : Out :=
  match s.pipe? pl with
  | none => .next s
  | some p =>
    let a := p.arm
    let x := p.src src
    match p.batches.find? (fun b => !x.done.contains b.epoch) with
    | none => .next s
    | some b =>
      let pd := p.plinth (srcStage a src)
      let k := p.stg (srcStage a src)
      let granted := (Tbl.getD s.grants pd []).any (fun g => g.pipe == pl && g.feed && g.item == (src, b.inv))
      let total := srcBatchRecs a src
      let fifo := (p.str (256 + src)).fifo
      let run := p.st == .running || p.st == .draining
      let ok := run && decide (src < armNSource a) && srcFeed a src && granted &&
        (total == 0 || (decide (65536 ≤ x.level) && decide (fifo.length < 64))) &&
        (regRunAhead a (srcRegion a src) || p.isHead b.epoch)
      if !ok then .next s
      else if total = 0 then .next ((s.setPipe pl (p.feedEnd src b)).settle k)
      else
        let n := Nat.min (srcRecBytes a src) (srcBatchBytes a src - x.fed * srcRecBytes a src)
        let addr := p.base b (srcRegion a src) + srcOffset a src + b.index * srcBatchBytes a src + x.fed * srcRecBytes a src
        let r := s.pipeRead pd p.partition addr n status data
        if s.pipeWaits p.partition addr n then .next s
        else
          let s := r.2.2
          if r.1 ≠ 0 then .next (s.memError pl k b.epoch r.1)
          else
            let last := x.fed + 1 == total
            let seg := last || (srcSegRecs a src != 0 && (x.fed + 1) % srcSegRecs a src == 0)
            let s := s.onPipe pl (fun q =>
              let y := q.str (256 + src)
              let q := q.setStr (256 + src) { y with fifo := y.fifo ++ [{ typ := .data, segEnd := seg, epoch := b.epoch, payload := r.2.1, stamp := q.clock }] }
              let q := { (q.spend src 1 b) with clock := q.clock + 1 }
              let q := q.setSrc src { q.src src with fed := x.fed + 1 }
              if last then q.feedEnd src b else q)
            let overs := last && !armRepeat a && ((p.inv? b.inv).map (fun v => b.index + 1 == v.nb)).getD true
            let s := if overs then s.dropGrants pl (fun g => g.feed && g.item == (src, b.inv)) else s
            .next (s.settle k)

/-! ### Commit (05: R161) -/

/-- A V-stage's held stores of an epoch, sent in the order it executed them (05: R154). -/
def State.releaseHeld (s : State) (pl k e : Nat) : State :=
  let d := stDie k
  let mine := fun (h : HeldStore) => h.pipe = pl && h.stage = k && h.epoch = e
  let all := Tbl.getD s.held d []
  let s := { s with held := Tbl.set s.held d (all.filter (fun h => !mine h)) }
  (all.filter (fun h => mine h)).foldl (fun acc h => acc.sendStore pl k e h.addr h.data) s

/-- What one stage does at the commit of an epoch. -/
def State.commitStage (s : State) (pl k e : Nat) : State :=
  let x := s.stage k
  let f := Tbl.getD x.pendFlags e Flags.none
  let s := s.setStage k { x with
    headEpoch := some e, flags := x.flags.or f, pendFlags := Tbl.erase x.pendFlags e
    v := { x.v with undo := x.v.undo.filter (fun u => u.epoch ≠ e) } }
  let s := s.onPipe pl (fun p => p.mapInv (((p.batch? e).map (·.inv)).getD 0) (fun v => { v with exc := v.exc.or f }))
  let s := s.releaseHeld pl k e
  let wait := (s.stage k).g.reqs.filter (fun r => r.epoch = e && !r.issued && !r.discard && r.leader.isNone)
  let s := s.onStage k (fun y => { y with g := { y.g with reqs := y.g.reqs.map (fun r =>
    if r.epoch = e ∧ !r.discard then { r with issued := true, issuedAt := s.now (stDie k) } else r) } })
  wait.foldl (fun acc r => acc.sendG pl k r) s

/-- The first stage with an error held against an epoch, and the status; an error of a load or FEED record names no stage. -/
def State.heldError (s : State) (p : Pipe) (e : Nat) : Option (Option Nat × Nat) :=
  let g := p.stgs.findSome? (fun k =>
    ((s.stage k).g.reqs.find? (fun r => r.epoch = e && !r.discard && (r.status.getD 0) != 0)).map (fun r => (some k, r.status.getD 0)))
  match g with
  | some x => some x
  | none => (p.errs.find? (fun x => x.1 = e)).map (fun x => (none, x.2))

/-- A decision of the home sequencer sent to every die that holds a stage of the pipeline (05: R149); the stages act on it at once. The spec names
neither its opcode nor its payload (assumption 71). -/
def State.tellDies (s : State) (pl kind e : Nat) : State :=
  match s.pipe? pl with
  | none => s
  | some p =>
    ((p.stgs.map stDie).eraseDups).foldl (fun acc d => acc.toUnit
      { typ := 9, tc := 0, partition := p.partition, src := p.home, dst := dieUnit d, specific := Config.controlCode kind
        payload := leBytes 1 pl ++ leBytes 2 e }) s

/-- An epoch becomes the head: flags merge, held work is released, a held control word is delivered, a held error is a fault. -/
def State.commitEpoch (s : State) (pl e : Nat) : State :=
  match s.pipe? pl with
  | none => s
  | some p =>
    let s := (s.bumpPipe pl 0 1).tellDies pl 0 e
    let s := p.stgs.foldl (fun acc k => acc.commitStage pl k e) s
    let s := match p.held.find? (fun h => h.1 = e) with
      | none => s
      | some h => s.onPipe pl (fun q =>
          let q := q.mapInv (((q.batch? e).map (·.inv)).getD 0) (fun v => { v with control := h.2, controlIn := true })
          { q with held := q.held.filter (fun y => y.1 ≠ e) })
    match s.heldError p e with
    | none => s
    | some (some k, st) => s.stageFaultAs k 2 (errStatus st)
    | some (none, st) => s.failPipe pl (errStatus st) none 2

/-- Has the batch completed: every stage done with it, every store and atomic at home (05: R148)? -/
def Pipe.batchDone (p : Pipe) (b : Batch) : Bool := p.idxs.all b.stagesDone.contains && b.stores == 0

/-- Has the head's invocation ended with batches of it still behind the head (04: R136; 05: R163)? -/
def Pipe.endedAhead (p : Pipe) : Bool :=
  match p.batches with
  | [] => false
  | b :: rest => ((p.inv? b.inv).map (fun v => v.ending.isSome)).getD false && rest.any (fun c => c.inv == b.inv)

/-- EPOCH_COMMIT (05: R148, R161): the head completes, and the next admitted batch becomes head. The last batch of a repetition waits for the
control word to have acted. Batches that a stop, a gate or the end of the invocation has taken out of turn are never committed: their squash
comes first (05: R163, R166). -/
def execEpochCommit (pl : Nat) (s : State) : Out :=
  match s.pipe? pl with
  | none => .next s
  | some p =>
    match p.batches with
    | [] => .next s
    | b :: rest =>
      let v := (p.inv? b.inv).getD { seq := 0, mailbox := 0, nb := 1, bases := [], repeatMax := 1 }
      let lastRep := armRepeat p.arm && b.index + 1 == v.nb
      let acted := !lastRep || v.ending.isSome || decide (b.rep < v.reps) || p.drainStop
      let squashDue := !rest.isEmpty && (p.drainStop || p.gateStop || p.endedAhead)
      if p.batchDone b && acted && !squashDue then
        let counts := v.ending.isSome || b.rep == v.reps
        let p := { p with
          batches := rest
          loadsDone := p.loadsDone.filter (fun x => !(ldWhen p.arm x.1 == 2 && x.2 == b.epoch))
          sources := p.sources.map (fun (x : Nat × SrcState) => (x.1, { x.2 with done := x.2.done.erase b.epoch })) }
        let p := p.mapInv b.inv (fun v =>
          let done := v.done + b2n counts
          { v with done := done, reps := if !armRepeat p.arm ∧ done = v.nb then 1 else v.reps })
        let s := s.setPipe pl p
        let s := match rest with
          | [] => s
          | c :: _ => s.commitEpoch pl c.epoch
        .next (s.wantLoads pl).gateSettle
      else .next s

/-! ### Admission (04: R135, R138, R141; 05: R146, R150) -/

/-- Does the partition's waypoint allow the invocation (05: R168)? -/
def State.afterOk (s : State) (p : Pipe) (v : Inv) : Bool :=
  match v.after with
  | none => true
  | some w => match s.waypointHeld (s.tagOfPart p.partition) with
    | none => false
    | some x => x == w || serialNewer 48 x w

/-- A token at every source. -/
def Pipe.tokensOk (p : Pipe) : Bool := (List.range (armNSource p.arm)).all (fun i => decide (65536 ≤ (p.src i).level))

/-- A batch let in under the next epoch, marked where a gap follows it. -/
def State.admitBatch (s : State) (pl : Nat) (p : Pipe) (v : Inv) (rep idx : Nat) : State :=
  let e := p.epochNext
  let n := p.sinceGap + 1
  let gap := armGap p.arm != 0 && decide (armGap p.arm ≤ n)
  let b : Batch := { epoch := e, inv := v.seq, index := idx, rep := rep, gap := gap, unit := p.unitNext }
  let s := s.setPipe pl { p with
    epochNext := addMod 16 e 1, unitNext := p.unitNext + 1, batches := p.batches ++ [b], sinceGap := if gap then 0 else n
    gap := if gap then .marked else p.gap, gapPassed := if gap then [] else p.gapPassed }
  let s := s.wantFeeds pl v.seq
  let s := if p.batches.isEmpty then s.commitEpoch pl e
    else if p.runAhead = 0 then s
    else s.hintBatch pl b v.predict
  s.wantLoads pl

/-- BATCH_ADMISSION (04: R135, R138; 05: R146, R150, R168; 08: R271: none in STANDBY). Buckets are full at the start of each invocation. -/
def execBatchAdmission (pl : Nat) (s : State) : Out :=
  match s.pipe? pl with
  | none => .next s
  | some p =>
    match p.nextBatch with
    | none => .next s
    | some (v, rep, idx) =>
      let p := if v.admitted = 0 then
          { p with sources := (List.range (armNSource p.arm)).map (fun i => (i, { p.src i with level := bucketFull p.arm i })) }
        else p
      let ok := p.st == .running && s.fab.twin != .standby && !p.drainStop && !p.gateStop && p.gap == .none && p.readmit.isEmpty && !p.endedAhead &&
        decide (p.batches.length ≤ p.runAhead) && p.tokensOk && s.afterOk p v && p.loadsFor v rep idx
      if ok then .next (s.admitBatch pl (p.mapInv v.seq (fun v => { v with admitted := v.admitted + 1 })) v rep idx) else .next s

/-! ### Squash (05: R163 to R166) -/

/-- Saved rows of squashed epochs put back, youngest epoch first. -/
def restoreUndo (us : List UndoRow) (store : Store) : Store :=
  us.reverse.foldl (fun m u => Store.writeN m (4096 * u.row) u.bytes) store

/-- Input records of squashed epochs that wait in the FIFOs of a stage. -/
def Pipe.fifoKeys (p : Pipe) (i : Nat) : List Nat := (connected p.arm i).flatMap (producers p.arm i)

/-- What one stage does at a squash: records, flags, held stores and atomics go, undo rows come back. -/
def State.squashStage (s : State) (pl : Nat) (p : Pipe) (i : Nat) (gone : List Nat) : State :=
  let k := p.stg i
  let keys := p.fifoKeys i
  let n := (keys.map (fun key => ((p.str key).fifo.filter (fun r => gone.contains r.epoch)).length)).sum +
    (p.batches.map (fun b => if gone.contains b.epoch then Tbl.getD b.taken i 0 else 0)).sum
  let mid := ((p.cur i).map (fun b => gone.contains b.epoch)).getD false
  let s := (s.bumpStage k 6 n).onPipe pl (fun q =>
    keys.foldl (fun acc key =>
      let x := acc.str key
      let left := x.fifo.filter (fun r => !gone.contains r.epoch)
      acc.setStr key { x with fifo := left, due := if 256 ≤ key then x.due else x.due + (x.fifo.length - left.length) }) q)
  s.onStage k (fun x =>
    let v := x.v
    let out := v.undo.filter (fun u => gone.contains u.epoch)
    let pos := match v.snaps.find? (fun t => gone.contains t.1) with
      | some t => t.2
      | none => v.pos
    let v := { v with undo := v.undo.filter (fun u => !gone.contains u.epoch), pos := pos
                      snaps := v.snaps.filter (fun t => !gone.contains t.1) }
    let taking := ((p.batches.find? (fun b => !b.stagesDone.contains i && !x.g.ended.contains b.epoch)).map (fun b => gone.contains b.epoch)).getD true
    let x := { x with
      store := restoreUndo out x.store
      pendFlags := x.pendFlags.filter (fun f => !gone.contains f.1)
      g := x.g.discard gone.contains, v := v }
    if stTypeOf (p.ent i) ≠ 2 then (if mid then x.nextBatch else x)
    else
      let x := if mid then { x with outbox := [], g := { x.g with curRow := none } } else x
      if taking then { x.nextInputs with g := { x.g with pos := 0, loaded := 0, loadDone := false, histNow := [], rowPtrs := [] } } else x)

/-- The epochs of a list of batches squashed. With `readmit` the oldest is admitted again as head and the younger ones, with what waited to be
admitted again before, in turn. What a squash takes back is as if it had never been admitted: tokens, and without `readmit` the admission itself
(05: R145). -/
def State.squash (s : State) (pl : Nat) (bs : List Batch) (counter : Nat) (readmit : Bool) : State :=
  match s.pipe? pl, bs with
  | some p, b0 :: more =>
    let gone := bs.map (·.epoch)
    let sq := fun (b : Batch) => (p.idxs.map (fun i => Tbl.getD b.taken i 0 +
      ((p.fifoKeys i).map (fun key => ((p.str key).fifo.filter (fun r => r.epoch == b.epoch)).length)).sum)).sum
    let s := p.idxs.foldl (fun acc i => acc.squashStage pl p i gone) s
    let s := { s with held := s.held.map (fun (h : Nat × List HeldStore) =>
      (h.1, h.2.filter (fun x => !(x.pipe == pl && gone.contains x.epoch)))) }
    let s := s.dropGrants pl (fun g => !g.feed && ldWhen p.arm g.item.1 == 2 && gone.contains g.item.2)
    let s := { s with chanQueue := s.chanQueue.map (fun (q : Nat × List ChanReq) => (q.1, q.2.filter (fun r =>
      !(r.pipe == pl && !r.feed && r.items.any (fun x => ldWhen p.arm x.1 == 2 && gone.contains x.2))))) }
    let keep := fun (x : Nat × Nat) => !(ldWhen p.arm x.1 == 2 && (gone.contains x.2 || x.2 == p.epochNext))
    let back := fun (q : Pipe) (i : Nat) => q.mapInv i (fun v => { v with admitted := v.admitted - 1 })
    let ends := fun (i : Nat) => bs.any (fun b => b.inv == i) || p.drainStop
    let gapGone := bs.any (·.gap)
    let s := (s.tellDies pl 1 b0.epoch).onPipe pl (fun q =>
      let q := bs.foldl (fun acc b => acc.mapInv b.inv (fun v => { v with squashed := v.squashed + sq b, tokens := v.tokens - b.tokens })) q
      let q := (if readmit then more else bs).foldl (fun acc b => back acc b.inv) q
      let q := (q.readmit.filter (fun r => readmit || ends r.1)).foldl (fun acc r => back acc r.1) q
      { q with
        batches := q.batches.filter (fun b => !gone.contains b.epoch), unitNext := b0.unit
        readmit := if readmit then [(b0.inv, b0.rep, b0.index)] else q.readmit.filter (fun r => !ends r.1)
        sources := q.sources.map (fun (x : Nat × SrcState) =>
          let cur := (q.batches.find? (fun b => !x.2.done.contains b.epoch)).map (·.epoch)
          (x.1, { x.2 with
            fed := if (cur.map gone.contains).getD false then 0 else x.2.fed
            done := x.2.done.filter (fun e => !gone.contains e) }))
        loadsWait := q.loadsWait.filter keep, loadsDone := q.loadsDone.filter keep
        held := q.held.filter (fun h => !gone.contains h.1), errs := q.errs.filter (fun h => !gone.contains h.1)
        gone := q.gone ++ bs.map (fun b => (b.epoch, b.inv))
        gap := if gapGone then .none else q.gap
        sinceGap := (if gapGone then armGap q.arm else q.sinceGap) - bs.length })
    s.bumpPipe pl counter 1
  | _, _ => s

/-- EPOCH_SQUASH (05: R163, R164), where its cause stands: a control word that has ended the invocation, a stop in mode DRAIN, an error
held against a run-ahead epoch, a power gate. -/
def execEpochSquash (pl : Nat) (cause : SquashCause) (s : State) : Out :=
  match s.pipe? pl with
  | none => .next s
  | some p =>
    let young := p.batches.drop 1
    let ended := ((p.batches.head?.bind (fun b => p.inv? b.inv)).map (fun v => v.ending.isSome)).getD false
    match cause with
    | .invocationEnd => .next (if p.endedAhead then s.squash pl young 1 false else s)
    | .stopDrain => .next (if p.drainStop then s.squash pl young 2 false else s)
    | .error e =>
      .next (if (young.any (fun b => b.epoch == e)) && (s.heldError p e).isSome then
        (if ended && p.endedAhead then s.squash pl young 1 false else s.squash pl (young.dropWhile (fun b => b.epoch != e)) 3 true)
        else s)
    | .powerGate => .next (if p.gateStop then (s.squash pl young 4 true).gateSettle else s)

/-- BATCH_READMISSION (05: R165): as head, under a new epoch, once no older batch is left. -/
def execBatchReadmission (pl : Nat) (s : State) : Out :=
  match s.pipe? pl with
  | none => .next s
  | some p =>
    match p.readmit with
    | [] => .next s
    | (q, rep, idx) :: _ =>
      match p.inv? q with
      | none => .next s
      | some v =>
        if p.st == .running && !p.drainStop && !p.gateStop && p.gap == .none && p.batches.isEmpty && p.tokensOk && v.ending.isNone then
          .next ((s.admitBatch pl { p with readmit := [] } v rep idx).bumpPipe pl 5 1)
        else .next s

/-- HELD_STORE_RESUME (05: R153): a V-stage stopped for the full buffer goes on once an entry is free. -/
def execHeldStoreResume (st : Nat) (s : State) : Out :=
  if (s.stage st).v.waitHeld && decide ((Tbl.getD s.held (stDie st) []).length < 32768) then
    .next (s.onStage st (fun x => { x with v := { x.v with waitHeld := false } }))
  else .next s

/-! ### Repetitions and invocations (04: R136, R137) -/

/-- REPETITION_END (04: R136): with the last batch of a repetition complete, its control word ends the invocation or starts the next one. -/
def execRepetitionEnd (pl : Nat) (s : State) : Out :=
  match s.pipe? pl with
  | none => .next s
  | some p =>
    match p.batches.head? with
    | none => .next s
    | some b =>
      match p.inv? b.inv with
      | none => .next s
      | some v =>
        let due := armRepeat p.arm && p.batchDone b && b.index + 1 == v.nb && v.controlIn && v.ending.isNone && b.rep == v.reps
        if !due then .next s
        else
          let f : Inv → Inv := fun v =>
            if v.control ≠ 0 then { v with reps := v.reps + 1, ending := some 0, endFlags := 1 }
            else if v.reps + 1 = v.repeatMax then { v with reps := v.reps + 1, ending := some 0, endFlags := 2 }
            else { v with reps := v.reps + 1, done := 0, controlIn := false }
          let over_ := decide (v.control ≠ 0) || v.reps + 1 == v.repeatMax
          .next (s.setPipe pl (({ p with readmit := if over_ then p.readmit.filter (fun r => r.1 ≠ b.inv) else p.readmit } : Pipe).mapInv b.inv f))

/-- INVOCATION_COMPLETE (04: R137, R142, R144): the oldest invocation has ended and every store of it is home. One that a stop in mode DRAIN
met before its last BATCH_END had left every stage ends STOPPED where it has committed a batch, else CANCELLED. -/
def execInvocationComplete (pl : Nat) (s : State) : Out :=
  match s.pipe? pl with
  | none => .next s
  | some p =>
    match p.invs with
    | [] => .next s
    | v :: rest =>
      let left := p.batches.any (fun b => b.inv == v.seq)
      let ok := v.ending.isSome || (!armRepeat p.arm && v.done == v.nb)
      let live := p.st == .running || p.st == .draining
      if live && !left && (ok || p.drainStop) then
        let s := s.endInv pl p v (if ok ∧ v.stopped = false then 0 else if v.done = 0 ∧ v.reps = 0 then 7 else 1) (faultOf none 0)
        let s := s.dropGrants pl (fun g => g.feed && g.item.2 == v.seq)
        let s := { s with chanQueue := s.chanQueue.map (fun (q : Nat × List ChanReq) => (q.1, q.2.filter (fun r =>
          !(r.pipe == pl && r.feed && r.items.any (fun x => x.2 == v.seq))))) }
        let stop := rest.isEmpty
        let s := s.onPipe pl (fun q => { q with
          invs := rest, readmit := q.readmit.filter (fun x => x.1 != v.seq), gone := q.gone.filter (fun x => x.2 != v.seq)
          st := if stop then .idle else q.st, drainStop := if stop then false else q.drainStop
          stopWait := if stop then [] else q.stopWait })
        if stop then .next ((s.stagesTo p .bound).answerStops p 0).gateSettle else .next (s.wantLoads pl).gateSettle
      else .next s

/-! ### Gaps (04: R141) -/

/-- GAP_OPEN (04: R141): the mark has left every stage and every store before it is home; the beacons are told. -/
def execGapOpen (pl : Nat) (s : State) : Out :=
  match s.pipe? pl with
  | none => .next s
  | some p =>
    if p.gap == .marked && p.idxs.all p.gapPassed.contains && p.batches.isEmpty then
      let s := s.setPipe pl { p with gap := .opened, gapReleased := [] }
      .next ((List.range 8).foldl (fun acc b => acc.toUnit
        { typ := 9, tc := 0, partition := p.partition, src := p.home, dst := unitId (16 + b) 0, specific := 0x20
          payload := leBytes 1 pl ++ leBytes 2 (armGapHold p.arm) }) s)
    else .next s

/-- GAP_HOLD_EXPIRY (04: R141). -/
def execGapHoldExpiry (pl : Nat) (s : State) : Out :=
  match s.pipe? pl with
  | none => .next s
  | some p => .next (if p.gap == .opened then s.closeGap pl else s)

/-- GAP_RELEASE (04: R141; 09: R296): the gap closes early once every beacon controller that is up has released it; a controller keeps the notice
while a sight started under it runs. -/
def execGapRelease (pl beacon : Nat) (s : State) : Out :=
  match s.pipe? pl with
  | none => .next s
  | some p =>
    if p.gap == .opened && !(s.beacon beacon).gapSights.any (fun x => x.2 == pl) then
      let s := s.setBeacon beacon { s.beacon beacon with notices := (s.beacon beacon).notices.filter (fun (n : Nat × Nat × Nat) => n.1 ≠ pl) }
      let done := beacon :: p.gapReleased
      let all := (List.range 8).all (fun b => done.contains b || (s.die (16 + b)).life != .up)
      .next (if all then s.closeGap pl else s.setPipe pl { p with gapReleased := done })
    else .next s

/-! ### Power gates (04: R142, R143) -/

/-- Has a batch work left in a domain that waits to be gated? -/
def State.gateBusy (s : State) (p : Pipe) : Bool :=
  p.batches.any (fun b => p.idxs.any (fun i => !b.stagesDone.contains i && s.power.gating.contains (stDie (p.stg i), stDomain (p.stg i))))

/-- DRAIN_TIMEOUT_EXPIRY (04: R143): the drain for a gate has run out with a batch still in the domain; the invocation ends ABORTED_POWER and
the pipeline waits for power. -/
def execDrainTimeoutExpiry (pl : Nat) (s : State) : Out :=
  match s.pipe? pl with
  | none => .next s
  | some p =>
    if p.gateStop && s.gateBusy p && (p.st == .running || p.st == .draining) then .next (s.abortPipe pl 6 .suspended).gateSettle
    else .next s

end Sys2Proof.Machine
end

