-- ==== Sys2Proof/Machine/HelmPipe.lean ====
section
/-!
DEFINITION. Memory commands and pipeline commands of Helm, hard repair on command, and the care of free stages: zeroing, tests, scrubbing
(13: R408 to R411; 04: R120, R132, R135, R142; 06: R190; 03: R72, R74; 16: R479).
-/
namespace Sys2Proof.Machine

open Sys2Proof

/-! ### Loads (04: R132; 13: R408) -/

/-- Is every stage of the pipeline ready to work: no stage test under way and its domain powered (16: R479; 15: R468)? -/
def State.stagesReady (s : State) (p : Pipe) : Bool :=
  p.stgs.all (fun k => !(s.stage k).busyTest && !s.darkStage k)

/-- What a load answers: PIPELINE and RUN_AHEAD. -/
def loadAnswer (pl : Nat) (p : Pipe) : List Byte := leBytes 1 pl ++ leBytes 1 p.runAhead ++ leBytes 2 0

/-- A load that waited answers once its stages are ready. -/
def State.loadReady (s : State) (pl : Nat) : State :=
  match s.pipe? pl with
  | none => s
  | some p =>
    match p.loadWait with
    | none => s
    | some w =>
      if s.stagesReady p then (s.setPipe pl { p with loadWait := none }).answerCmd w 0x0020 0 (loadAnswer pl p) else s

/-- An identifier that is free (04: R117); of several the lowest (assumption 70). -/
def State.freePipe (s : State) : Nat := ((List.range 256).find? (fun n => !Tbl.has s.pipes n)).getD 0

/-- A stage bound at a load: its flags, cause and work cleared (02: R67; 03: R112; 04: R132). -/
def Stage.bound (x : Stage) (pt pl i : Nat) : Stage :=
  { x.cleared with st := .bound, flags := Flags.none, cause := 0, partition := pt, bind := some (pl, i), headEpoch := none }

/-- An armature that has passed validation bound as pipeline `pl` (04: R132; 04: R118 for RUN_AHEAD). -/
def State.bindPipe (s : State) (pl pt weight : Nat) (dieMap : List Nat) (arm : List Byte) : State :=
  let most := ((Tbl.get? s.parts pt).map (·.runAheadMax)).getD 0
  let p : Pipe := { partition := pt, weight := if weight = 0 then 16 else weight, arm := arm, dieMap := dieMap, runAhead := min (armRunAhead arm) most }
  let s := s.setPipe pl { p with streams := p.freshStreams }
  p.idxs.foldl (fun acc i => acc.onStage (p.stg i) (fun x => x.bound pt pl i)) s

/-- LOAD_FAILED with its reason and offset. -/
def loadFailed (reason off : Nat) : List Byte := leBytes 1 reason ++ leBytes 3 0 ++ leBytes 4 off

/-- The die map of a PIPELINE_LOAD payload. -/
def loadMap (p : List Byte) : List Nat := (List.range 12).map (fun n => field p (4 + n) 1)

/-- Validation and binding with the descriptor's bytes at hand. -/
def State.loadArm (s : State) (w : Waiter) (p arm : List Byte) : Ans :=
  let pt := field p 0 1
  match s.validate pt (loadMap p) arm with
  | some (reason, off) => .done 9 (loadFailed reason off) s
  | none =>
    let pl := s.freePipe
    let s := s.bindPipe pl pt (field p 2 1) (loadMap p) arm
    match s.pipe? pl with
    | none => okAns s
    | some q => if s.stagesReady q then .done 0 (loadAnswer pl q) s else .runs (s.setPipe pl { q with loadWait := some w })

/-! ### Memory commands (13: R410) -/

/-- The parts of a run of bytes: each inside one block, with its offset. -/
def runParts (a n : Nat) : List (Nat × Nat × Nat) :=
  (blocksOf a n).map (fun blk =>
    let lo := max a (blk * 256)
    (lo - a, lo, min (a + n) (blk * 256 + 256) - lo))

/-- Does every byte of the run pass the partition's window? -/
def State.runOk (s : State) (pt a n need : Nat) : Bool := (runParts a n).all (fun x => s.windowOk pt x.2.1 x.2.2 need)

/-- A memory command that meets the window anywhere, refused whole: its first violation is counted and logged at PD0, through which the core's
requests enter (08: R238, R240). -/
def State.refuseRun (s : State) (pt a n need : Nat) : Ans :=
  let at_ := (((runParts a n).find? (fun x => !s.windowOk pt x.2.1 x.2.2 need)).map (fun x => x.2.1)).getD a
  errAns 3 (s.violation 0 pt at_ need)

/-- One part's request. -/
def State.askPart (s : State) (pt mb i a : Nat) (k : Ask) : State :=
  s.request { src := exsarUnit, partition := pt, tag := 8192 * mb + i, addr := a } k

/-- A memory command entered and its parts asked for: stores of fewer than 4 bytes read their word first (07: R212; 11: R360). -/
def State.startMem (s : State) (w : Waiter) (code pt a n : Nat) (body : List Byte) (data : Option (List Byte)) : State :=
  let ps := runParts a n
  let ix := (List.range ps.length).zip ps
  let small := fun (x : Nat × Nat × Nat × Nat) => data.isSome && decide (x.2.2.2 < 4)
  let m : MemOp :=
    { seq := w.2, code := code, body := body, waiting := ix.map (fun x => (x.1, x.2.1))
      merge := (ix.filter small).map (fun x => (x.1, x.2.1, slice (data.getD []) x.2.1 x.2.2.2)) }
  let s := { s with helm := { s.helm with memOps := Tbl.set s.helm.memOps w.1 m } }
  ix.foldl (fun acc x =>
    match data with
    | none => acc.askPart pt w.1 x.1 x.2.2.1 (.rd x.2.2.2)
    | some d =>
      if small x then acc.askPart pt w.1 x.1 (x.2.2.1 / 8 * 8) (.rd 8)
      else acc.askPart pt w.1 x.1 x.2.2.1 (.wr (slice d x.2.1 x.2.2.2))) s

/-- The bytes a finished read has brought, in order. -/
def MemOp.bytes (m : MemOp) (n : Nat) : List Byte :=
  (List.range (n + 1)).flatMap (fun off => ((m.parts.find? (fun x => x.1 = off)).map (·.2)).getD [])

/-- MEM_ERROR with FSTATUS and OFFSET. -/
def memErrorAns (e : Nat × Nat) : List Byte := leBytes 1 e.1 ++ leBytes 3 0 ++ leBytes 8 e.2

/-- A memory command whose parts have all ended, answered. -/
def State.endMem (s : State) (mb : Nat) (m : MemOp) : State :=
  let w : Waiter := (mb, m.seq)
  let p := m.body
  let s := { s with helm := { s.helm with memOps := Tbl.erase s.helm.memOps mb } }
  match m.err with
  | some e =>
    let s := if m.code = 0x0029 then s.undefine (field p 0 8 + e.2) (field p 8 4 - e.2) else s
    if m.failover then s.answerCmd w m.code 0xD [] else s.answerCmd w m.code 0xF (memErrorAns e)
  | none =>
    if m.failover then s.answerCmd w m.code 0xD []
    else if m.code = 0x0028 then s.answerCmd w m.code 0 (m.bytes (field p 8 4))
    else if m.code = 0x0020 then
      match s.loadArm w p (m.bytes (field p 0x18 4)) with
      | .done st out t => t.answerCmd w m.code st out
      | .runs t => t
    else s.answerCmd w m.code 0 []

/-- One memory command taken as far as it goes: words that have come are merged and stored, and the last part ends it. -/
def State.stepMem (s : State) (mb : Nat) : State :=
  match Tbl.get? s.helm.memOps mb with
  | none => s
  | some m =>
    let due := m.merge.filter (fun x => !m.waiting.any (fun y => y.1 = x.1))
    let good := due.filter (fun x => m.parts.any (fun y => y.1 = x.2.1))
    let a := field m.body 0 8
    let m1 := { m with
      merge := m.merge.filter (fun x => m.waiting.any (fun y => y.1 = x.1)), waiting := m.waiting ++ good.map (fun x => (x.1, x.2.1))
      parts := m.parts.filter (fun y => !good.any (fun x => x.2.1 = y.1)) }
    let s := { s with helm := { s.helm with memOps := Tbl.set s.helm.memOps mb m1 } }
    let s := good.foldl (fun acc x =>
      let word := ((m.parts.find? (fun y => y.1 = x.2.1)).map (·.2)).getD []
      let at_ := (a + x.2.1) % 8
      acc.askPart (mbPartition mb) mb x.1 ((a + x.2.1) / 8 * 8) (.wr (word.take at_ ++ x.2.2 ++ word.drop (at_ + x.2.2.length)))) s
    match Tbl.get? s.helm.memOps mb with
    | none => s
    | some m2 => if m2.waiting.isEmpty && m2.merge.isEmpty then s.endMem mb m2 else s

/-- Every memory command taken on. -/
def State.stepMems (s : State) : State := (Tbl.keys s.helm.memOps).foldl State.stepMem s

/-- Is a request of the package still open: sent, waiting for a twin, or held back? -/
def State.reqOpen (s : State) (id : Nat) : Bool :=
  s.fab.outstanding.any (fun o => o.reqId == id || o.twin && o.orig == id && o.fromNode.isNone) || s.relayWait.any (fun h => h.id == some id)

/-- WINDOW_SET commands whose requests have all completed are answered (08: R240). -/
def State.endWinWaits (s : State) : State :=
  let overs := fun (w : WinWait) => !w.ids.any s.reqOpen
  let s1 := { s with helm := { s.helm with winWaits := s.helm.winWaits.filter (fun w => !overs w) } }
  (s.helm.winWaits.filter overs).foldl (fun acc w => acc.answerCmd w.waiter 0x0014 0 []) s1

/-- Requests that waited tried again, and the memory commands that they belong to. -/
def State.goOn (s : State) : State := s.retryHeld.retryMirrors.driveColls.stepMems.endWinWaits

/-- MEMORY_READ. -/
def memoryReadRun (w : Waiter) (p : List Byte) (s : State) : Ans :=
  let a := field p 0 8
  let n := field p 8 4
  if 2 ^ 56 < a + n then badAns 0 s
  else if n = 0 ∨ 1048576 < n then badAns 8 s
  else if !s.runOk (ptOf w) a n accRead then s.refuseRun (ptOf w) a n accRead
  else .runs ((s.startMem w 0x0028 (ptOf w) a n p none).stepMem w.1)

/-- MEMORY_WRITE: the payload's DATA is LENGTH bytes. -/
def memoryWriteRun (w : Waiter) (p : List Byte) (s : State) : Ans :=
  let a := field p 0 8
  let n := field p 8 4
  match if p.length < 16 then shortAt [8, 4, 4] 0 p.length else none with
  | some off => badAns off s
  | none =>
    if 2 ^ 56 < a + n then badAns 0 s
    else if n = 0 ∨ 8192 < n then badAns 8 s
    else if p.length ≠ 16 + n then badAns 16 s
    else if !s.runOk (ptOf w) a n accWrite then s.refuseRun (ptOf w) a n accWrite
    else .runs ((s.startMem w 0x0029 (ptOf w) a n p (some (p.drop 16))).stepMem w.1)

def execMemoryRead (mb seq : Nat) (body : List Byte) (s : State) : Out :=
  s.runHelm 0x0028 false (some [8, 4]) mb seq body memoryReadRun

def execMemoryWrite (mb seq : Nat) (body : List Byte) (s : State) : Out :=
  s.runHelm 0x0029 false none mb seq body memoryWriteRun

/-! ### PIPELINE_LOAD (13: R408) -/

/-- PIPELINE_LOAD: an inline descriptor is loaded at once; one in memory is read under the partition's window first. -/
def pipelineLoadRun (w : Waiter) (p : List Byte) (s : State) : Ans :=
  let pt := field p 0 1
  let a := field p 0x10 8
  let n := field p 0x18 4
  match if p.length < 0x20 then shortAt [1, 1, 1, 1, 12, 8, 4, 4] 0 p.length else none with
  | some off => badAns off s
  | none =>
    if !mayName w pt then errAns 6 s
    else if pt = 0 ∨ 15 < pt then badAns 0 s
    else if 1 < field p 1 1 then badAns 1 s
    else if !s.partExists pt then errAns 8 s
    else
      match (List.range 12).find? (fun i => decide (11 < field p (4 + i) 1)) with
      | some i => badAns (4 + i) s
      | none =>
        if field p 1 1 = 0 then s.loadArm w p (p.drop 0x20)
        else if p.length ≠ 0x20 then badAns 0x20 s
        else if 2 ^ 56 < a + n then badAns 0x10 s
        else if !s.runOk pt a n accRead then
          let bad := ((runParts a n).find? (fun x => !s.windowOk pt x.2.1 x.2.2 accRead)).getD (0, a, 0)
          .done 0xF (memErrorAns (1, bad.1)) (s.violation 0 pt bad.2.1 accRead)
        else if n = 0 ∨ 262144 < n then .done 9 (loadFailed 1 8) s
        else .runs ((s.startMem w 0x0020 pt a n p none).stepMem w.1)

def execPipelineLoad (mb seq : Nat) (body : List Byte) (s : State) : Out := s.runHelm 0x0020 false none mb seq body pipelineLoadRun

/-! ### PIPELINE_INVOKE (13: R409) -/

/-- Do entries of the partition's window that grant the access cover every byte of the run? The number bounds the entries joined. -/
def State.covered (s : State) (pt a n need : Nat) : Nat → Bool
  | 0 => false
  | k + 1 =>
    match (((Tbl.get? s.parts pt).map (fun p => Tbl.vals p.window)).getD []).find? (fun e => e.grants (nodeOf a) (localOf a) 1 need) with
    | none => false
    | some e =>
      let m := e.limit + 1 - localOf a
      if n ≤ m then true else s.covered pt (a + m) (n - m) need k

/-- Is a region's base aligned and its run inside the partition's window with the declared access (04: R120)? -/
def State.baseOk (s : State) (pt : Nat) (arm : List Byte) (r base : Nat) : Bool :=
  base % 2 ^ regAlign arm r == 0 && !s.spillHit base (regLength arm r) &&
    [0, 1, 2, 4].all (fun m => (m != 0 && Nat.land (regAccess arm r) m == 0) || s.covered pt base (regLength arm r) m 64)

/-- Does a command that names the pipeline have to be turned away, or meet a load in progress? -/
def State.pipeStop (s : State) (w : Waiter) (pl : Nat) : Option Nat :=
  match s.pipe? pl with
  | none => some 8
  | some p => if !mayName w p.partition then some 6 else if p.loadWait.isSome then some 2 else none

/-- PIPELINE_INVOKE: R120, R135, R142 and R387, in that order. -/
def pipelineInvokeRun (w : Waiter) (q : List Byte) (s : State) : Ans :=
  let pl := field q 0 1
  let fl := field q 3 1
  match if q.length < 16 then shortAt [1, 1, 1, 1, 4, 2, 6] 0 q.length else none with
  | some off => badAns off s
  | none =>
    match s.pipeStop w pl, s.pipe? pl with
    | some st, _ => errAns st s
    | none, none => errAns 8 s
    | none, some p =>
      let n := armNRegion p.arm
      let bases := (List.range n).map (fun i => field q (16 + 8 * i) 8 % 2 ^ 56)
      let mb := 8 * p.partition + field q 1 1
      if 7 < field q 1 1 then badAns 1 s
      else if field q 4 4 = 0 then badAns 4 s
      else if bit 2 fl && field q 8 2 == 0 then badAns 8 s
      else if q.length ≠ 16 + 8 * n then badAns 16 s
      else if !(List.range n).all (fun i => s.baseOk p.partition p.arm i (bases.getD i 0)) then errAns 3 s
      else if 4 ≤ p.invs.length || s.fab.twin == .standby then errAns 4 s
      else if p.st != .idle && p.st != .running then errAns 4 s
      else if 256 ≤ (s.mbox mb).reserved then errAns 2 s
      else
        let no := addMod 32 p.invNext 1
        let v : Inv :=
          { seq := no, mailbox := field q 1 1, nb := field q 4 4, bases := bases
            repeatMax := if bit 2 fl then field q 8 2 else armRepeatMax p.arm
            after := if bit 1 fl then some (field q 10 6) else none
            predict := if bit 0 fl then field q 2 1 % 4 else 3 }
        let s := s.setMbox mb { s.mbox mb with promised := (s.mbox mb).promised + 1 }
        let s := s.setPipe pl { p with invs := p.invs ++ [v], invNext := no, st := .running }
        let s := p.stgs.foldl (fun acc k => acc.onStage k (fun x => if x.st == .bound then { x with st := .running } else x)) s
        .done 0 (leBytes 4 no) (s.wantLoads pl)

def execPipelineInvoke (mb seq : Nat) (body : List Byte) (s : State) : Out := s.runHelm 0x0021 false none mb seq body pipelineInvokeRun

/-! ### PIPELINE_STOP (13: R411; 04: R142) -/

/-- A stop of a suspended pipeline in mode DRAIN: the invocation that has begun ends STOPPED, the others CANCELLED. -/
def State.stopSuspended (s : State) (pl : Nat) (p : Pipe) : State :=
  let s := p.invs.foldl (fun acc v =>
    acc.endInv pl p v (if v.done = 0 ∧ v.reps = 0 ∧ v.admitted = 0 then 7 else 1) (faultOf none 0)) s
  let s := (s.dropGrants pl (fun g => g.feed)).dropChanReqs pl
  s.onPipe pl (fun q => { q with invs := [], readmit := [], gone := [], powerIdle := true })

/-- Has the last BATCH_END of the invocation left every stage (04: R144)? With REPEAT the last is that of the repetition whose control word
ends it. -/
def Pipe.lastLeft (p : Pipe) (v : Inv) : Bool :=
  let left := (p.batches.filter (fun b => b.inv = v.seq)).all (fun b => p.idxs.all b.stagesDone.contains)
  let all := if armRepeat p.arm then
      v.ending.isSome || (v.controlIn && v.admitted == (v.reps + 1) * v.nb && (v.control != 0 || v.reps + 1 == v.repeatMax))
    else v.admitted == v.nb
  left && all && p.readmit.isEmpty

/-- What a stop in mode DRAIN makes of a running pipeline. -/
def Pipe.drain (p : Pipe) (w : Waiter) : Pipe :=
  { p with st := .draining, drainStop := true, stopWait := p.stopWait ++ [w]
           invs := p.invs.map (fun v => if p.lastLeft v then v else { v with stopped := true }) }

/-- PIPELINE_STOP, MODE 0 DRAIN. -/
def stopDrainRun (w : Waiter) (q : List Byte) (s : State) : Ans :=
  let pl := field q 0 1
  match s.pipeStop w pl, s.pipe? pl with
  | some st, _ => errAns st s
  | none, none => errAns 8 s
  | none, some p =>
    match p.st with
    | .idle => okAns s
    | .running =>
      let s := s.onPipe pl (fun x => x.drain w)
      .runs (p.stgs.foldl (fun acc k => acc.onStage k (fun x => if x.st == .running then { x with st := .draining } else x)) s)
    | .draining => .runs (s.onPipe pl (fun x => { x with stopWait := x.stopWait ++ [w] }))
    | .suspended => okAns (s.stopSuspended pl p)
    | .failed | .releasing => errAns 4 s

/-- PIPELINE_STOP, MODE 1 ABORT. -/
def stopAbortRun (w : Waiter) (q : List Byte) (s : State) : Ans :=
  let pl := field q 0 1
  match s.pipeStop w pl, s.pipe? pl with
  | some st, _ => errAns st s
  | none, none => errAns 8 s
  | none, some p =>
    match p.st with
    | .idle => okAns s
    | .running | .draining => okAns (s.abortPipe pl 2 .idle)
    | .suspended => okAns (s.abortPipe pl 2 .suspended)
    | .failed | .releasing => errAns 4 s

def execPipelineStopDrain (mb seq : Nat) (body : List Byte) (s : State) : Out :=
  s.runMode 0x0022 false (some [1, 1, 2]) 1 0 1 mb seq body stopDrainRun

def execPipelineStopAbort (mb seq : Nat) (body : List Byte) (s : State) : Out :=
  s.runMode 0x0022 false (some [1, 1, 2]) 1 1 1 mb seq body stopAbortRun

/-! ### PIPELINE_QUERY and PIPELINE_RELEASE -/

/-- PIPELINE_QUERY: by identifier, or the lowest of the mailbox's partition (of any, for PT0) with the ARMATURE_ID. -/
def pipelineQueryRun (w : Waiter) (q : List Byte) (s : State) : Ans :=
  let byId := field q 0 1 == 0
  let found : Option (Nat × Pipe) :=
    if byId then (s.pipe? (field q 1 1)).map (fun p => (field q 1 1, p))
    else s.pipes.find? (fun x => mayName w x.2.partition && armId x.2.arm == field q 4 8)
  if 1 < field q 0 1 then badAns 0 s
  else
    match found with
    | none => errAns 8 s
    | some (pl, p) =>
      if !mayName w p.partition then errAns 6 s
      else .done 0 (leBytes 1 pl ++ leBytes 1 p.st.code ++ leBytes 1 p.invs.length ++ leBytes 1 0 ++ leBytes 8 (armId p.arm) ++
        leBytes 4 p.invNext ++ leBytes 4 0 ++ (List.range 12).flatMap (fun i => leBytes 8 (Tbl.getD p.counters i 0))) s

def execPipelineQuery (mb seq : Nat) (body : List Byte) (s : State) : Out :=
  s.runHelm 0x0023 false (some [1, 1, 2, 8]) mb seq body pipelineQueryRun

/-- PIPELINE_RELEASE: every stage goes to ZEROING, one of a fenced die or one that failed its test stays FENCED (03: R74; 16: R479). -/
def pipelineReleaseRun (w : Waiter) (q : List Byte) (s : State) : Ans :=
  let pl := field q 0 1
  match s.pipeStop w pl, s.pipe? pl with
  | some st, _ => errAns st s
  | none, none => errAns 8 s
  | none, some p =>
    if p.st != .idle && p.st != .failed then errAns 4 s
    else
      let s := (s.discardAll pl).onPipe pl (fun x => { x with st := .releasing, releaseWait := some w })
      let s := p.stgs.foldl (fun acc k => acc.onStage k (fun x =>
        if x.st == .fenced then { x with bind := none, partition := 0 } else { x with st := .zeroing })) s
      .runs (s.releaseDone pl)

def execPipelineRelease (mb seq : Nat) (body : List Byte) (s : State) : Out :=
  s.runHelm 0x0024 false (some [1, 3]) mb seq body pipelineReleaseRun

/-! ### Care of stages (03: R72, R74; 16: R479) -/

/-- A stage as the reports name it: die, TYPE and INDEX (04: R137). -/
def stageName (k : Nat) : List Byte := leBytes 1 (stDie k) ++ leBytes 1 (16 * stType k + stIndex k)

/-- STAGE_ZEROING_DONE (03: R74): the store holds zero; a stage that a failed pipeline holds stays BOUND (07: R227), any other is FREE and is
tested. -/
def execStageZeroingDone (st : Nat) (s : State) : Out :=
  let x := s.stage st
  if x.st == .zeroing then
    let held := match x.bind with
      | none => none
      | some (pl, _) => (s.pipe? pl).bind (fun (p : Pipe) => if p.st == PipeSt.releasing then none else some pl)
    match held with
    | some _ => .next (s.setStage st { x.cleared with store := {}, st := .bound })
    | none =>
      let s1 := s.setStage st { x.cleared with store := {}, st := .free, bind := none, partition := 0, busyTest := true }
      .next (match x.bind with
        | some (pl, _) => s1.releaseDone pl
        | none => s1)
  else .next s

/-- A load that waits on a stage which has failed its test is undone: LOAD_FAILED with STAGE_UNAVAILABLE. -/
def State.loadRefused (s : State) (pl k : Nat) : State :=
  match s.pipe? pl with
  | none => s
  | some p =>
    match p.loadWait with
    | none => s
    | some w =>
      let i := (p.idxs.find? (fun i => p.stg i == k)).getD 0
      let s := p.stgs.foldl (fun acc j => acc.onStage j (fun x =>
        { x with st := if x.st == .fenced then .fenced else .free, bind := none, partition := 0 })) s
      ({ s with pipes := Tbl.erase s.pipes pl }).answerCmd w 0x0020 9 (loadFailed 3 (offStage p.arm i))

/-- STAGE_TEST_DONE (16: R479). -/
def execStageTestDone (st : Nat) (pass : Bool) (s : State) : Out :=
  let x := s.stage st
  if !x.busyTest then .next s
  else if pass then
    let s := s.setStage st { x with busyTest := false, lastPass := s.now (stDie st) }
    .next (match x.bind with
      | some (pl, _) => s.loadReady pl
      | none => s)
  else
    let s := s.setStage st { x with busyTest := false, st := .fenced }
    let s := s.logOnly 0x0112 (stId st) (stageName st ++ leBytes 8 x.lastPass)
    .next (match x.bind with
      | some (pl, _) => s.loadRefused pl st
      | none => s)

/-- STAGE_TEST_INTERVAL_EXPIRY (16: R479): a stage that has stayed FREE is tested. -/
def execStageTestIntervalExpiry (st : Nat) (s : State) : Out :=
  let x := s.stage st
  .next (if x.st == .free then s.setStage st { x with busyTest := true } else s)

/-- SCRUB_WALKER_VISIT (03: R72): a corrected word is counted; an uncorrectable one is a fault of a bound stage, and in a FREE stage is
written back as zero and logged. -/
def execScrubWalkerVisit (st word : Nat) (ls : LsRead) (s : State) : Out :=
  let x := s.stage st
  match ls with
  | .clean => .next s
  | .corrected => .next ((s.onStage st (fun y => { y with lsCe := true })).bumpStage st 14 1)
  | .uncorrectable =>
    if x.st == .free then
      let s := s.onStage st (fun y => { y with store := Store.writeN y.store (8 * word) (List.replicate 8 0) })
      .next (s.logOnly 0x0115 (stId st) (stageName st ++ leBytes 4 (8 * word)))
    else if x.bind.isSome && x.st != .zeroing && x.st != .fenced then .next (s.stageFault st 1)
    else .next s

/-! ### Hard repair on command (06: R190) -/

/-- HBM_REPAIR. -/
def hbmRepairRun (w : Waiter) (q : List Byte) (s : State) : Ans :=
  let k := field q 0 1
  if 31 < k then badAns 0 s
  else if (s.stack k).hardRepair.isSome then errAns 2 s
  else if !hardRange (s.stack k).tempQ then errAns 5 s
  else if (Tbl.vals s.pipes).any (fun p => p.st == .running || p.st == .draining || p.st == .suspended) then errAns 4 s
  else if (s.pendingRows k).isEmpty then .done 0 (leBytes 2 0 ++ leBytes 2 0) s
  else .runs (s.setStack k { s.stack k with hardRepair := some w, hardProgrammed := 0 })

def execHbmRepair (mb seq : Nat) (body : List Byte) (s : State) : Out := s.runHelm 0x002A true (some [1, 3]) mb seq body hbmRepairRun

/-- HARD_REPAIR_ROW_DONE (06: R190): the row is programmed; with none left, or out of range, the command ends and the stack serves again.
During a start it is step 11's. -/
def execHardRepairRowDone (stack : Nat) (s : State) : Out :=
  let x := s.stack stack
  if s.starting then .next (if s.boot.phase = 11 then startHardDone s stack else s)
  else
    match x.hardRepair, s.pendingRows stack with
    | some w, r :: _ =>
      let s := { s with nor := { s.nor with repairLog := markHard stack s.nor.repairLog } }
      let left := s.pendingRows stack
      let n := x.hardProgrammed + 1
      let s := s.setStack stack { x with hardProgrammed := n, pending := !left.isEmpty }
      let s := s.post 0x0032 (stackUnit stack) (leBytes 1 stack ++ leBytes 2 r.bank ++ leBytes 4 r.row ++ leBytes 1 1)
      if left.isEmpty || !hardRange x.tempQ then
        let s := s.setStack stack { s.stack stack with hardRepair := none }
        .next ((s.answerCmd w 0x002A 0 (leBytes 2 n ++ leBytes 2 left.length)).goOn)
      else .next s
    | _, _ => .next s

/-- SOFT_REPAIR_DONE (06: R189, R191): the requests that waited for the bank go on. -/
def execSoftRepairDone (stack : Nat) (blocks : Option (List (Nat × ErrPattern × ErrPattern × Bool × Bool))) (s : State) : Out :=
  .next (if (s.stack stack).repairing.isEmpty then s else (s.rowRepaired stack blocks).goOn)

end Sys2Proof.Machine
end

