-- ==== Sys2Proof/Machine/Fabric.lean ====
section
/-!
DEFINITION. Memory requests of other packages, the completions of this one's, twins' mirror traffic, and the lease sweep (08: R239 to R259, R271 to
R273; 10: R337).
-/
namespace Sys2Proof.Machine

open Sys2Proof

/-! ### Requests of other packages at their home -/

/-- The delivered packet a row stands for is taken from its home hub. -/
def State.takeReq (s : State) (ftype : Nat) (q : FabReq) : State :=
  s.takeArrived (fun p => p.ftype == ftype && p.srcNode == q.srcNode && p.reqId == q.reqId && p.addr == q.addr)

/-- RD (08: R239, R241). -/
def execRd (q : FabReq) (s : State) : Out := .next ((s.takeReq 1 q).homeRead q)

/-- WR (08: R242). -/
def execWr (q : FabReq) (payload : List Byte) (s : State) : Out := .next ((s.takeReq 2 q).homeWrite q payload)

/-- FABRIC_ATOMIC (08: R257). -/
def execFabricAtomic (q : FabReq) (payload : List Byte) (s : State) : Out := .next ((s.takeReq 3 q).homeAtomic q payload)

/-- FABRIC_HINT (08: R241, R243). -/
def execFabricHint (q : FabReq) (s : State) : Out := .next ((s.takeReq 4 q).homeHint q)

/-! ### Completions of other packages -/

/-- An outstanding request removed. -/
def State.dropOut (s : State) (id : Nat) : State :=
  { s with fab := { s.fab with outstanding := s.fab.outstanding.filter (fun r => r.reqId ≠ id) } }

/-- The block of a fill installed where the waypoint and later stores allow, and counted as stale otherwise (08: R246, R253, R255). -/
def State.fill (s : State) (r : OutReq) (block : List Byte) : State :=
  match r.waypoint with
  | none => s
  | some w =>
    if r.stale || s.waypointOf r.hallTag != some w then s.bumpCache r.plinth 3 1
    else
      let fixed := s.fixedFill r.hallTag r.addr && s.fixedLimit != 0
      let x : CacheLine :=
        { hallTag := r.hallTag, block := r.addr / 256, st := if fixed then .fixed else .leased w, data := padTo 256 block, age := 0 }
      let c := (s.cache r.plinth).install s.fixedLimit x
      ((s.setCache r.plinth c.1).bumpCache r.plinth 2 1).bumpCache r.plinth 4 c.2

/-- FABRIC_COMPLETION (08: R244, R246): the requested bytes are delivered, a fill is installed, and what waited for the block's route
goes on; a late one is counted. -/
def execFabricCompletion (reqId status : Nat) (data : List Byte) (s : State) : Out :=
  let s := s.takeArrived (fun p => p.ftype == 5 && p.reqId == reqId)
  .next (match s.fab.outstanding.find? (fun r => r.reqId == reqId && !r.twin) with
  | none =>
    match s.fab.closedIds.find? (fun c => c.1 == reqId) with
    | some c => s.bumpCache c.2 7 1
    | none => s
  | some r =>
    let s := s.dropOut reqId
    let whole := r.kind == .rd || r.kind == .hint
    let s := if whole && status == 0 then s.fill r data else s
    let out := if whole then slice data (r.addr % 256) r.len else data
    let s := if r.kind = .hint then s.pumpHints (unitStage r.unit) else s.finish r status out
    s.goOn)

/-- COMPLETION_TIMEOUT_EXPIRY (10: R337; 08: R244, R272): LINK_LOST, or MIRROR_LOST for a twin leg. A second expiry frees the identifier. -/
def execCompletionTimeoutExpiry (reqId : Nat) (s : State) : Out :=
  .next (match s.fab.outstanding.find? (fun r => r.reqId == reqId) with
  | none => { s with fab := { s.fab with closedIds := s.fab.closedIds.filter (fun c => c.1 ≠ reqId) } }
  | some r =>
    let s := s.dropOut reqId
    let s := { s with fab := { s.fab with closedIds := s.fab.closedIds ++ [(reqId, r.plinth)] } }
    let s := if r.kind = .hint then s.pumpHints (unitStage r.unit)
      else if r.twin then s.finish { r with reqId := r.orig } 9 []
      else s.finish r 3 []
    s.goOn)

/-! ### Twins -/

/-- MIRROR_WR (08: R271, R273; 06: R194). -/
def execMirrorWr (q : FabReq) (payload : List Byte) (s : State) : Out :=
  let s := s.takeReq 6 q
  .next (if s.fab.twin != .standby then { s with fab := { s.fab with mirrorDiscards := s.fab.mirrorDiscards + 1 } }
  else s.homeMirror q payload)

/-- MIRROR_ACK (08: R272): the mirrored request completes. -/
def execMirrorAck (reqId : Nat) (s : State) : Out :=
  let s := s.takeArrived (fun p => p.ftype == 7 && p.reqId == reqId)
  .next (match s.fab.outstanding.find? (fun r => r.reqId == reqId && r.twin) with
  | none => s
  | some r => ((s.dropOut reqId).finish { r with reqId := r.orig } 0 r.data).goOn)

/-! ### Leases -/

/-- LEASE_SWEEP (08: R247, R251): LEASED lines whose stamp is not their tag's waypoint go back to INVALID. -/
def execLeaseSweep (plinth : Nat) (s : State) : Out :=
  let old := fun (l : CacheLine) =>
    match l.st with
    | .fixed => false
    | .leased w => s.waypointOf l.hallTag != some w
  let n := ((s.cache plinth).lines.filter old).length
  .next ((s.dropLines plinth old).bumpCache plinth 5 n)

end Sys2Proof.Machine
end

