-- ==== Sys2Proof/Machine/Tenders.lean ====
section
/-!
DEFINITION. The tenders: descriptors, the read and write engines, the funnel, CRCs, request lines, pauses, aborts and write-backs
(11; 12: R390 to R392).
-/
namespace Sys2Proof.Machine

open Sys2Proof

/-! ### Malformed descriptors (11: R352, R358, R369, R591) -/

/-- May a channel of the plinth and owner use this LSTORE span? -/
def State.lsOk (s : State) (p owner a n extra : Nat) : Bool :=
  let t := bits 39 38 a
  bits 31 25 a == 0 && bits 63 44 a == 0 && decide (lsDie a < 12) && lsDie a / 3 == p &&
    decide (bits 37 32 a < typeCount t) && lsOffset a % 64 == 0 && n % 64 == 0 &&
    decide (lsOffset a + n + extra ≤ lsSize t) && owner != 0 &&
    bit (lsStage a) (((Tbl.get? s.parts owner).map (·.stageSet)).getD 0)

/-- Is every byte of the package's own run in a mirrored region? The number bounds the entries joined. -/
def State.mirrorCovers (s : State) (l n : Nat) : Nat → Bool
  | 0 => false
  | k + 1 =>
    match (s.parts.flatMap (fun (p : Nat × Partition) => Tbl.vals p.2.window)).find? (fun e =>
        decide (e.nodeLo ≤ s.ownNode) && decide (s.ownNode ≤ e.nodeHi) && bit 4 e.access && decide (e.base ≤ l) && decide (l ≤ e.limit)) with
    | none => false
    | some e => if l + n ≤ e.limit + 1 then true else s.mirrorCovers (e.limit + 1) (l + n - (e.limit + 1)) k

/-- The lines a plinth has. -/
def lineOk (p line : Nat) : Bool := (decide (16 ≤ line) && decide (line ≤ 21)) || (p == 0 && (decide (line < 16) || line == 22))

/-- A descriptor that ends BAD with MALFORMED. -/
def State.malformed (s : State) (p owner : Nat) (d : List Byte) : Bool :=
  let n := dLen d
  let src := dSrcSpace d
  let dst := dDstSpace d
  let lines := (if dPaced d then [dReqLine d] else []) ++ (if src = 2 then [dSrc d % 32] else [])
  n == 0 || decide (2 ^ 40 < n) || bits 15 14 (dCtrl d) != 0 || bits 31 24 (dCtrl d) != 0 || field d 6 2 != 0 || field d 0x34 4 != 0 ||
    dCrcMode d == 3 || dNextKind d == 3 || decide (4 < src) || decide (1 < dst) || !lines.all (lineOk p) ||
    (dPaced d && (decide (dBurst d < 64) || decide (65536 < dBurst d) || dBurst d % 64 != 0)) ||
    ((src == 0 || src == 4) && bits 63 56 (dSrc d) != 0) ||
    (src == 1 && !s.lsOk p owner (dSrc d) n 0) ||
    (src == 4 && (dSrc d % 256 != 0 || n % 256 != 0 || !s.isLocal (dSrc d) || !s.mirrorCovers (localOf (dSrc d)) n 480)) ||
    (src != 4 && dst == 0 && bits 63 56 (dDst d) != 0) ||
    (src != 4 && dst == 1 && !s.lsOk p owner (dDst d) n (dExtra d))

/-! ### Places -/

def State.tender (s : State) (p : Nat) : Tender := Tbl.getD s.tenders p {}
def State.setTender (s : State) (p : Nat) (t : Tender) : State := { s with tenders := Tbl.set s.tenders p t }

/-- A counter of a channel advanced: the first four are 64 bits wide (11: R373; 21: R572). -/
def State.bumpChan (s : State) (k i n : Nat) : State :=
  let c := s.chan k
  let s' := s.setChan k { c with counters := bumpTbl c.counters i (if i < 4 then 64 else 32) n }
  if i < 4 then s' else s'.satBump c.counters i n (tenderUnit (k / 64)) (svcAddr (12 + k / 64) 5 (0x100 * (k % 64) + 0x58 + 4 * (i - 4)))

/-- The channels of a plinth. -/
def State.chansOf (s : State) (p : Nat) : List Chan := (s.chans.filter (fun (x : Nat × Chan) => x.1 / 64 = p)).map (fun x => x.2)

/-- Buffer bytes a channel holds: a slot for each outstanding read, and data not yet written (11: R350). -/
def Chan.holds (c : Chan) : Nat :=
  256 * c.reads.length + c.ready.length + (c.early.map (fun e => e.2.length)).sum + (c.merging.map (fun m => m.data.length)).sum +
    (c.stores.map (·.len)).sum

/-- Buffer slots in use in a plinth's tender (11: R349, R373). -/
def State.slotsUsed (s : State) (p : Nat) : Nat := ((s.chansOf p).map (fun c => (c.holds + 255) / 256)).sum

/-- The first tag from `t` on that no outstanding request of the tender holds. -/
def freeTag (used : List Nat) : Nat → Nat → Nat
  | 0, t => t
  | n + 1, t => if used.contains t then freeTag used n ((t + 1) % 65536) else t

/-- A tag for a tender's next request. -/
def State.tenderTag (s : State) (p : Nat) : Nat × State :=
  let used := (s.chansOf p).flatMap (fun c => c.reads.map (·.tag) ++ c.stores.map (·.tag) ++ c.wbacks.map (·.1))
  let t := freeTag used 65535 (s.tender p).nextTag
  (t, s.setTender p { s.tender p with nextTag := (t + 1) % 65536 })

/-! ### The current descriptor -/

/-- Is the descriptor in hand and neither failed nor aborted? -/
def Chan.moves (c : Chan) : Bool := (c.st == .running || c.st == .pausing) && !c.desc.isEmpty && c.err.isNone && !c.aborting

/-- Source bytes the channel may still ask for: those the line has granted, and in PAUSING only those that complete the 64-byte destination
word in which its data ends (11: R359, R365). -/
def Chan.mayAsk (c : Chan) : Nat :=
  let left := dLen c.desc - c.issued
  let left := if (dLine c.desc).isSome then min left c.credit else left
  let d := c.dstAt c.issued
  if c.st = .pausing then (if c.issued = 0 then 0 else min left ((d + 63) / 64 * 64 - d)) else left

/-- The first error of a descriptor: its reads and unsent data are dropped, its stores waited for (11: R363). -/
def Chan.fail (c : Chan) (status : Nat) : Chan :=
  { c with
    err := match c.err with
      | some e => some e
      | none => some status
    reads := [], early := [], ready := [], merging := [] }

/-- The window a descriptor's run of completed stores reaches, with one more store completed. -/
def Chan.wrote (c : Chan) (off n : Nat) : Chan :=
  let runs := c.doneRuns ++ [(off, n)]
  let step := fun (w : Nat) => match runs.find? (fun r => decide (r.1 ≤ w) && decide (w < r.1 + r.2)) with
    | some r => r.1 + r.2
    | none => w
  let w := runs.foldl (fun w _ => step w) c.written
  { c with written := w, doneRuns := runs.filter (fun r => decide (w < r.1 + r.2)) }

/-! ### Requests -/

/-- One request of a channel, under its owner's window (11: R349). -/
def State.chanAsk (s : State) (k tag a : Nat) (q : Ask) : State :=
  s.request { src := tenderUnit (k / 64), partition := (s.chan k).owner, tag := tag, addr := a } q

/-- An access to a stage's local store, answered at once; DIE_LOST where the die is not up (07: R225). -/
def State.lsAccess (s : State) (k tag a : Nat) (n : Nat) (data : Option (List Byte)) : State :=
  let u := tenderUnit (k / 64)
  let c := s.chan k
  if (s.die (lsDie a)).life != .up then s.complete (hubUnit (k / 64)) c.owner u tag 4 []
  else
    match data with
    | none => s.complete (stId (lsStage a)) c.owner u tag 0 (Store.readN (s.stage (lsStage a)).store (lsOffset a) n)
    | some d => (s.onStage (lsStage a) (fun x => { x with store := Store.writeN x.store (lsOffset a) d })).complete (stId (lsStage a)) c.owner u tag 0 []

/-- One block of a mirrored copy: read at its home and sent to the twin, once nothing keeps the block busy (06: R190; 11: R369; 08: R274). -/
def State.mirrorBlock (s : State) (k tag a : Nat) : State :=
  let c := s.chan k
  let q : UnitReq := { src := tenderUnit (k / 64), partition := c.owner, tag := tag, addr := a }
  if !s.windowOk c.owner a 256 accRead then
    (s.violation (k / 64) c.owner a accRead).complete (hubUnit (k / 64)) c.owner q.src tag 1 []
  else if s.memBusy (localOf a) then s.holdCopy q k else s.serveCopy q k

/-- The pattern's bytes for a run of destination addresses (11: R352). -/
def patternBytes (p d n : Nat) : List Byte := (List.range n).map (fun i => BitVec.ofNat 8 (p / 2 ^ (8 * ((d + i) % 8))))

/-- Bytes taken from a stream's receive queue. -/
def State.takeRxq (s : State) (line n : Nat) : List Byte × State :=
  match Tbl.get? s.helm.bulk line with
  | none => ([], s)
  | some b =>
    let all := b.rxq.flatten
    (all.take n, { s with helm := { s.helm with bulk := Tbl.set s.helm.bulk line { b with
      rxq := if (all.drop n).isEmpty then [] else [all.drop n] } } })

/-- A tag noted as an outstanding read, and `n` source bytes as asked for. -/
def Chan.asked (c : Chan) (n : Nat) (r : Option TReq) : Chan :=
  { c with
    issued := c.issued + n, credit := c.credit - n
    reads := c.reads ++ (match r with
      | some r => [r]
      | none => []) }

/-- One read issued: at most one source block, when the channel's share and the buffer have a slot (11: R349, R350). Answers the bytes
asked for. -/
def State.issueOne (s : State) (k : Nat) : Option (Nat × State) :=
  let c := s.chan k
  let p := k / 64
  let most := c.mayAsk
  if !c.moves || most = 0 || decide (s.setting 0x00040001 < c.holds + 256) || decide (4096 ≤ s.slotsUsed p) then none
  else
    let a := c.srcAt c.issued
    let inBlock := fun (x : Nat) => min most (256 - x % 256)
    match dSrcSpace c.desc with
    | 0 =>
      let n := inBlock a
      let lo := if n < 4 then min a (a / 256 * 256 + 252) else a
      let (tag, s) := s.tenderTag p
      let s := s.onChan k (fun c => c.asked n (some { tag := tag, off := c.issued, len := n, addr := a, skip := a - lo }))
      some (n, s.chanAsk k tag lo (.rd (max 4 (n + (a - lo)))))
    | 1 =>
      let n := inBlock (lsOffset a)
      let (tag, s) := s.tenderTag p
      let s := s.onChan k (fun c => c.asked n (some { tag := tag, off := c.issued, len := n, addr := a }))
      some (n, s.lsAccess k tag a n none)
    | 2 =>
      let line := dSrc c.desc % 32
      let held := ((Tbl.get? s.helm.bulk line).map BulkStream.held).getD 0
      let n := min (inBlock (c.dstAt c.issued)) held
      if 16 ≤ line ∨ n = 0 then none
      else
        let (bs, s) := s.takeRxq line n
        some (n, (s.onChan k (fun c => (c.asked n none).takeIn c.issued bs)).bumpChan k 0 n)
    | 3 =>
      let d := c.dstAt c.issued
      let n := inBlock d
      some (n, (s.onChan k (fun c => (c.asked n none).takeIn c.issued (patternBytes (dSrc c.desc) d n))).bumpChan k 0 n)
    | _ =>
      if most < 256 then none
      else
        let (tag, s) := s.tenderTag p
        let s := s.onChan k (fun c => { (c.asked 256 none) with
          stores := c.stores ++ [{ tag := tag, off := c.issued, len := 256, addr := a }] })
        some (256, s.mirrorBlock k tag a)

/-! ### The funnel (11: R360, R361) -/

/-- The 8-byte words that a run covers only in part, an exact half apart. -/
def sharedWords (a n : Nat) : List Nat :=
  let ws := if (a + n - 1) / 8 = a / 8 then [a / 8 * 8] else [a / 8 * 8, (a + n - 1) / 8 * 8]
  ws.filter (fun w =>
    let lo := max a w
    let hi := min (a + n) (w + 8)
    !((lo == w && hi == w + 8) || (lo == w && hi == w + 4) || (lo == w + 4 && hi == w + 8)))

/-- A block's store sent: its transfer bytes with those that merged words carry. -/
def State.sendBlock (s : State) (k off : Nat) (data : List Byte) (words : Tbl (List Byte)) : State :=
  let c := s.chan k
  let a := c.dstAt off
  let n := data.length
  let head := a / 8 * 8
  let tail := (a + n - 1) / 8 * 8
  let before := if Tbl.has words head then (Tbl.getD words head []).take (a - head) else []
  let after := if Tbl.has words tail then (Tbl.getD words tail []).drop (a + n - tail) else []
  let (tag, s) := s.tenderTag (k / 64)
  let s := s.onChan k (fun c => { c with stores := c.stores ++ [{ tag := tag, off := off, len := n, addr := a }] })
  let s := s.bumpChan k 3 words.length
  if dDstSpace c.desc = 1 then s.lsAccess k tag a n (some data)
  else s.chanAsk k tag (a - before.length) (.wr (before ++ data ++ after))

/-- Words that a partial block shares are read first. -/
def State.askWords (s : State) (k off : Nat) : List Nat → State
  | [] => s
  | w :: ws =>
    let (tag, s) := s.tenderTag (k / 64)
    let s := s.onChan k (fun c => { c with reads := c.reads ++ [{ tag := tag, off := off, len := 8, addr := w, merge := true }] })
    (s.chanAsk k tag w (.rd 8)).askWords k off ws

/-- Bytes of the next store: up to the end of the destination block or of the transfer once they have come, and in PAUSING what has come up
to a 64-byte boundary (11: R360, R365). -/
def Chan.sendable (c : Chan) : Nat :=
  let d := c.dstAt c.sentUpTo
  let n := min (256 - d % 256) (dTotal c.desc - c.sentUpTo)
  if n ≤ c.ready.length then n
  else if c.st = .pausing ∧ c.reads.all (·.merge) ∧ (d + c.ready.length) % 64 = 0 then c.ready.length
  else 0

/-- One destination block sent, or its shared words asked for. -/
def State.sendOne (s : State) (k : Nat) : Option State :=
  let c := s.chan k
  let n := c.sendable
  if !c.moves || n = 0 then none
  else
    let data := c.ready.take n
    let off := c.sentUpTo
    let need := if dDstSpace c.desc = 1 then [] else sharedWords (c.dstAt off) n
    let s := s.onChan k (fun c => { c with ready := c.ready.drop n, sentUpTo := off + n })
    if need.isEmpty then some (s.sendBlock k off data [])
    else some ((s.onChan k (fun c => { c with merging := c.merging ++ [{ off := off, data := data, need := need }] })).askWords k off need)

/-- A channel served for one turn of `budget` bytes. Answers the bytes asked for. -/
def State.serveChan (k : Nat) : Nat → Nat → State → Nat × State
  | 0, _, s => (0, s)
  | n + 1, budget, s =>
    match s.sendOne k with
    | some s => State.serveChan k n budget s
    | none =>
      match (if budget = 0 then none else s.issueOne k) with
      | some (m, s) =>
        let r := State.serveChan k n (budget - m) s
        (m + r.1, r.2)
      | none => (0, s)

/-- A round of the plinth's host channels, each with its quantum of WEIGHT * 4 KiB (11: R350). -/
def State.serveRound (ks : List Nat) (s : State) : Nat × State :=
  ks.foldl (fun (acc : Nat × State) k =>
    let r := State.serveChan k 4096 ((acc.2.chan k).weight * 4096) acc.2
    (acc.1 + r.1, r.2)) (0, s)

def State.serveRounds (ks : List Nat) : Nat → State → State
  | 0, s => s
  | n + 1, s =>
    let r := s.serveRound ks
    if r.1 = 0 then r.2 else State.serveRounds ks n r.2

/-- A plinth's tender served as far as buffer, shares and grants allow. -/
def State.pumpTender (s : State) (p : Nat) : State :=
  State.serveRounds (((s.chans.filter (fun (x : Nat × Chan) => x.1 / 64 = p && decide (x.1 % 64 < 48) && x.2.moves)).map (fun x => x.1))) 256 s

/-! ### Request lines (11: R359) -/

/-- A channel leaves every line of its plinth. -/
def State.leaveLines (s : State) (k : Nat) : State :=
  let t := s.tender (k / 64)
  s.setTender (k / 64) { t with lines := t.lines.map (fun (l : Nat × List Nat) => (l.1, l.2.filter (fun c => c ≠ k % 64))) }

/-- A channel waits for its line, or serves it at once. -/
def State.joinLine (s : State) (k line : Nat) : State :=
  let t := s.tender (k / 64)
  s.setTender (k / 64) { t with lines := Tbl.upd t.lines line [] (fun l => l ++ [k % 64]) }

/-- LINE_WAIT: a PACED descriptor has nothing granted that it has not asked for (11: R371). -/
def Chan.lineWaits (c : Chan) : Bool := c.moves && dPaced c.desc && c.credit == 0 && decide (c.issued < dLen c.desc)

/-! ### Positions (11: R372) -/

/-- SRC_CUR, DST_CUR and REMAIN of the descriptor in hand. -/
def Chan.srcCurNow (c : Chan) : Nat :=
  if c.desc.isEmpty then c.srcCur
  else if dSrcSpace c.desc = 2 ∨ dSrcSpace c.desc = 3 then dSrc c.desc else c.srcAt (min c.written (dLen c.desc))
def Chan.dstCurNow (c : Chan) : Nat := if c.desc.isEmpty then c.dstCur else c.dstAt (min c.written (dLen c.desc))
def Chan.remainNow (c : Chan) : Nat := if c.desc.isEmpty then c.remain else dLen c.desc - c.written

/-- CH_CTRL and CH_STATUS (11: R370, R371). -/
def Chan.ctrlWord (c : Chan) : Nat := b2n c.pause + 2 * b2n c.pausePwr + 2 ^ 8 * c.weight + 2 ^ 16 * c.owner
def Chan.statusWord (c : Chan) : Nat :=
  c.st.code + 8 * b2n c.lineWaits + 16 * b2n c.badSeen + 32 * b2n c.powerSeen + 2 ^ 8 * c.slot + 2 ^ 12 * b2n c.inlineCur

/-! ### Pauses (11: R365, R366) -/

/-- PAUSE commands of a channel that is PAUSED, IDLE or ERROR are answered (13: R412). -/
def State.answerPauses (s : State) (k : Nat) : State :=
  let c := s.chan k
  if c.st == .running || c.st == .pausing then s
  else c.waiters.foldl (fun acc w => acc.answerCmd w 0x0031 0 []) (s.setChan k { c with waiters := [] })

/-- PAUSE and PAUSE_PWR set, and what follows from them. -/
def State.setPause (s : State) (k : Nat) (pause pwr : Bool) : State :=
  let c := s.chan k
  let st := match pause || pwr, c.st with
    | true, .running => ChanSt.pausing
    | false, .pausing => .running
    | false, .paused => .running
    | _, st => st
  (s.setChan k { c with pause := pause, pausePwr := pwr, st := st }).pumpTender (k / 64)

/-! ### Taking a descriptor (11: R355, R356) -/

/-- The state of a channel at the start of a descriptor. -/
def Chan.begins (c : Chan) (d : List Byte) (bad : Bool) : Chan :=
  let mode := dCrcMode d
  let cont := bit 4 (dCtrl d) && !c.first && mode != 0 && c.prevMode == mode
  let gone := cont && (c.broken || !c.prevOk)
  { c with
    desc := d, issued := 0, arrived := 0, reads := [], early := [], ready := [], sentUpTo := 0, merging := [], stores := [], written := 0
    doneRuns := [], err := if bad then some 7 else none, aborting := false, credit := 0, nocrc := gone, broken := c.broken || gone
    crcRun := if cont && !gone then c.crcRun else crcInit mode }

/-- TENDER_CHAIN_ERR with the address concerned: the channel stops in ERROR (11: R364). -/
def State.chainErrorAt (s : State) (k addr : Nat) : State :=
  let c := s.chan k
  let s := s.setChan k { c with
    st := .error, srcCur := c.srcCurNow, dstCur := c.dstCurNow, remain := c.remainNow, desc := [] }
  (s.postFor c.owner 0x0012 (tenderUnit (k / 64)) (leBytes 1 (k / 64) ++ leBytes 1 (k % 64) ++ leBytes 8 addr)).answerPauses k

/-- The same for the descriptor that the channel stands at. -/
def State.chainError (s : State) (k : Nat) : State := s.chainErrorAt k (s.chan k).curDesc

/-- The descriptor that the channel stands at, fetched: status and bytes. A fetch of memory that is kept busy waits. -/
def State.fetchDesc (s : State) (k : Nat) : Option (Nat × List Byte × State) :=
  let c := s.chan k
  let a := s.ownNode * 2 ^ 42 + c.curDesc
  if c.inlineCur then some (0, Tbl.getD c.slots c.slot (List.replicate 64 0), s)
  else if c.curDesc % 64 ≠ 0 then some (7, [], s)
  else if !s.windowOk c.owner a 64 accRead then some (1, [], s.violation (k / 64) c.owner a accRead)
  else if s.relaying (homePlinth c.curDesc) then some (5, [], s)
  else if s.memBusy c.curDesc then none
  else some (s.ctlRead c.curDesc 64)

/-- The channel takes its next descriptor. -/
def State.takeDesc (s : State) (k : Nat) : State :=
  match s.fetchDesc k with
  | none => s
  | some (st, d, s) =>
    if st != 0 then s.chainError k
    else
      let bad := s.malformed (k / 64) (s.chan k).owner d
      let s := s.onChan k (fun c => c.begins d bad)
      let s := match bad, dLine d with
        | false, some line => s.joinLine k line
        | _, _ => s
      s.pumpTender (k / 64)

/-- DESCRIPTOR_START. -/
def execDescriptorStart (plinth chan : Nat) (s : State) : Out :=
  let k := 64 * plinth + chan
  let c := s.chan k
  .next (if chan < 48 && c.desc.isEmpty && (c.st == .running || c.st == .pausing || c.st == .paused) then s.takeDesc k else s)

/-! ### The end of a descriptor (11: R354, R355, R362, R363; 12: R392) -/

/-- The write-back of a descriptor that ends: STATUS, ERR, DONE_BYTES and CRC. False where its store fails at home; in a mirrored region its end waits for
the twin (08: R272). -/
def State.writeBack (s : State) (k status err done crc : Nat) : Bool × State :=
  let c := s.chan k
  let put := fun (d : List Byte) => d.take 4 ++ leBytes 1 status ++ leBytes 1 err ++ slice d 6 0x22 ++ leBytes 8 done ++ slice d 0x30 8 ++ leBytes 8 crc
  if c.inlineCur then (true, s.setChan k { c with slots := Tbl.set c.slots c.slot (put c.desc) })
  else
    let a := s.ownNode * 2 ^ 42 + c.curDesc
    if !s.windowOk c.owner a 64 accWrite then (false, s.violation (k / 64) c.owner a accWrite)
    else if s.inFixed a 64 || s.notIssued c.curDesc 64 || s.relaying (homePlinth c.curDesc) then (false, s)
    else
      let mask := (List.range 64).map (fun i => i == 4 || i == 5 || (decide (0x28 ≤ i) && decide (i < 0x30)) || decide (0x38 ≤ i))
      let s := s.ctlWrite c.curDesc (put c.desc) mask
      if s.mirrors c.curDesc 64 then
        let (tag, s) := s.tenderTag (k / 64)
        let s := s.onChan k (fun c => { c with wbacks := c.wbacks ++ [(tag, c.curDesc)] })
        -- STATUS and ERR in word 0, DONE_BYTES in word 5, CRC in word 7
        (true, s.mirrorOut c.curDesc (0xA1 * 2 ^ (c.curDesc % 256 / 8)) false
          { plinth := homePlinth c.curDesc, unit := tenderUnit (k / 64), tag := tag, reqId := 0, partition := c.owner
            hallTag := s.tagOfPart c.owner, kind := .wr, addr := a, len := 64, aheadOf := s.entryOf (s.tagOfPart c.owner) })
      else (true, s)

/-- Bytes of a receive queue that belong to a descriptor which failed are discarded (12: R392). -/
def State.discardRxq (s : State) (line n : Nat) : State :=
  match Tbl.get? s.helm.bulk line with
  | none => s
  | some b =>
    let all := b.rxq.flatten
    let b' : BulkStream := { b with rxq := if (all.drop n).isEmpty then [] else [all.drop n], discard := b.discard + (n - all.length) }
    { s with helm := { s.helm with bulk := Tbl.set s.helm.bulk line b' } }

/-- The chain of a channel has reached END, or starts anew: its streams learn of it (12: R392). -/
def State.streamsEnd (s : State) (k : Nat) (atEnd : Bool) : State :=
  if k / 64 ≠ 0 then s
  else { s with helm := { s.helm with bulk := s.helm.bulk.map (fun (b : Nat × BulkStream) =>
    if b.2.channel = k then (b.1, { b.2 with atEnd := atEnd }) else b) } }

/-- The descriptor that copies a mirrored span to the twin: SRC_SPACE MIRROR, the end of its chain (11: R369). -/
def copyDesc (node l n : Nat) : List Byte :=
  leBytes 4 0x40000 ++ leBytes 4 0 ++ leBytes 8 n ++ leBytes 8 (node * 2 ^ 42 + l) ++ leBytes 40 0

/-- An idle channel of a resync starts on its next span (08: R274). -/
def State.nextCopy (s : State) (k : Nat) : State :=
  match s.fab.resync with
  | none => s
  | some y =>
    match Tbl.getD y.todo k [] with
    | [] => s
    | (l, n) :: more =>
      let c := s.chan k
      if c.st != .idle || y.failed then s
      else
        let s := { s with fab := { s.fab with resync := some { y with todo := Tbl.set y.todo k more } } }
        s.setChan k { c with
          st := if c.pause || c.pausePwr then .pausing else .running
          rateCap := y.rateCap, slots := Tbl.set c.slots 0 (copyDesc s.ownNode l n), inlineCur := true, slot := 0, curDesc := 0
          desc := [], prevMode := 0, prevOk := true, broken := false, first := true }

/-- A copy of a resync that does not end DONE keeps the resync from ending. -/
def State.copyEnded (s : State) (k status : Nat) : State :=
  match s.fab.resync with
  | none => s
  | some y =>
    if Tbl.has y.todo k && status != 1 then { s with fab := { s.fab with resync := some { y with failed := true } } } else s

/-- A descriptor ends with a STATUS of R354, and the channel takes up what NEXT_KIND names. -/
def State.endDesc (s : State) (k status : Nat) : State :=
  let c := s.chan k
  let d := c.desc
  let ok := status == 1 || status == 5
  let err := if status = 2 then c.err.getD 0 else 0
  let done := min c.written (dLen d)
  let crc := if ok then crcResult (dCrcMode d) c.crcRun else 0
  let name := leBytes 1 (k / 64) ++ leBytes 1 (k % 64) ++ leBytes 8 (if c.inlineCur then c.slot else c.curDesc) ++ leBytes 1 status
  let u := tenderUnit (k / 64)
  let s := (s.leaveLines k).copyEnded k status
  let s := if !ok && dSrcSpace d == 2 && dSrc d % 32 < 16 && k / 64 == 0 then s.discardRxq (dSrc d % 32) (dLen d - c.issued) else s
  let s := s.onChan k (fun c => { c with
    reads := [], early := [], ready := [], merging := [], stores := [], aborting := false
    badSeen := c.badSeen || status == 2, powerSeen := c.powerSeen || status == 3
    prevMode := dCrcMode d, prevOk := ok, first := false })
  -- destination bytes not known written are undefined: beyond the run after BAD, all of them after the aborts (11: R363, R367; 16: R481)
  let from_ := if status = 2 then done else 0
  let s := if ok then s else s.undefineDesc c from_
  let s := s.bumpChan k (match status with
    | 2 => 4
    | 3 => 5
    | 4 => 6
    | _ => 2) 1
  let w := s.writeBack k status err done crc
  let s := w.2
  let s := if bit 6 (dCtrl d) then s.postFor c.owner 0x0010 u name else s
  let s := if status = 2 then s.postFor c.owner 0x0011 u (name ++ leBytes 1 err ++ leBytes 8 done) else s
  if !w.1 then s.chainError k
  else
    let idle := fun (s : State) => s.onChan k (fun c => { c with
      st := .idle, srcCur := c.srcCurNow, dstCur := c.dstCurNow, remain := c.remainNow, desc := [] })
    let goes := fun (s : State) => s.onChan k (fun c => { c with desc := [], st := if status = 3 then .paused else c.st })
    if status = 4 then (idle s).answerPauses k
    else
      match dNextKind d with
      | 0 => (((idle s).streamsEnd k true).answerPauses k).nextCopy k
      | 1 => (goes (s.onChan k (fun c => { c with inlineCur := true, slot := dNext d % 16, curDesc := dNext d % 16 }))).answerPauses k
      | 2 => (goes (s.onChan k (fun c => { c with inlineCur := false, curDesc := dNext d % 2 ^ 42 }))).answerPauses k
      | _ => s.chainError k

/-- Does the descriptor in hand end now, and how: every store has completed, and it was aborted, failed, or is written whole? -/
def Chan.endsAs (c : Chan) : Option Nat :=
  if c.desc.isEmpty || !c.stores.isEmpty then none
  else if c.aborting then some 4
  else if c.err.isSome then some 2
  else if c.written = dTotal c.desc then some (if c.nocrc then 5 else 1)
  else none

/-- DESCRIPTOR_END. A write-back to memory that is kept busy waits. -/
def execDescriptorEnd (plinth chan : Nat) (s : State) : Out :=
  let k := 64 * plinth + chan
  let c := s.chan k
  .next (match c.endsAs with
  | none => s
  | some st =>
    if !c.inlineCur && !s.relaying (homePlinth c.curDesc) && s.memBusy c.curDesc then s
    else (s.endDesc k st).pumpTender plinth)

/-! ### Completions (11: R356, R360, R363) -/

/-- A word that a partial block waits for has come; with the last one the block's store goes. -/
def State.mergeWord (s : State) (k off w : Nat) (bs : List Byte) : State :=
  let c := s.chan k
  match c.merging.find? (fun m => m.off = off) with
  | none => s
  | some m =>
    let m := { m with words := Tbl.set m.words w bs }
    let rest := c.merging.filter (fun x => x.off ≠ off)
    if m.need.all (fun x => Tbl.has m.words x) then (s.setChan k { c with merging := rest }).sendBlock k off m.data m.words
    else s.setChan k { c with merging := rest ++ [m] }

/-- A completion of an outstanding read of a channel. -/
def State.tenderRead (s : State) (k tag status : Nat) (data : List Byte) : State :=
  let c := s.chan k
  match c.reads.find? (fun r => r.tag = tag) with
  | none => s
  | some r =>
    let s := s.setChan k { c with reads := c.reads.filter (fun x => x.tag ≠ tag) }
    let s := if status != 0 then s.onChan k (fun c => c.fail status)
      else if r.merge then s.mergeWord k r.off r.addr data
      else (s.onChan k (fun c => c.takeIn r.off (slice data r.skip r.len))).bumpChan k 0 r.len
    s.pumpTender (k / 64)

/-- TENDER_READ_COMPLETION: late ones of an ended descriptor are dropped. -/
def execTenderReadCompletion (plinth chan tag status : Nat) (data : List Byte) (s : State) : Out :=
  match s.takeDone (tenderUnit plinth) tag status data with
  | none => .next s
  | some s => .next (s.tenderRead (64 * plinth + chan) tag status data)

/-- A completion of an outstanding store of a channel, or of a write-back; a mirrored block counts as copied (08: R274). -/
def State.tenderStore (s : State) (k tag status : Nat) : State :=
  let c := s.chan k
  match c.stores.find? (fun r => r.tag = tag), c.wbacks.find? (fun w => w.1 = tag) with
  | none, none => s
  | none, some w =>
    let s := s.setChan k { c with wbacks := c.wbacks.filter (fun x => x.1 ≠ tag) }
    if status != 0 then s.chainErrorAt k w.2 else s
  | some r, _ =>
    let c := { c with stores := c.stores.filter (fun x => x.tag ≠ tag) }
    if status != 0 then s.setChan k (c.fail status)
    else
      let mirror := dSrcSpace c.desc == 4
      let s := (s.setChan k (c.wrote r.off r.len)).bumpChan k 1 r.len
      let s := if mirror then s.bumpChan k 0 r.len else s
      let s := match mirror, s.fab.resync with
        | true, some y =>
          if Tbl.has y.todo k then { s with fab := { s.fab with resync := some { y with blocks := y.blocks + 1 } } } else s
        | _, _ => s
      s.pumpTender (k / 64)

/-- TENDER_STORE_COMPLETION. -/
def execTenderStoreCompletion (plinth chan tag status : Nat) (s : State) : Out :=
  match s.takeDone (tenderUnit plinth) tag status [] with
  | none => .next s
  | some s => .next (s.tenderStore (64 * plinth + chan) tag status)

/-- REQUEST_LINE_ASSERT (11: R359): the descriptor that the line serves may move min(BURST, count, bytes left). Lines of receive queues count
what the queue holds; the bytes of any other source come with the assertion. -/
def execRequestLineAssert (plinth line : Nat) (data : List Byte) (s : State) : Out :=
  match Tbl.getD (s.tender plinth).lines line [] with
  | [] => .next s
  | ch :: _ =>
    let k := 64 * plinth + ch
    let c := s.chan k
    let rxq := decide (line < 16)
    let count := if rxq then ((Tbl.get? s.helm.bulk line).map BulkStream.held).getD 0 else data.length
    let left := dLen c.desc - c.issued - c.credit
    let n := min (min (if dPaced c.desc then dBurst c.desc else count) count) left
    if !c.moves || c.st == .paused then .next s
    else if dSrcSpace c.desc = 2 && !rxq then
      let n := min ({ c with credit := n }).mayAsk (s.setting 0x00040001 - c.holds)
      if n = 0 then .next s
      else
        .next (((s.onChan k (fun c => ({ (c.asked n none) with credit := c.credit }).takeIn c.issued (data.take n))).bumpChan k 0 n).pumpTender
          plinth)
    else .next ((s.onChan k (fun c => { c with credit := c.credit + n })).pumpTender plinth)

/-! ### Pauses and aborts -/

/-- May a PAUSING channel enter PAUSED: nothing outstanding, and every byte it has read written? -/
def Chan.stands (c : Chan) : Bool :=
  c.st == .pausing && !c.desc.isEmpty && c.reads.isEmpty && c.stores.isEmpty && c.wbacks.isEmpty && c.merging.isEmpty && c.ready.isEmpty && c.early.isEmpty &&
    c.endsAs.isNone

/-- CHANNEL_PAUSED. -/
def execChannelPaused (plinth chan : Nat) (s : State) : Out :=
  let k := 64 * plinth + chan
  .next (if (s.chan k).stands then ((s.onChan k (fun c => { c with st := .paused })).answerPauses k).gateSettle else s)

/-- PAUSE_PWR_TIMEOUT: the descriptor ends ABORTED_POWER, and the channel stands PAUSED at its next one. -/
def execPausePwrTimeout (plinth chan : Nat) (s : State) : Out :=
  let k := 64 * plinth + chan
  let c := s.chan k
  .next (if c.st == .pausing && c.pausePwr then
    let s := if c.desc.isEmpty then s.setChan k { c with st := .paused } else s.endDesc k 3
    let s := if (s.chan k).st == .paused then s.takeDesc k else s
    (s.answerPauses k).gateSettle
  else s)

/-- ABORT in any state but IDLE and ERROR (11: R367): reads are dropped as they come, outstanding stores complete before the write-back. -/
def State.abortChan (s : State) (k : Nat) : State :=
  let c := s.chan k
  if c.st == .idle || c.st == .error then s
  else if c.desc.isEmpty then (s.setChan k { c with st := .idle }).answerPauses k
  else
    let s := s.setChan k { c with aborting := true, reads := [], early := [], ready := [], merging := [] }
    if c.stores.isEmpty then (s.endDesc k 4).pumpTender (k / 64) else s

/-! ### CH_CTRL and RATE_CAP (11: R370, R372; 21: R582) -/

/-- WEIGHT of a host channel; 0 is taken as 1. -/
def State.setWeight (s : State) (k w : Nat) : State := s.onChan k (fun c => { c with weight := if w % 16 = 0 then 1 else w % 16 })

/-- CH_CTRL_PAUSE_WRITE: ignored on CH48 to CH63. -/
def execChCtrlPauseWrite (plinth chan : Nat) (v : Bool) (s : State) : Out :=
  let k := 64 * plinth + chan
  .next (if chan < 48 then s.setPause k v (s.chan k).pausePwr else s)

/-- CH_CTRL_ABORT_WRITE: ignored on CH48 to CH63. -/
def execChCtrlAbortWrite (plinth chan : Nat) (s : State) : Out := .next (if chan < 48 then s.abortChan (64 * plinth + chan) else s)

/-- CH_CTRL_WEIGHT_WRITE: read-only on CH48 to CH63. -/
def execChCtrlWeightWrite (plinth chan w : Nat) (s : State) : Out := .next (if chan < 48 then s.setWeight (64 * plinth + chan) w else s)

/-- RATE_CAP_WRITE of a host channel, in [15:0]. -/
def execRateCapWrite (plinth chan v : Nat) (s : State) : Out :=
  .next (if chan < 48 then s.onChan (64 * plinth + chan) (fun c => { c with rateCap := v % 65536 }) else s)

end Sys2Proof.Machine
end

