-- ==== Sys2Proof/Machine/HelmTender.lean ====
section
/-!
DEFINITION. Tender and bulk commands of Helm (13: R412, R413; 11: R348, R351, R357, R365 to R367; 12: R390).
-/
namespace Sys2Proof.Machine

open Sys2Proof

/-- The checks a host tender command passes first: the channel exists, is a host channel, and belongs to the partition. -/
def State.chanStop (s : State) (w : Waiter) (q : List Byte) (owner : Bool) : Option Ans :=
  if 3 < field q 0 1 then some (badAns 0 s)
  else if 47 < field q 1 1 then some (badAns 1 s)
  else if owner && (s.chan (64 * field q 0 1 + field q 1 1)).owner != ptOf w then some (errAns 3 s)
  else none

/-- The channel a command names. -/
def chanOf (q : List Byte) : Nat := 64 * field q 0 1 + field q 1 1

/-- A tender command after those checks. -/
def State.onTender (s : State) (w : Waiter) (q : List Byte) (run : Nat → Ans) : Ans := (s.chanStop w q true).getD (run (chanOf q))

/-- TENDER_START: a new run of descriptors, inline in slots 0 upward or from an address. A re-lay holds the tenders (13: R402, R424). -/
def tenderStartRun (w : Waiter) (q : List Byte) (s : State) : Ans :=
  let n := field q 2 1
  match if q.length < 12 then shortAt [1, 1, 1, 1, 8] 0 q.length else none with
  | some off => badAns off s
  | none => s.onTender w q (fun k =>
    let c := s.chan k
    if 16 < n then badAns 2 s
    else if n = 0 ∧ 2 ^ 42 ≤ field q 4 8 then badAns 4 s
    else if q.length ≠ 12 + 64 * n then badAns 12 s
    else if s.upd.relay.isSome || c.st != .idle then errAns 2 s
    else
      let slots := (List.range n).foldl (fun (t : Tbl (List Byte)) i => Tbl.set t i (slice q (12 + 64 * i) 64)) c.slots
      let c := { c with
        st := if c.pause || c.pausePwr then .pausing else .running
        slots := slots, inlineCur := n != 0, slot := 0, curDesc := if n = 0 then field q 4 8 else 0, desc := []
        prevMode := 0, prevOk := true, broken := false, first := true }
      okAns ((s.setChan k c).streamsEnd k false))

def execTenderStart (mb seq : Nat) (body : List Byte) (s : State) : Out := s.runHelm 0x0030 false none mb seq body tenderStartRun

/-- TENDER_CONTROL PAUSE: ends once the channel is PAUSED, at once where nothing runs. -/
def tenderPauseRun (w : Waiter) (q : List Byte) (s : State) : Ans :=
  s.onTender w q (fun k =>
    let s := s.setPause k true (s.chan k).pausePwr
    if (s.chan k).st == .pausing then .runs (s.onChan k (fun c => { c with waiters := c.waiters ++ [w] })) else okAns s)

/-- RESUME. -/
def tenderResumeRun (w : Waiter) (q : List Byte) (s : State) : Ans :=
  s.onTender w q (fun k => okAns (s.setPause k false (s.chan k).pausePwr))

/-- ABORT. -/
def tenderAbortRun (w : Waiter) (q : List Byte) (s : State) : Ans := s.onTender w q (fun k => okAns (s.abortChan k))

/-- WEIGHT, 1 to 15; 0 is taken as 1 (11: R370; 21: R582). -/
def tenderWeightRun (w : Waiter) (q : List Byte) (s : State) : Ans :=
  s.onTender w q (fun k => if 15 < field q 4 4 then badAns 4 s else okAns (s.setWeight k (field q 4 4)))

/-- RATE_CAP, 0 to 65,535. -/
def tenderRateCapRun (w : Waiter) (q : List Byte) (s : State) : Ans :=
  s.onTender w q (fun k =>
    if 65535 < field q 4 4 then badAns 4 s else okAns (s.onChan k (fun c => { c with rateCap := field q 4 4 })))

/-- Field sizes of TENDER_CONTROL. -/
def controlSizes : Option (List Nat) := some [1, 1, 1, 1, 4]

def execTenderPause (mb seq : Nat) (body : List Byte) (s : State) : Out :=
  s.runMode 0x0031 false controlSizes 2 0 4 mb seq body tenderPauseRun

def execTenderResume (mb seq : Nat) (body : List Byte) (s : State) : Out :=
  s.runMode 0x0031 false controlSizes 2 1 4 mb seq body tenderResumeRun

def execTenderAbort (mb seq : Nat) (body : List Byte) (s : State) : Out :=
  s.runMode 0x0031 false controlSizes 2 2 4 mb seq body tenderAbortRun

def execTenderWeight (mb seq : Nat) (body : List Byte) (s : State) : Out :=
  s.runMode 0x0031 false controlSizes 2 3 4 mb seq body tenderWeightRun

def execTenderRateCap (mb seq : Nat) (body : List Byte) (s : State) : Out :=
  s.runMode 0x0031 false controlSizes 2 4 4 mb seq body tenderRateCapRun

/-- TENDER_RESET: out of ERROR. -/
def tenderResetRun (w : Waiter) (q : List Byte) (s : State) : Ans :=
  s.onTender w q (fun k => match (s.chan k).st with
    | .error => okAns (s.onChan k (fun c => { c with st := .idle }))
    | .idle => okAns s
    | _ => errAns 2 s)

def execTenderReset (mb seq : Nat) (body : List Byte) (s : State) : Out := s.runHelm 0x0032 false (some [1, 1, 2]) mb seq body tenderResetRun

/-- What TENDER_QUERY answers. -/
def Chan.queryBytes (c : Chan) : List Byte :=
  leBytes 4 c.ctrlWord ++ leBytes 4 c.statusWord ++ leBytes 8 c.curDesc ++ leBytes 8 c.srcCurNow ++ leBytes 8 c.dstCurNow ++
    leBytes 8 c.remainNow ++ leBytes 8 c.crcRun ++ leBytes 8 c.rateCap ++
    (List.range 7).flatMap (fun i => leBytes 8 (Tbl.getD c.counters i 0))

def tenderQueryRun (w : Waiter) (q : List Byte) (s : State) : Ans := s.onTender w q (fun k => .done 0 (s.chan k).queryBytes s)

def execTenderQuery (mb seq : Nat) (body : List Byte) (s : State) : Out := s.runHelm 0x0033 false (some [1, 1, 2]) mb seq body tenderQueryRun

/-- TENDER_ASSIGN: only while the channel is IDLE. -/
def tenderAssignRun (w : Waiter) (q : List Byte) (s : State) : Ans :=
  (s.chanStop w q false).getD (
    let o := field q 2 1
    if 15 < o then badAns 2 s
    else if !s.partExists o then errAns 8 s
    else if (s.chan (chanOf q)).st != .idle then errAns 2 s
    else okAns (s.onChan (chanOf q) (fun c => { c with owner := o })))

def execTenderAssign (mb seq : Nat) (body : List Byte) (s : State) : Out :=
  s.runHelm 0x0034 true (some [1, 1, 1, 1]) mb seq body tenderAssignRun

/-! ### Bulk streams -/

/-- BULK_OPEN. A stream stays with its mailbox. -/
def bulkOpenRun (w : Waiter) (q : List Byte) (s : State) : Ans :=
  let n := field q 0 1
  let ch := field q 1 1
  if 15 < n then badAns 0 s
  else if 47 < ch then badAns 1 s
  else if ((Tbl.get? s.helm.bulk n).map (fun b => b.mailbox != w.1)).getD false then errAns 2 s
  else if (s.chan ch).owner != ptOf w then errAns 3 s
  else
    let b : BulkStream := { mailbox := w.1, channel := ch }
    okAns { s with helm := { s.helm with bulk := Tbl.set s.helm.bulk n b } }

def execBulkOpen (mb seq : Nat) (body : List Byte) (s : State) : Out := s.runHelm 0x0035 false (some [1, 1, 2]) mb seq body bulkOpenRun

/-- BULK_CLOSE: unbound, its queue discarded; answers the bytes accepted. -/
def bulkCloseRun (w : Waiter) (q : List Byte) (s : State) : Ans :=
  let n := field q 0 1
  if 15 < n then badAns 0 s
  else
    match Tbl.get? s.helm.bulk n with
    | none => errAns 8 s
    | some b =>
      if b.mailbox ≠ w.1 then errAns 6 s
      else .done 0 (leBytes 8 b.offset) { s with helm := { s.helm with bulk := Tbl.erase s.helm.bulk n } }

def execBulkClose (mb seq : Nat) (body : List Byte) (s : State) : Out := s.runHelm 0x0036 false (some [1, 3]) mb seq body bulkCloseRun

end Sys2Proof.Machine
end

