-- ==== Sys2Proof/Machine/Fence.lean ====
section
/-!
DEFINITION. Fences of compute dies and beacons, re-admission and retirement (07: R224 to R229; 14: R445; 11: R374).
-/
namespace Sys2Proof.Machine

open Sys2Proof

/-- Can the die be fenced at all: a compute die or a beacon (07: R225, R226)? -/
def fenceable (d : Nat) : Bool := decide (d < 12) || (decide (16 ≤ d) && decide (d < 24))

/-- Does a descriptor touch a local store of a die? -/
def descTouches (d : List Byte) (die : Nat) : Bool :=
  !d.isEmpty && ((dSrcSpace d == 1 && lsDie (dSrc d) == die) || (dSrcSpace d != 4 && dDstSpace d == 1 && lsDie (dDst d) == die))

/-- Does a descriptor have its source or destination in a power domain (11: R368)? -/
def descInDomain (d : List Byte) (die dom : Nat) : Bool :=
  !d.isEmpty && ((dSrcSpace d == 1 && lsDie (dSrc d) == die && stDomain (lsStage (dSrc d)) == dom) ||
    (dSrcSpace d != 4 && dDstSpace d == 1 && lsDie (dDst d) == die && stDomain (lsStage (dDst d)) == dom))

/-- PAUSE_PWR cleared on the channels that the gate of this domain paused and no other gate still pauses (11: R368). -/
def State.unpause (s : State) (die dom : Nat) : State :=
  let mine := s.power.paused.filter (fun (g : Nat × Nat × Nat) => g.1 == die && g.2.1 == dom)
  let rest := s.power.paused.filter (fun (g : Nat × Nat × Nat) => !(g.1 == die && g.2.1 == dom))
  let s := { s with power := { s.power with paused := rest } }
  mine.foldl (fun acc (g : Nat × Nat × Nat) =>
    if rest.any (fun (h : Nat × Nat × Nat) => h.2.2 == g.2.2) then acc else acc.setPause g.2.2 (acc.chan g.2.2).pause false) s

/-- No gate of a die is wanted or in force any more (15: R474). -/
def State.dropGates (s : State) (die : Nat) : State :=
  let s := { s with power := { s.power with
    gating := s.power.gating.filter (fun (g : Nat × Nat) => decide (g.1 ≠ die))
    shed := s.power.shed.filter (fun (g : Nat × Nat) => decide (g.1 ≠ die)) } }
  (List.range 12).foldl (fun acc dom => acc.unpause die dom) s

/-- Tender channels whose descriptor touches the die end it BAD with DIE_LOST (07: R225; 11: R363, R374). -/
def State.fenceChans (s : State) (die : Nat) : State :=
  { s with chans := s.chans.map (fun (c : Nat × Chan) => if descTouches c.2.desc die then (c.1, c.2.fail 4) else c) }

/-- Pipelines with a stage on the die fail with DIE_LOST; a load in progress ends STAGE_UNAVAILABLE (07: R225, R229; 04: R142). -/
def State.fencePipes (s : State) (die : Nat) : State :=
  (Tbl.keys s.pipes).foldl (fun acc pl =>
    match acc.pipe? pl with
    | none => acc
    | some p =>
      match p.stgs.find? (fun k => stDie k == die) with
      | none => acc
      | some k => if p.loadWait.isSome then acc.loadRefused pl k else acc.failPipe pl 5 none 0) s

/-- Every stage of a die in FENCED. One that was in ZEROING leaves its releasing pipeline, which may be removed, and no completion comes to the die any
more (04: R142; 07: R225). -/
def State.fenceStages (s : State) (die : Nat) : State :=
  let out := fun (x : Stage) => x.st == .zeroing && ((x.bind.bind (fun b => s.pipe? b.1)).map (fun p => p.st == .releasing)).getD false
  let s := (List.range 30).foldl (fun acc u => acc.onStage (30 * die + u) (fun x =>
    { x with st := .fenced, busyTest := false, bind := if out x then none else x.bind, partition := if out x then 0 else x.partition })) s
  (Tbl.keys s.pipes).foldl (fun acc pl => (acc.wroteHome pl (fun w => stDie w.1 == die)).releaseDone pl) s

/-- A beacon's 16 ports drop, and its sights, recoveries and re-points end (07: R226; 09: R306). -/
def State.fenceBeacon (s : State) (b : Nat) : State :=
  let s := (List.range 16).foldl (fun acc q => acc.portDown b q 2) s
  let e := s.beacon b
  let s := s.setBeacon b { e with
    repointTo := none, repointStep := 0, repointWait := none, quiesce := [], sights := [], spoiled := [], forced := [], owed := [], laneWaits := []
    gapSights := [], feeds := 0 }
  let s := e.laneWaits.foldl (fun acc (w : Nat × Waiter) => acc.answerCmd w.2 0x004A 0x10 []) s
  match e.repointWait with
  | some w => s.answerCmd w 0x0049 0x10 []
  | none => s

/-- A gap that waited for this beacon only closes (04: R141). -/
def State.gapsWithout (s : State) : State :=
  (Tbl.keys s.pipes).foldl (fun acc pl =>
    match acc.pipe? pl with
    | none => acc
    | some p =>
      if p.gap == .opened && (List.range 8).all (fun b => p.gapReleased.contains b || (acc.die (16 + b)).life != .up) then
        acc.closeGap pl
      else acc) s

/-- A die goes out of service until the next start (07: R228, R230). -/
def State.retireDie (s : State) (die : Nat) : State :=
  let x := s.die die
  let s := (s.setDie die { x with life := .retired, resetWait := none }).fenceLink die .retired
  let s := s.post 0x0042 (dieUnit die) (leBytes 1 die)
  match x.resetWait with
  | some w => s.answerCmd w 0x0072 0 (leBytes 1 1 ++ leBytes 3 0)
  | none => s

/-- A packet for a die that is not in service: a request completes DIE_LOST to its source, anything else is dropped (07: R225). -/
def State.lostTo (s : State) (p : HubPkt) : State :=
  if [2, 3, 4, 0xA, 0xB].contains p.typ then s.complete (hubUnit (plinthOf (p.dst / 128))) p.partition p.src p.tag 4 [] else s

/-- Is a profile switch of the die's link under way: begun by one end and not acknowledged, or still to come at the other (07: R222)? -/
def State.switching (s : State) (die : Nat) : Bool :=
  [8 * die, linkPeer (8 * die)].any (fun k => (s.link k).switchOut.isSome || (s.link k).switchAt.isSome)

/-- A fence (07: R225, R226, R228). Causes, in the order of R224: 1 loss of lock, 2 retrain or lane, 3 heartbeat, 4 protocol error,
5 DIE_RESET. `retire` keeps the die out of service. One during a profile switch or a re-admission counts as an attempt (07: R229). -/
def State.fenceDie (s : State) (die cause : Nat) (retire : Bool) : State :=
  let x := s.die die
  let recent := x.fences.filter (fun r => decide (subMod 64 s.now0 r < 3600 * 156250000))
  let fences := if cause = 5 then recent else s.now0 :: recent
  if !fenceable die || x.life == .retired then s
  else if x.life == .fenced then
    let s := (s.setDie die { x with fenceCause := cause, fences := fences, attempts := x.attempts + 1 }).post 0x0040 (dieUnit die)
      (leBytes 1 die ++ leBytes 1 cause)
    if retire || decide (4 ≤ fences.length) || decide (3 ≤ x.attempts + 1) then s.retireDie die else s
  else
    let attempts := if s.switching die then x.attempts + 1 else 0
    let s := s.setDie die { x with life := .fenced, fenceCause := cause, fences := fences, attempts := attempts }
    let s := s.fenceLink die .fenced
    let s := { s with hubQ := s.hubQ.filter (fun q => decide (queuePlace q.1 ≠ die)) }
    let toDie := s.hubOut.filter (fun p => decide (p.dst / 128 = die))
    let s := s.dropPkts (fun p => decide (p.dst / 128 = die))
    let s := toDie.foldl State.lostTo s
    let s := s.post 0x0040 (dieUnit die) (leBytes 1 die ++ leBytes 1 cause)
    let s := if die < 12 then (((s.fenceStages die).fencePipes die).fenceChans die).dropGates die else (s.fenceBeacon (die - 16)).gapsWithout
    if retire || decide (4 ≤ fences.length) || decide (3 ≤ attempts) then s.retireDie die else s

/-- Does the block run, so that detectors act: past the loads of step 8, no failure stop? -/
def State.detects (s : State) : Bool := s.isReady || (s.starting && decide (8 ≤ s.boot.phase))

/-- HEARTBEAT_TIMEOUT (07: R224). -/
def execHeartbeatTimeout (die : Nat) (s : State) : Out := .next (if s.detects then s.fenceDie die 3 false else s)

/-- DIE_FENCE (07: R225): the fence of a detected cause. -/
def execDieFence (die cause : Nat) (s : State) : Out := .next (if s.detects then s.fenceDie die cause false else s)

/-! ### Re-admission (07: R227, R228; 14: R445) -/

/-- A stage of a re-admitted die: zeroed, with its counters; BOUND where a failed pipeline holds it, else FREE (03: R74). -/
def State.readmitStage (s : State) (k : Nat) : State :=
  let x := s.stage k
  let held := (x.bind.bind (fun b => (s.pipe? b.1).map (fun (p : Pipe) => p.st != PipeSt.releasing))).getD false
  s.setStage k (if held then { st := .bound, bind := x.bind, partition := x.partition } else {})

/-- Stages of a compute die, and pipelines in RELEASING that waited for them. -/
def State.readmitStages (s : State) (die : Nat) : State :=
  let s := (List.range 30).foldl (fun acc u => acc.readmitStage (30 * die + u)) s
  (Tbl.keys s.pipes).foldl State.releaseDone s

/-- A beacon with its line table rebuilt (09: R297): rings whose sweep finds no line are retired. -/
def State.rebuildBeacon (s : State) (b : Nat) (retired : List Nat) : State :=
  let e := s.beacon b
  let s := s.setBeacon b
    { built := true, laserFault := e.laserFault, laserFlags := e.laserFlags
      rings := retired.foldl (fun (t : Tbl Ring) r => Tbl.set t r { retired := true }) []
      lanes := retired.foldl (fun (t : Tbl Lane) r => Tbl.set t r { st := .retired }) [] }
  let s := s.setFeeds b
  (List.range 16).foldl (fun acc q =>
    let hall := acc.portHall b q
    (acc.setTx b q { hall := hall }).setRx b q { hall := hall }) s

/-- Link ends of a re-admitted die: its own end afresh, the plinth's with its counters and its CRC flag, both trained and sending their words; where the
device is ready the link then switches to its negotiated profile (07: R220, R221, R227). -/
def State.readmitLink (s : State) (die : Nat) : State :=
  let k := 8 * die
  let j := linkPeer k
  let e := s.link j
  let s := (s.trainEnd k {} (linkOwn j)).trainEnd j { counters := e.counters, crcSeen := e.crcSeen } (linkOwn k)
  let s := (s.sendCap k).sendCap j
  if s.boot.dev == .ready then s.switchLink k else s

/-- DIE_READMISSION: one attempt of R227. It waits through a control-core changeover (16: R490). -/
def execDieReadmission (die : Nat) (ok : Bool) (retiredRings : List Nat) (s : State) : Out :=
  let x := s.die die
  .next (if x.life != .fenced || s.boot.gap || !s.detects then s
  else
    let n := x.attempts + 1
    if !ok then
      let s := s.setDie die { x with attempts := n }
      if 3 ≤ n then s.retireDie die else s
    else
      let s := s.setDie die { attempts := n, fences := x.fences, temps := x.temps, excluded := x.excluded, tj := x.tj, mr3Done := x.mr3Done }
      let s := s.readmitLink die
      let s := if die < 12 then s.readmitStages die else s.rebuildBeacon (die - 16) retiredRings
      let s := { s with sec := { s.sec with readmits := satAdd 32 s.sec.readmits 1 } }
      let s := s.post 0x0041 (dieUnit die) (leBytes 1 die ++ leBytes 1 n)
      match x.resetWait with
      | some w => s.answerCmd w 0x0072 0 (leBytes 1 0 ++ leBytes 3 0)
      | none => s)

/-- DIE_RESET (13: R422). -/
def dieResetRun (w : Waiter) (q : List Byte) (s : State) : Ans :=
  let d := field q 0 1
  if !fenceable d then badAns 0 s
  else
    match (s.die d).life with
    | .retired => badAns 0 s
    | .fenced => errAns 2 s
    | .up =>
      let s := s.setDie d { s.die d with resetWait := some w }
      .runs (s.fenceDie d 5 false)

def execDieReset (mb seq : Nat) (body : List Byte) (s : State) : Out := s.runHelm 0x0072 true (some [1, 3]) mb seq body dieResetRun

end Sys2Proof.Machine
end

