-- ==== Sys2Proof/Machine/Operands.lean ====
section
/-!
DEFINITION. Elements in bytes, reads and writes of local stores, what a stage command shares, and the operand forms of a V instruction
(02: R40; 03: R69 to R72, R79, R91; 04: R123, R124; 05: R155).
-/
namespace Sys2Proof.Machine

open Sys2Proof

/-! ### Elements (02: R40; 03: R91) -/

/-- `n` elements of `w` bits from a little-endian number, lowest first. -/
def unpackNat (w : Nat) : Nat → Nat → List Nat
  | 0, _ => []
  | n + 1, v => v % 2 ^ w :: unpackNat w n (v / 2 ^ w)

/-- Elements as a little-endian number. -/
def packNat (w : Nat) : List Nat → Nat
  | [] => 0
  | c :: cs => c % 2 ^ w + 2 ^ w * packNat w cs

/-- Every whole element in a byte string. -/
def unpack (w : Nat) (bs : List Byte) : List Nat := unpackNat w (8 * bs.length / w) (leNat bs)

/-- Elements packed densely (02: R40). -/
def pack (w : Nat) (cs : List Nat) : List Byte := leBytes ((w * cs.length + 7) / 8) (packNat w cs)

/-- `n` elements of an array in a local store, from element `first`. -/
def lsElems (m : Store) (base w first n : Nat) : List Nat :=
  let lo := w * first
  let bytes := (lo % 8 + w * n + 7) / 8
  unpackNat w n (leNat (Store.readN m (base + lo / 8) bytes) / 2 ^ (lo % 8))

/-! ### Stage commands -/

/-- What the code of a local store reports before the work (03: R72): a corrected word is flagged and counted, an uncorrectable one in a
stage bound to a pipeline is a fault. -/
def State.lsSeen (s : State) (k : Nat) (ls : LsRead) (go : State → State) : State :=
  match ls with
  | .clean => go s
  | .corrected => go ((s.onStage k (fun x => { x with lsCe := true })).bumpStage k 14 1)
  | .uncorrectable => if (s.stage k).bind.isSome then s.stageFault k 1 else s

/-- One step of a stage's operation, where it has the work: the entry's TYPE and opcode are those of the command. A stage that waits to send, or
that has an output port without credit, stops (03: R78). -/
def State.stageStep (s : State) (k typ opcode : Nat) (ls : LsRead) (go : Job → State → State) : Out :=
  match (if typ = 2 then s.intake k else s.job k) with
  | none => .next s
  | some j =>
    if stTypeOf (j.p.ent j.i) = typ ∧ stOpcode (j.p.ent j.i) = opcode ∧ j.clear (s.stage k) then
      .next ((s.lsSeen k ls (go j)).settle k)
    else .next s

/-- A data record taken from a port where one stands there, its payload handed on. -/
def State.absorb (s : State) (j : Job) (k port : Nat) : Option (Rec × State) :=
  (dataOf j (s.stage k) port).map (fun f => (f.2.2, s.takeRec j k port f))

/-! ### Operands of a V instruction (04: R123) -/

/-- Row an operand names: ROW, and with REL as many rows further as periods have passed; row numbers wrap at 1,024. -/
def vOperandRow (i : List Byte) (off seg : Nat) : Nat :=
  (vRow i off + if vRel i off then seg / 2 ^ field i 0xF 1 else 0) % 1024

/-- Every second element, from the first or the second. -/
def everyOther : List Nat → List Nat
  | a :: _ :: cs => a :: everyOther cs
  | cs => cs

/-- Bytes of a record under way, none where no record is. -/
def recBytes : Option Rec → List Byte
  | some r => r.payload
  | none => []

/-- Codes of a source operand in a format, at most VLEN of them; none for KIND 8. -/
def vSource (x : Stage) (i : List Byte) (off : Nat) (f : Fmt) : Option (List Nat) :=
  let n := vLen i
  let w := f.width
  match vKind i off with
  | 0 => some (lsElems x.store (4096 * vOperandRow i off x.v.seg) w 0 n)
  | 1 => some ((unpack w (recBytes x.v.run0)).take n)
  | 2 => some ((unpack w (recBytes x.v.run1)).take n)
  | 3 => some ((unpack w (recBytes (x.v.run2.map (·.2)))).take n)
  | 4 => some ((everyOther (unpack w (recBytes x.v.run0))).take n)
  | 5 => some ((everyOther ((unpack w (recBytes x.v.run0)).drop 1)).take n)
  | _ => none

/-- Bytes of a source operand past its elements: shared scales that follow them (assumption 23). -/
def vScales (x : Stage) (i : List Byte) (off : Nat) (f : Fmt) (n blocks : Nat) : List Nat :=
  match vKind i off with
  | 0 => (Store.readN x.store (4096 * vOperandRow i off x.v.seg + fmtBytes f n) blocks).map (·.toNat)
  | 1 => (slice (recBytes x.v.run0) (fmtBytes f n) blocks).map (·.toNat)
  | 2 => (slice (recBytes x.v.run1) (fmtBytes f n) blocks).map (·.toNat)
  | _ => []

/-- Lanes the mask row lets through; every lane without a mask (03: R91). -/
def vMask (x : Stage) (i : List Byte) : Nat → Bool :=
  if vKind i 0xA = 0 then
    fun lane => (Store.readN x.store (4096 * vOperandRow i 0xA x.v.seg + 4 * lane) 4).any (· != 0)
  else fun _ => true

/-! ### Destinations (03: R91; 05: R155) -/

/-- Has the epoch saved the row? -/
def rowSaved (x : Stage) (e row : Nat) : Bool := x.v.undo.any (fun u => u.row = row && u.epoch = e)

/-- May the epoch write these rows now: it is the head, or 64 undo rows hold what it has not yet saved and it does not wait for its commit? -/
def undoFits (x : Stage) (head : Bool) (e : Nat) (rows : List Nat) : Bool :=
  head || (x.v.undoWait != some e &&
    decide (x.v.undo.length + ((rows.eraseDups).filter (fun r => !rowSaved x e r)).length ≤ 64))

/-- The row saved before a run-ahead epoch first writes it. -/
def saveUndo (x : Stage) (head : Bool) (e row : Nat) : Stage :=
  if head || rowSaved x e row then x
  else
    let u : UndoRow := { row := row, epoch := e, bytes := Store.readN x.store (4096 * row) 4096 }
    { x with v := { x.v with undo := x.v.undo ++ [u] } }

/-- `n` bits of a number laid over bytes, from a bit on; the other bits stay. -/
def layBits (old : List Byte) (lo n v : Nat) : List Byte :=
  let o := leNat old
  leBytes old.length (o % 2 ^ lo + 2 ^ lo * (v % 2 ^ n) + 2 ^ (lo + n) * (o / 2 ^ (lo + n)))

/-- The store with `n` bits of a byte string written into a row, from a bit of it on, under the lanes of the mask. -/
def rowWritten (m : Store) (mask : Nat → Bool) (row lo n : Nat) (bs : List Byte) : Store :=
  let a := 4096 * row + lo / 8
  let w := (lo % 8 + n + 7) / 8
  Store.writeMasked m a (layBits (Store.readN m a w) (lo % 8) n (leNat bs)) ((List.range w).map (fun q => mask ((lo / 8 + q) / 4)))

/-- The same in a stage. -/
def writeRow (x : Stage) (mask : Nat → Bool) (row lo n : Nat) (bs : List Byte) : Stage := { x with store := rowWritten x.store mask row lo n bs }

end Sys2Proof.Machine
end

