-- ==== Sys2Proof/Machine/GStage.lean ====
section
/-!
DEFINITION. Gather stages: windows, requests and their coalescing, the entries of index records, CSR rows, atomics, and the responses
(03: R97 to R105; 04: R121; 05: R158).
-/
namespace Sys2Proof.Machine

open Sys2Proof

/-! ### Windows (03: R100, R104) -/

/-- Slots of a window in use: every request keeps its slot until its data has been emitted, or used by the stage itself (03: R100). -/
def slotsOf (g : GState) (w : Nat) : Nat := (g.reqs.filter (fun r => r.window = w)).length

/-- Requests of a window that are not complete, held and coalesced ones too. -/
def openReqs (g : GState) (w : Nat) : Nat := (g.reqs.filter (fun r => r.window = w && r.status.isNone)).length

/-- Does a run of bytes reach past the fabric address space (03: R99)? -/
def farRun (a n : Nat) : Bool := decide (2 ^ 56 ≤ a) || decide (2 ^ 56 < a + n)

/-- Windows in use: of a batch the stage has not finished, or with requests open. -/
def liveWindows (j : Job) (g : GState) : List (Nat × Nat) :=
  g.windows.filter (fun w => j.p.batches.any (fun b => b.epoch = w.2 && !b.stagesDone.contains j.i) || openReqs g w.1 != 0)

/-- The window of an epoch: its own, or a free one. -/
def windowFor (j : Job) (g : GState) : Option Nat :=
  let live := liveWindows j g
  match live.find? (fun w => w.2 = j.b.epoch) with
  | some w => some w.1
  | none => (List.range 4).find? (fun w => !live.any (fun x => x.1 = w) && openReqs g w == 0)

/-! ### Requests -/

/-- Requests of a batch for a block that another request to the block can be served by (03: R102). -/
def sameBlockReq (g : GState) (w e pa : Nat) : Option GReq :=
  g.reqs.find? (fun r => r.window = w && r.epoch = e && r.status.isNone && r.leader.isNone && r.op.isNone && !r.discard &&
    r.addr / 256 == pa / 256)

/-- One piece asked for: by a request of its own for the whole block, or as the second request to a block, which the response to the first serves. A
request is held back where the batch runs ahead and the region is not RUNAHEAD_OK, an atomic always (04: R121; 03: R102, R103). A row
pointer is read from a block at hand, and one on its way serves it too (03: R105). -/
def State.askPiece (s : State) (j : Job) (k w item ent region : Nat) (op : Option Nat) (operand : List Byte) (ptr : Bool) (pa pn : Nat) : State :=
  let g := (s.stage k).g
  let head := j.p.isHead j.b.epoch
  let span := if op.isSome then (pa, pn) else (pa / 256 * 256, 256)
  let lead := if op.isSome then none else sameBlockReq g w j.b.epoch pa
  let have_ := if ptr then g.rowPtrs.find? (fun q => q.1 = pa / 256 * 256) else none
  let issued := head || (op.isNone && regRunAhead j.p.arm region)
  let r : GReq :=
    { tag := g.nextTag, window := w, epoch := j.b.epoch, addr := span.1, len := span.2, pa := pa, pn := pn, item := item, ent := ent
      issuedAt := s.now (stDie k), issued := issued || lead.isSome || have_.isSome, op := op, operand := operand, leader := lead.map (·.tag)
      status := have_.map (fun _ => 0), data := (have_.map (·.2)).getD [] }
  let s := s.onStage k (fun x => { x with g := { x.g with reqs := x.g.reqs ++ [r], nextTag := addMod 16 x.g.nextTag 1 } })
  if have_.isSome then s
  else if lead.isSome then (if ptr then s else s.bumpStage k 9 1)
  else if issued then s.sendG j.pl k r else s

/-- A run of bytes to be asked for, block by block. -/
def askOf (ent region a n : Nat) : List (Nat × Nat × Nat × Nat) :=
  (blocksOf a n).map (fun blk =>
    let lo := max a (blk * 256)
    (ent, region, lo, min (a + n) (blk * 256 + 256) - lo))

/-- An item changed in place. -/
def State.onItem (s : State) (k id : Nat) (f : GItem → GItem) : State :=
  s.onStage k (fun x => { x with g := { x.g with items := x.g.items.map (fun t => if t.id = id then f t else t) } })

/-- Pieces of an item asked for in order, while its window has slots. -/
def State.askList (s : State) (j : Job) (k : Nat) (t : GItem) : List (Nat × Nat × Nat × Nat) → State
  | [] => s
  | q :: rest =>
    if 4096 ≤ slotsOf (s.stage k).g t.window then s
    else
      ((s.askPiece j k t.window t.id q.1 q.2.1 none [] (t.phase == 0 && stOpcode (j.p.ent j.i) == 0x33) q.2.2.1 q.2.2.2).onItem k t.id
        (fun t => { t with asks := rest })).askList j k t rest

/-- Does nothing of an entry remain to be asked for or to come, and what did it bring? -/
def entReady (g : GState) (t : GItem) (ent : Nat) : Bool :=
  t.asks.all (fun q => q.1 != ent) && g.reqs.all (fun r => r.item != t.id || r.ent != ent || r.status == some 0)
def entData (g : GState) (item ent : Nat) : List Byte :=
  (g.reqs.filter (fun r => r.item = item && r.ent = ent)).flatMap (fun r =>
    if r.op.isSome then r.data else slice r.data (r.pa - r.addr) r.pn)

/-- Requests of an item that are no longer needed: those of its entries before one. -/
def State.dropReqs (s : State) (k item before : Nat) : State :=
  s.onStage k (fun x => { x with g := { x.g with reqs := x.g.reqs.filter (fun r => r.item ≠ item || before ≤ r.ent) } })

/-! ### CSR rows (03: R105) -/

/-- Bytes of a row pointer, of a value and of a pair, and the pairs of a DATA record. -/
def csrPtr (e : List Byte) : Nat := if field e 9 1 = 1 then 8 else 4
def csrVal (e : List Byte) : Nat := (fmtD (field e 0xA 1)).width / 8
def csrPair (e : List Byte) : Nat := if gPairs e then 2 * csrVal e else 4 + csrVal e
def csrPer (e : List Byte) : Nat := 2048 / csrPair e

/-- Slots that a part of a row may need: its columns, its values and its x. -/
def csrNeed (e : List Byte) : Nat := csrPer e * (4 + csrVal e) / 256 + 4 + if gPairs e && !gXLocal e then 2 * csrPer e else 0

/-- An item replaced by others in its place. -/
def State.swapItem (s : State) (k id : Nat) (ts : List GItem) : State :=
  s.onStage k (fun x => { x with g := { x.g with items := x.g.items.flatMap (fun t => if t.id = id then ts else [t]) } })

/-- The rest of a row once its pointers are known; an empty row is complete. -/
def State.csrRow (s : State) (j : Job) (k : Nat) (t : GItem) (ptrs : List Byte) : State :=
  let e := j.p.ent j.i
  let base := j.p.base j.b (field e 8 1)
  let pw := csrPtr e
  let lo := field ptrs 0 pw
  let hi := field ptrs pw pw
  if hi ≤ lo then s.onItem k t.id (fun t => { t with phase := 3 })
  else if farRun (entryAddr 0 base (field e 0x18 8 + 4 * lo)) (4 * (hi - lo)) ||
      farRun (entryAddr 0 base (field e 0x20 8 + csrVal e * lo)) (csrVal e * (hi - lo)) then s.stageFault k 3
  else s.onItem k t.id (fun t => { t with phase := 4, rest := (lo, hi) })

/-- The next part of a row, of the pairs of one DATA record, where the window has slots for all it may need. -/
def State.csrPart (s : State) (j : Job) (k : Nat) (t : GItem) : State :=
  let e := j.p.ent j.i
  let g := (s.stage k).g
  let reg := field e 8 1
  let base := j.p.base j.b reg
  let lo := t.rest.1
  let n := min (csrPer e) (t.rest.2 - lo)
  let parts := (g.items.filter (fun u => u.window = t.window && (u.phase == 1 || u.phase == 2 || u.phase == 3))).length
  if 4096 < (parts + 1) * csrNeed e then s
  else
    let last := lo + n == t.rest.2
    let part : GItem := { t with
      id := g.nextItem, phase := 1, segEnd := last, rest := (lo, lo + n)
      asks := askOf 0 reg (entryAddr 0 base (field e 0x18 8 + 4 * lo)) (4 * n) ++
        askOf 1 reg (entryAddr 0 base (field e 0x20 8 + csrVal e * lo)) (csrVal e * n) }
    let s := s.onStage k (fun x => { x with g := { x.g with nextItem := x.g.nextItem + 1 } })
    s.swapItem k t.id (part :: if last then [] else [{ t with rest := (lo + n, t.rest.2) }])

/-- One move of a part of a CSR row whose requests are complete. -/
def State.csrMove (s : State) (j : Job) (k : Nat) (t : GItem) : State :=
  let e := j.p.ent j.i
  let g := (s.stage k).g
  let vw := csrVal e
  match t.phase with
  | 0 =>
    if entReady g t 0 then
      let got := (g.reqs.filter (fun r => r.item = t.id)).map (fun r => (r.addr, r.data))
      let s := (s.dropReqs k t.id 1).onStage k (fun x => { x with g := { x.g with
        rowPtrs := (got.reverse ++ x.g.rowPtrs.filter (fun q => got.all (fun r => r.1 != q.1))).take 2 } })
      s.csrRow j k t (entData g t.id 0)
    else s
  | 1 =>
    if entReady g t 0 && entReady g t 1 then
      let cols := unpack 32 (entData g t.id 0)
      let vals := entData g t.id 1
      let xAddr := fun (c : Nat) => entryAddr 0 (j.p.base j.b (field e 0x30 1)) (field e 0x28 8 + vw * c)
      if !gPairs e then s.onItem k t.id (fun t => { t with phase := 3, cols := cols, vals := vals })
      else if gXLocal e then
        let x0 := j.p.lsOff j.i j.b (field e 0x28 8)
        let xs := cols.flatMap (fun c => Store.readN (s.stage k).store (x0 + vw * c) vw)
        s.onItem k t.id (fun t => { t with phase := 3, cols := cols, vals := vals, xs := xs })
      else if cols.any (fun c => farRun (xAddr c) vw) then s.stageFault k 3
      else
        let asks := (List.range cols.length).flatMap (fun n => askOf (2 + n) (field e 0x30 1) (xAddr (cols.getD n 0)) vw)
        let s := s.onItem k t.id (fun t => { t with phase := 2, cols := cols, vals := vals, asks := asks })
        s.onStage k (fun x => { x with g := { x.g with histNow :=
          (cols.foldl (fun h c => if h.contains (field e 0x28 8 + vw * c) then h else h ++ [field e 0x28 8 + vw * c]) x.g.histNow).take 4096 } })
    else s
  | 2 =>
    if (List.range t.cols.length).all (fun n => entReady g t (2 + n)) then
      s.onItem k t.id (fun t => { t with phase := 3, xs := (List.range t.cols.length).flatMap (fun n => entData g t.id (2 + n)) })
    else s
  | 4 => s.csrPart j k t
  | _ => s

/-- Pairs of a complete part: column and value, or value and x. -/
def csrPairs (e : List Byte) (t : GItem) : List Byte :=
  let vw := csrVal e
  (List.range t.cols.length).flatMap (fun n =>
    if gPairs e then slice t.vals (vw * n) vw ++ slice t.xs (vw * n) vw else leBytes 4 (t.cols.getD n 0) ++ slice t.vals (vw * n) vw)

/-! ### Emission (03: R99, R101) -/

/-- An item without its place in the window. -/
def State.dropItem (s : State) (k id : Nat) : State :=
  s.onStage k (fun x => { x with g := { x.g with reqs := x.g.reqs.filter (fun r => r.item ≠ id), items := x.g.items.filter (fun t => t.id ≠ id) } })

/-- Bytes of an entry: zero for a null one. -/
def entBytes (g : GState) (t : GItem) (n : Nat) : List Byte :=
  if t.nulls.contains n then List.replicate t.bytes 0 else entData g t.id n

/-- Is an entry's data at hand? -/
def entHas (g : GState) (t : GItem) (n : Nat) : Bool := decide (n < t.count) && (t.nulls.contains n || entReady g t n)

/-- The part of a CSR row that may be emitted: in ORDERED mode the oldest item, in ARRIVAL mode the first part of any row, but a row's parts
one after the other. -/
def csrNext (e : List Byte) (g : GState) (mine : List GItem) : Option GItem :=
  let first : Nat → Option GItem := fun row => mine.find? (fun t => t.row = row && t.phase != 5)
  let pick : Option GItem := match g.curRow with
    | some row => first row
    | none => if gArrival e then (mine.filter (fun (t : GItem) => t.phase == 3)).find? (fun (t : GItem) => (first t.row).map (·.id) == some t.id) else mine.head?
  pick.filter (fun t => t.phase == 3)

/-- One record emitted, of the oldest epoch (03: R81). The rows or elements of an index record follow each other without a gap, cut at 2,048 bytes,
and SEG_END stands on the last record of an index record that carries it (assumption 70). In ARRIVAL mode any entry at hand goes next, whole,
each record with its position. -/
def State.gEmitOne (s : State) (j : Job) (k : Nat) : State :=
  let e := j.p.ent j.i
  let g := (s.stage k).g
  let mine := g.items.filter (fun t => t.epoch = j.b.epoch)
  let ready := j.clear (s.stage k) && canEmit j.p j.i 0 1
  let place := fun (rs : List (Nat × Bool × List Byte)) (pos : Nat) =>
    if gArrival e then rs.flatMap (fun r => [r, (1, r.2.1, leBytes 4 pos)]) else rs
  match mine with
  | [] => s
  | t :: _ =>
    if !ready then s
    else if stOpcode e = 0x33 then
      match csrNext e g mine with
      | none => s
      | some t =>
        let s := (s.dropItem k t.id).onStage k (fun x => { x with g := { x.g with curRow := if t.segEnd then none else some t.row } })
        s.emitRecs k (place (outRecs e 0 t.segEnd (csrPairs e t)) t.pos)
    else if gArrival e then
      match mine.findSome? (fun t => ((List.range t.count).find? (fun n => !t.sent.contains n && entHas g t n)).map (fun n => (t, n))) with
      | none => if t.todo.isEmpty && t.count = 0 then (s.dropItem k t.id).emitRecs k (place (outRecs e 0 t.segEnd []) t.pos) else s
      | some (t, n) =>
        let last := t.todo.isEmpty && t.sent.length + 1 == t.count
        let s' := if last then s.dropItem k t.id
          else (s.onItem k t.id (fun t => { t with sent := t.sent ++ [n] })).onStage k (fun x =>
            { x with g := { x.g with reqs := x.g.reqs.filter (fun r => r.item ≠ t.id || r.ent ≠ n) } })
        s'.emitRecs k (place (outRecs e 0 (t.segEnd && last) (entBytes g t n)) (t.pos + n))
    else
      let w := t.bytes
      let total := w * (t.count + t.todo.length)
      let n := min 2048 (total - t.gone)
      let lo := t.gone / max 1 w
      let ents := (List.range ((t.gone + n + w - 1) / max 1 w - lo)).map (fun q => lo + q)
      if total = 0 ∧ !t.todo.isEmpty then s
      else if ents.all (entHas g t) then
        let last := t.gone + n == total
        let bs := slice (ents.flatMap (entBytes g t)) (t.gone % max 1 w) n
        let s' := if last then s.dropItem k t.id
          else (s.onItem k t.id (fun t => { t with gone := t.gone + n })).dropReqs k t.id ((t.gone + n) / max 1 w)
        s'.emitRecs k [(0, t.segEnd && last, bs)]
      else s

/-- Emission as far as it goes. -/
def State.gEmit (s : State) (k : Nat) : Nat → State
  | 0 => s
  | n + 1 =>
    match s.job k with
    | none => s
    | some j =>
      let t := s.gEmitOne j k
      if (t.stage k).g.items == (s.stage k).g.items then s else State.gEmit t k n

/-- Rows moved on and pieces asked for, oldest items first. -/
def State.gAsk (s : State) (pl i : Nat) (p : Pipe) (k : Nat) : State :=
  let each := fun (s : State) (f : State → Job → GItem → State) =>
    ((s.stage k).g.items).foldl (fun acc t =>
      match p.batch? t.epoch with
      | none => acc
      | some b => f acc { pl := pl, i := i, p := p, b := b } t) s
  let s := if stOpcode (p.ent i) = 0x33 then each s (fun acc j t => acc.csrMove j k t) else s
  each s (fun acc j t => acc.askList j k t t.asks)

/-- What stands ready in a G-stage moved on: what waits sent, rows moved, pieces asked for, data emitted, and the slots that this frees used. -/
def State.gPump (s : State) (k : Nat) : State :=
  match s.boundAt k, s.running k with
  | some (pl, i, p), true =>
    let s := ((s.flush k).gAsk pl i p k).gAsk pl i p k
    (s.gEmit k (40 * (s.stage k).g.items.length + 512)).gAsk pl i p k
  | _, _ => s

/-- The same, batch after batch. -/
def State.gRun (s : State) (k : Nat) : State := (List.range 4).foldl (fun acc _ => (acc.gPump k).settle k) s

/-! ### Intake -/

/-- A new item of a window. -/
def State.newItem (s : State) (j : Job) (k w : Nat) (t : GItem) : State :=
  s.onStage k (fun x =>
    let g := x.g
    let wins := if g.windows.any (fun q => q.1 = w && q.2 = j.b.epoch) then g.windows else (g.windows.filter (fun q => q.1 ≠ w)) ++ [(w, j.b.epoch)]
    { x with g := { g with
      windows := wins, items := g.items ++ [{ t with id := g.nextItem, row := g.nextItem, epoch := j.b.epoch, window := w }], nextItem := g.nextItem + 1 } })

/-- An index noted for ROUTE_HISTORY: the first 4,096 distinct of the batch (05: R159). -/
def noteIndex (g : GState) (place : Nat) : GState :=
  if g.histNow.contains place || decide (4096 ≤ g.histNow.length) then g else { g with histNow := g.histNow ++ [place] }

/-- A row of a CSR_WALK begun: its pointers are to be read (03: R105). A null entry has no row, and counts in NULL_INDEX alone (assumption 70). -/
def State.beginRow (s : State) (j : Job) (k : Nat) (t : GItem) (q : Option Nat) : State :=
  let e := j.p.ent j.i
  let reg := field e 8 1
  let pw := csrPtr e
  let g := (s.stage k).g
  let more := if 1 < t.todo.length then [{ t with todo := t.todo.drop 1, pos := t.pos + 1 }] else []
  match q with
  | none => (s.bumpStage k 13 1).swapItem k t.id more
  | some row =>
    let a := entryAddr 0 (j.p.base j.b reg) (field e 0x10 8 + pw * row)
    if farRun a (2 * pw) then s.stageFault k 3
    else
      let r : GItem := { t with id := g.nextItem, row := g.nextItem, todo := [], phase := 0, segEnd := true, asks := askOf 0 reg a (2 * pw) }
      (s.onStage k (fun x => { x with g := { x.g with nextItem := x.g.nextItem + 1 } })).swapItem k t.id (r :: more)

/-- The next entry of an item issued: a null one counted, an address of 2^56 or more a fault (03: R99). -/
def State.issueEntry (s : State) (j : Job) (k : Nat) (t : GItem) : State :=
  let e := j.p.ent j.i
  let reg := field e 8 1
  let op := stOpcode e
  match t.todo with
  | [] => s
  | q :: rest =>
    if op = 0x33 then s.beginRow j k t q
    else match q with
    | none => (s.bumpStage k 13 1).onItem k t.id (fun t =>
        { t with todo := rest, count := t.count + 1, nulls := t.nulls ++ [t.count], operands := t.operands.drop ((atomicLen (field e 0xB 1)).getD 0) })
    | some place =>
      let a := entryAddr (field e 9 1) (j.p.base j.b reg + field e 0x10 8) place
      if farRun a t.bytes then s.stageFault k 3
      else
        let s := s.onStage k (fun x => { x with g := noteIndex x.g (if field e 9 1 = 4 then place else field e 0x10 8 + place) })
        let n := (atomicLen (field e 0xB 1)).getD 0
        let s := s.onItem k t.id (fun t => { t with todo := rest, count := t.count + 1, operands := t.operands.drop n })
        if op = 0x35 then s.askPiece j k t.window t.id t.count reg (some (field e 0xB 1)) (padTo n t.operands) false a t.bytes
        else s.onItem k t.id (fun t => { t with asks := t.asks ++ askOf (t.count - 1) reg a t.bytes })

/-- Blocks a PREFETCH entry fills. -/
def State.prefetchEntry (s : State) (j : Job) (k : Nat) (place : Nat) : State :=
  let e := j.p.ent j.i
  let a := entryAddr (field e 9 1) (j.p.base j.b (field e 8 1) + field e 0x10 8) place
  if farRun a (field e 0xC 4) then s.stageFault k 3
  else
    (blocksOf a (field e 0xC 4)).foldl (fun acc blk =>
      (acc.bumpStage k 8 1).request { src := stId k, partition := (s.stage k).partition, tag := 0, addr := max a (blk * 256) } .hint) s

/-- An index record taken up as one item, or done with at once by PREFETCH. -/
def State.takeIndex (s : State) (j : Job) (k w : Nat) (f : Nat × Nat × Rec) : State :=
  let e := j.p.ent j.i
  let op := stOpcode e
  let bs := f.2.2.payload
  let fm := if op = 0x33 then 2 else field e 9 1
  let es := entriesOf fm (if op = 0x33 then 1 else field e 0x18 8) (field e 0x20 8) 512 bs
  let s := (s.takeRec j k 0 f).onStage k (fun x => { x with g := { x.g with
    pos := x.g.pos + es.length, lastRange := match lastRangeOf fm bs with
      | some r => some r
      | none => x.g.lastRange } })
  let pos := (s.stage k).g.pos - es.length
  if op = 0x34 then
    es.foldl (fun acc q => match q with
      | none => acc.bumpStage k 13 1
      | some place => acc.prefetchEntry j k place) s
  else if op = 0x33 then
    if es.isEmpty then s else s.newItem j k w { id := 0, epoch := 0, window := 0, bytes := 0, pos := pos, phase := 5, todo := es }
  else
    let n := if op = 0x31 then field e 0xC 4 else if op = 0x32 then field e 0xA 1 else (atomicSize (field e 0xB 1)).getD 4
    s.newItem j k w { id := 0, epoch := 0, window := 0, bytes := n, pos := pos, segEnd := f.2.2.segEnd, todo := es }

/-- One step of an indexed operation: the next entry of an item issued, or a new index record taken. A window with 4,096 slots in use takes
no entry. -/
def State.gStep (s : State) (j : Job) (k : Nat) : State :=
  let g := (s.stage k).g
  match windowFor j g with
  | none => s
  | some w =>
    if 4096 ≤ slotsOf g w then s
    else
      match g.items.find? (fun t => t.epoch = j.b.epoch && !t.todo.isEmpty) with
      | some t => (s.issueEntry j k t).bumpStage k 0 1
      | none =>
        match dataOf j (s.stage k) 0 with
        | none => s
        | some f =>
          if stOpcode (j.p.ent j.i) = 0x35 then
            match dataOf j (s.stage k) 1 with
            | none => s
            | some f1 =>
              let id := g.nextItem
              let s := ((s.takeIndex j k w f).takeRec j k 1 f1).onItem k id (fun t => { t with operands := f1.2.2.payload })
              let n := ((s.stage k).g.items.find? (fun t => t.id = id)).map (fun t => t.todo.length * (atomicLen (field (j.p.ent j.i) 0xB 1)).getD 0)
              if n == some f1.2.2.payload.length then s else s.stageFault k 4
          else (s.takeIndex j k w f).bumpStage k 0 1

/-- One command of a G-stage: it takes up what it may of the batch whose inputs are open, unless it waits to send (03: R78), and moves on what
stands ready. -/
def State.gWork (s : State) (k op : Nat) (ls : LsRead) (go : Job → State → State) : Out :=
  match s.boundAt k with
  | none => .next s
  | some (_, i, p) =>
    if stTypeOf (p.ent i) = 2 ∧ stOpcode (p.ent i) = op then
      let s := match s.intake k with
        | some j => if j.clear (s.stage k) then s.lsSeen k ls (go j) else s
        | none => s
      .next (s.gRun k)
    else .next s

/-- LOAD (03: R97; 04: R122): the next record of the batch's span asked for; a span of 0 gives one empty record. -/
def execLoad (st : Nat) (ls : LsRead) (s : State) : Out :=
  s.gWork st 0x30 ls (fun j s =>
    let e := j.p.ent j.i
    let g := (s.stage st).g
    let span := field e 0x28 8
    let rl := if field e 0xC 4 = 0 then 2048 else field e 0xC 4
    let reg := field e 8 1
    let segs := field e 0x32 2
    match windowFor j g with
    | none => s
    | some w =>
      if g.loadDone || decide (4096 ≤ slotsOf g w) then s
      else
        let n := min rl (span - g.loaded)
        let a := entryAddr 0 (j.p.base j.b reg + field e 0x10 8) (j.b.index * span + g.loaded)
        let last := decide (span ≤ g.loaded + n)
        if farRun a n then s.stageFault st 3
        else
          let s := s.newItem j st w
            { id := 0, epoch := 0, window := 0, bytes := n, pos := g.pos, count := 1, asks := askOf 0 reg a n
              segEnd := last || (segs != 0 && (g.loaded / rl + 1) % segs == 0) }
          (s.onStage st (fun x => { x with g := { x.g with loaded := g.loaded + n, loadDone := last, pos := g.pos + 1 } })).bumpStage st 0 1)

/-- GATHER_ROWS (03: R97). -/
def execGatherRows (st : Nat) (ls : LsRead) (s : State) : Out := s.gWork st 0x31 ls (fun j s => s.gStep j st)

/-- GATHER_ELEM (03: R97). -/
def execGatherElem (st : Nat) (ls : LsRead) (s : State) : Out := s.gWork st 0x32 ls (fun j s => s.gStep j st)

/-- CSR_WALK (03: R105). -/
def execCsrWalk (st : Nat) (ls : LsRead) (s : State) : Out := s.gWork st 0x33 ls (fun j s => s.gStep j st)

/-- PREFETCH (03: R97). -/
def execPrefetch (st : Nat) (ls : LsRead) (s : State) : Out := s.gWork st 0x34 ls (fun j s => s.gStep j st)

/-- ATOMIC (03: R97, R103). -/
def execAtomic (st : Nat) (ls : LsRead) (s : State) : Out := s.gWork st 0x35 ls (fun j s => s.gStep j st)

/-! ### Responses (03: R101, R104; 05: R163) -/

/-- A store or atomic of a batch is complete at its home. -/
def State.storeDone (s : State) (pl e : Nat) : State := s.onPipe pl (fun p => p.mapBatch e (fun b => { b with stores := b.stores - 1 }))

/-- A response at its window: dropped and counted where its epoch was squashed, an error taken, else delivered to every request it serves. -/
def State.gResponse (s : State) (k tag status : Nat) (data : List Byte) : State :=
  match (s.stage k).g.reqs.find? (fun r => r.tag = tag && r.issued && r.leader.isNone && r.status.isNone) with
  | none => s
  | some r =>
    let s := s.bumpStage k 11 (subMod 64 (s.now (stDie k)) r.issuedAt)
    let pl := ((s.stage k).bind.map (·.1)).getD 256
    if r.discard then
      ((s.bumpStage k 10 1).onStage k (fun x => { x with g := { x.g with reqs := x.g.reqs.filter (fun q => q.tag ≠ tag) } })).wroteHome pl
        (fun w => w == (k, tag))
    else
      let s := s.onStage k (fun x => { x with g := { x.g with reqs := x.g.reqs.map (fun q =>
        if q.tag = tag ∨ q.leader = some tag then { q with status := some status, data := data, addr := r.addr } else q) } })
      -- which slot the response fills, and how, is not stated (assumption 70)
      let s := s.undefineLs k (0x400000 + r.window * 0x100000) 0x100000
      let s := if r.op.isSome then s.storeDone pl r.epoch else s
      if status ≠ 0 then
        match s.pipe? pl with
        | some p => if p.isHead r.epoch then s.stageFaultAs k 2 (errStatus status) else s
        | none => s
      else s.gRun k

/-- GATHER_RESPONSE (03: R101, R104): the completion the hub has handed to the stage. -/
def execGatherResponse (st tag status : Nat) (data : List Byte) (s : State) : Out :=
  match s.takeDone (stId st) tag status data with
  | none => .next s
  | some s => .next (s.gResponse st tag status data)

end Sys2Proof.Machine
end

