-- ==== Sys2Proof/Machine/Links.lean ====
section
/-!
DEFINITION. Die links, plinth links and beacon attaches: flits, acknowledgement and replay, packets, credits, retrains, capability words and
profiles; and completions, control and event packets at the hub (07: R205 to R222, R230, R231).
-/
namespace Sys2Proof.Machine

open Sys2Proof

/-! ### Retrains (07: R217, R221) -/

/-- Both ends retrain: nothing is carried, in the baseline profile. -/
def State.retrain (s : State) (k : Nat) : State :=
  [k, linkPeer k].foldl (fun acc j => acc.setLink j { acc.link j with
    st := .retraining, baseline := true, profile := baselineWord, switchAt := none, switchOut := none }) s

/-- Every unacknowledged flit again, in order; `counts` marks a replay by NAK or backstop. Sixteen within 10 us start a retrain. -/
def State.linkReplay (s : State) (k : Nat) (counts : Bool) : State :=
  let e := s.link k
  let now := s.now (k / 8)
  let recent := e.replayRefs.filter (fun r => decide (subMod 64 now r ≤ 1562))
  let refs := if counts then recent ++ [now] else recent
  let s := (s.setLink k { (e.put (linkBundles k) e.unacked) with replayRefs := refs }).bumpLink k 0 e.unacked.length
  let s := if counts then s.bumpLink k 4 1 else s
  if 16 ≤ refs.length then (s.setLink k { s.link k with replayRefs := [] }).retrain k else s

/-- A link that cannot go on: failure stop between plinths, otherwise a fence, with `retire` for a hard-faulty lane (07: R224, R230). -/
def State.linkFails (s : State) (k cause : Nat) (retire : Bool) : State :=
  if plinthLink k then s.failStop (if cause = 1 then 0x13 else 0x14) true else s.fenceDie (linkDie k) cause retire

/-- A hard-faulty lane (07: R207, R230). -/
def State.hardLane (s : State) (k lane : Nat) : State :=
  let s := [k, linkPeer k].foldl (fun acc j => acc.setLink j { acc.link j with hardFault := true, faultLane := lane }) s
  (s.post 0x0043 (linkUnit k) (leBytes 2 k ++ leBytes 2 lane ++ leBytes 1 1)).linkFails k 2 true

/-! ### Packets (07: R211 to R214) -/

/-- Is the LEN in its type's range? Reserved types have none. -/
def pktOk (typ len : Nat) : Bool :=
  match typ with
  | 1 | 2 | 5 | 8 | 0xA | 0xD => len == 0
  | 3 => decide (4 ≤ len) && decide (len ≤ 256)
  | 4 => decide (4 ≤ len) && decide (len ≤ 32)
  | 6 => decide (len ≤ 256)
  | 7 => decide (len ≤ 2048)
  | 9 | 0xC => decide (len ≤ 64)
  | 0xB => len == 4 || len == 8
  | 0xE => len == 8
  | _ => false

/-- Whole packets of a byte stream, and the bytes of one that goes on in the next flit. Eight zero bytes end a flit. -/
def splitPkts : Nat → List Byte → List HubPkt × List Byte
  | 0, bs => ([], bs)
  | n + 1, bs =>
    let h := field bs 0 8
    let len := bits 22 11 h
    let total := 16 + (len + 7) / 8 * 8
    if bs.isEmpty ∨ h = 0 then ([], [])
    else if bs.length < 16 ∨ bs.length < total then ([], bs)
    else
      let p : HubPkt :=
        { typ := bits 3 0 h, tc := bits 6 4 h, partition := bits 10 7 h, src := bits 34 23 h, dst := bits 46 35 h, tag := bits 62 47 h
          specific := field bs 8 8, payload := slice bs 16 len }
      let r := splitPkts n (bs.drop total)
      (p :: r.1, r.2)

/-- PROTOCOL_ERRORS, and what follows from one (07: R213). -/
def State.protocolError (s : State) (k : Nat) : State := (s.bumpLink k 7 1).linkFails k 4 false

/-- The same for a packet that a die's own end receives, and for one that the plinth's end receives from the die; packets between a plinth's own units
cross no link. -/
def State.dieError (s : State) (die : Nat) : State := if fenceable die then s.protocolError (8 * die) else s
def State.hubError (s : State) (die : Nat) : State := if fenceable die then s.protocolError (linkPeer (8 * die)) else s

/-- Credits that a LINK_CREDIT returns: each class's reserve of 512 units is filled first, the rest is shared space (07: R214). -/
def LinkEnd.credit (e : LinkEnd) (c n : Nat) : LinkEnd :=
  let own := Tbl.getD e.credits c 512
  let add := min n (512 - own)
  { e with credits := Tbl.set (Tbl.set e.credits c (own + add)) 6 (min 9216 (Tbl.getD e.credits 6 9216 + (n - add))) }

def LinkEnd.creditAll (e : LinkEnd) (counts : List Nat) : LinkEnd :=
  (List.range 6).foldl (fun acc c => acc.credit c (counts.getD c 0 % 1024)) e

/-- A capability word received; one with BASE 0 fails training (07: R220). -/
def State.takeCap (s : State) (k word : Nat) : State :=
  let s := s.setLink k { s.link k with peerWord := word }
  if bit 8 word then s else s.linkFails k 2 false

/-- The flit numbered `a` precedes or equals `b` (07: R210). -/
def flitUpTo (a b : Nat) : Bool := a == b || serialNewer 12 b a

/-- A pending switch takes effect once DATA flit S has come (07: R222). -/
def LinkEnd.switched (e : LinkEnd) : LinkEnd :=
  match e.switchAt with
  | none => e
  | some (n, w) => if flitUpTo n e.rxSeq then { e with profile := w, baseline := w % 2 ^ 13 == baselineWord, switchAt := none } else e

/-- The PARTITION of a packet that a plinth receives: from a compute die that of the sending stage's binding, whatever the packet carries; one of a beacon
that is not 0 is discarded (17: R513). -/
def State.markPkt (s : State) (k : Nat) (p : HubPkt) : Option HubPkt :=
  let d := linkPeer k / 8
  if !isPlinth (k / 8) || isPlinth d then some p
  else if 16 ≤ d then (if p.partition = 0 then some p else none)
  else some { p with partition := if p.src / 128 = d ∧ p.src % 128 < 30 then (s.stage (30 * d + p.src % 128)).partition else 0 }

/-- One good packet at its receiver: the link's own are taken there, the others go on to their unit. -/
def State.takePkt (s : State) (k : Nat) (p : HubPkt) : State :=
  if !pktOk p.typ p.payload.length then s.protocolError k
  else
    let e := s.link k
    match p.typ with
    | 1 => s.setLink k (e.creditAll ((List.range 6).map (fun i => bits (10 * i + 9) (10 * i) p.specific)))
    | 0xD => s.takeCap k p.specific
    | 0xE => s.setLink k (LinkEnd.switched { e with switchAt := some (field p.payload 0 8 % 4096, p.specific) })
    | _ =>
      let s := s.setLink k (e.owe p)
      match s.markPkt k p with
      | none => s
      | some p => if (s.die (p.dst / 128)).life != .up then s.lostTo p else s.enqueue (k / 8) (k % 8) p

/-! ### Flits (07: R208 to R216) -/

/-- ACK or NAK of a good flit: what it acknowledges leaves; a NAK replays the rest. -/
def State.takeAk (s : State) (k ak ackSeq : Nat) : State :=
  if ak = 1 ∨ ak = 2 then
    let e := s.link k
    let s := s.setLink k { e with
      unacked := e.unacked.filter (fun f => !flitUpTo f.fseq ackSeq)
      switchOut := e.switchOut.filter (fun n => !flitUpTo n ackSeq) }
    if ak = 2 && !(s.link k).unacked.isEmpty then s.linkReplay k true else s
  else s

/-- A DATA flit with a good CRC. -/
def State.takeFlit (s : State) (k fseq : Nat) (payload : List Byte) : State :=
  let e := s.link k
  let want := (e.rxSeq + 1) % 4096
  if fseq = want then
    let r := splitPkts 16 (e.partialIn ++ payload)
    let s := s.setLink k (LinkEnd.switched { e with rxSeq := fseq, ackDue := e.ackDue + 1, partialIn := r.2 })
    let s := s.bumpLink k 1 1
    let s := if 64 ≤ (s.link k).ackDue then s.sendIdle k 1 else s
    r.1.foldl (fun acc p => if (acc.link k).st == .up then acc.takePkt k p else acc) s
  else if flitUpTo fseq e.rxSeq then s.setLink k { e with ackDue := max 1 e.ackDue }
  else s.sendNak k

/-- One flit, in its turn. -/
def State.takeOne (s : State) (k : Nat) (flit : List Byte) : State :=
  if flit.length ≠ 128 ∨ field flit 0x7C 4 ≠ crc32c (flit.take 0x7C) then ((s.setLink k { s.link k with crcSeen := true }).bumpLink k 2 1).sendNak k
  else
    let h := field flit 0 2
    let a := field flit 2 2
    if 1 < h / 4096 then s
    else
      let s := s.takeAk k (bits 13 12 a) (a % 4096)
      if h / 4096 = 1 ∧ (s.link k).st = .up then s.takeFlit k (h % 4096) (slice flit 4 120) else s

/-- Flits taken in the order of the rotation, while the next one is here. -/
def State.takeTurns (s : State) (k b : Nat) : Nat → State
  | 0 => s
  | n + 1 =>
    let e := s.link k
    match Tbl.getD e.early (e.rxCount % b) [] with
    | [] => s
    | f :: fs =>
      if e.st != .up then s
      else
        let e' := { e with rxCount := e.rxCount + 1, early := if fs.isEmpty then Tbl.erase e.early (e.rxCount % b) else Tbl.set e.early (e.rxCount % b) fs }
        ((s.setLink k e').takeOne k f).takeTurns k b n

/-- A flit ahead of an older one is held for 5.5 ns at most, four flits of its bundle (07: R206, R208): at the fifth, the rotation goes on to the next
bundle with a flit. -/
def LinkEnd.overdue (e : LinkEnd) (b : Nat) : LinkEnd :=
  if e.early.any (fun (q : Nat × List (List Byte)) => decide (4 < q.2.length)) then
    { e with rxCount := e.rxCount + ((List.range b).find? (fun i => !(Tbl.getD e.early ((e.rxCount + i) % b) []).isEmpty)).getD 0 }
  else e

/-- FLIT_RX. A flit waits for its turn in the rotation, and wakes the bundle it comes on (07: R208, R220). -/
def execFlitRx (link : Nat) (flit : RxFlit) (s : State) : Out :=
  let e := s.link link
  .next (if e.st != .up || !isLinkEnd link then s
  else
    let b := max 1 (linkBundles link)
    let i := flit.bundle % b
    let e := { e with asleep := e.asleep.filter (· ≠ i), early := Tbl.upd e.early i [] (· ++ [flit.bytes]) }
    (s.setLink link (e.overdue b)).takeTurns link b ((e.early.map (fun q => q.2.length)).sum))

/-- LINK_ACK_TIMER (07: R215): a cumulative ACK; credits of packets moved on go back with it (07: R214). -/
def execLinkAckTimer (link : Nat) (s : State) : Out :=
  let e := s.link link
  .next (if e.st != .up then s
  else
    let s := if e.ackDue = 0 then s else s.sendIdle link 1
    let owed := (List.range 6).map (fun c => min 1023 (Tbl.getD e.owed c 0))
    if owed.all (· == 0) then s
    else
      let e := s.link link
      let s := s.setLink link { e with owed := (List.range 6).foldl (fun (t : Tbl Nat) c => Tbl.upd t c 0 (· - owed.getD c 0)) e.owed }
      s.sendData link (linkPkt link 1 ((List.range 6).map (fun c => owed.getD c 0 * 2 ^ (10 * c))).sum []))

/-- LINK_BACKSTOP_EXPIRY (07: R216). -/
def execLinkBackstopExpiry (link : Nat) (s : State) : Out :=
  let e := s.link link
  .next (if e.st != .up || e.unacked.isEmpty then s else (s.bumpLink link 5 1).linkReplay link true)

/-- LANE_LOSS_OF_LOCK (07: R217, R224): a failed die on 8 or more bundles, else a retrain. -/
def execLaneLossOfLock (link lane bundles : Nat) (s : State) : Out :=
  let e := s.link link
  .next (if !isLinkEnd link || (e.st != .up && e.st != .retraining) then s
  else if 8 ≤ bundles then s.linkFails link 1 false
  else (s.setLink link { e with badLane := lane }).retrain link)

/-- One end up after a retrain: what is not acknowledged goes again, then its word. -/
def State.retrainedEnd (s : State) (k peerWord : Nat) : State :=
  let e := s.link k
  let now := s.now (k / 8)
  let refs := e.retrainRefs.filter (fun r => decide (subMod 64 now r < 156250000)) ++ [now]
  (((s.trainEnd k { e with retrainRefs := refs } peerWord).bumpLink k 6 1).linkReplay k false).sendCap k

/-- Both ends up after a retrain; the link then switches to its negotiated profile unless the device is starting or in test (07: R220 to R222). -/
def State.retrained (s : State) (k peerWord : Nat) : State :=
  let s := (s.retrainedEnd k peerWord).retrainedEnd (linkPeer k) (s.link (linkPeer k)).peerWord
  let s := if plinthLink k then s else s.setDie (linkDie k) { s.die (linkDie k) with attempts := 0 }
  if s.boot.dev == .ready then s.switchLink k else s

/-- LINK_RETRAIN_DONE: `hardLane` names a lane that failed; more than four retrains in 1 s count as one (07: R217). -/
def execLinkRetrainDone (link : Nat) (hardLane : Option Nat) (peerWord : Nat) (s : State) : Out :=
  let e := s.link link
  .next (if e.st != .retraining then s
  else
    match hardLane with
    | some l => s.hardLane link l
    | none =>
      if !bit 8 peerWord then s.linkFails link 2 false
      else
        let s := s.retrained link peerWord
        if 4 < (s.link link).retrainRefs.length then s.hardLane link e.badLane else s)

/-- LINK_CREDIT (07: R214). -/
def execLinkCredit (link : Nat) (counts : List Nat) (s : State) : Out :=
  .next (if isLinkEnd link then s.setLink link ((s.link link).creditAll counts) else s)

/-- CAP (07: R220), at the end of a training. -/
def execCap (link word : Nat) (s : State) : Out :=
  .next (if isLinkEnd link && ((s.link link).st == .up || (s.link link).st == .training || (s.link link).st == .retraining) then s.takeCap link word else s)

/-- PROFILE (07: R222): the agreed word applies from DATA flit S. -/
def execProfile (link word atSeq : Nat) (s : State) : Out :=
  let e := s.link link
  .next (if e.st == .up then s.setLink link (LinkEnd.switched { e with switchAt := some (atSeq % 4096, word) }) else s)

/-- BUNDLE_SLEEP (07: R220), where the profile in use has the feature. -/
def execBundleSleep (link bundle : Nat) (s : State) : Out :=
  let e := s.link link
  .next (if e.st == .up && bit 9 e.profile && decide (bundle < linkBundles link) && !e.asleep.contains bundle then
    s.setLink link { e with asleep := e.asleep ++ [bundle] } else s)

/-! ### Packets at the hub (07: R212; 05: R149) -/

/-- A V-stage's store is complete at its home; an error faults the stage (03: R104; 05: R153). -/
def State.vResponse (s : State) (k tag status : Nat) : State :=
  let x := s.stage k
  match x.v.stores.find? (fun t => t.1 = tag) with
  | none => s
  | some t =>
    let s := s.setStage k { x with v := { x.v with stores := x.v.stores.filter (fun y => y.1 ≠ tag) } }
    let s := match x.bind with
      | some (pl, _) => (if t.2 = noEpoch then s else s.storeDone pl t.2).wroteHome pl (fun w => w == (k, tag))
      | none => s
    if status = 0 ∨ t.2 = noEpoch then s else s.stageFaultAs k 2 (errStatus status)

/-- Bytes that the requester of a tag expects from an OK completion. -/
def State.expects (s : State) (unit tag : Nat) : Option Nat :=
  let d := unit / 128
  let u := unit % 128
  if d < 12 ∧ u < 30 then
    let k := 30 * d + u
    match (s.stage k).g.reqs.find? (fun r => r.tag = tag && r.issued && r.leader.isNone && r.status.isNone) with
    | some r => some r.len
    | none => if (s.stage k).v.stores.any (fun t => t.1 = tag) then some 0 else none
  else if 12 ≤ d ∧ d < 16 ∧ u = 2 then
    match (s.chansOf (d - 12)).find? (fun c => c.reads.any (fun r => r.tag = tag)) with
    | some c => (c.reads.find? (fun r => r.tag = tag)).map (fun r => if r.merge then 8 else max 4 (r.len + r.skip))
    | none => if (s.chansOf (d - 12)).any (fun c => c.stores.any (fun r => r.tag = tag)) then some 0 else none
  else none

/-- A completion at its requester. -/
def State.completion (s : State) (unit tag status : Nat) (data : List Byte) : State :=
  let d := unit / 128
  let u := unit % 128
  if d < 12 ∧ u < 30 then
    let k := 30 * d + u
    if stType k = 2 then s.gResponse k tag status data else s.vResponse k tag status
  else if 12 ≤ d ∧ d < 16 ∧ u = 2 then
    match (s.chans.filter (fun (x : Nat × Chan) => x.1 / 64 = d - 12)).find? (fun x => (x.2.reads ++ x.2.stores).any (fun r => r.tag = tag)) with
    | some (k, c) => if c.reads.any (fun r => r.tag = tag) then s.tenderRead k tag status data else s.tenderStore k tag status
    | none => s
  else s

/-- COMPLETION: the requester checks its LEN against the length it asked for; a mismatch is a protocol error of its die's link (07: R212,
R213). -/
def execCompletion (unit tag status : Nat) (data : List Byte) (s : State) : Out :=
  match s.takeDone unit tag status data with
  | none => .next s
  | some s =>
    let want := (s.expects unit tag).getD data.length
    .next (if data.length ≠ (if status = 0 ∨ status = 2 then want else 0) then s.dieError (unit / 128)
    else s.completion unit tag status data)

/-- CONTROL_MESSAGE: handed to its unit; one too long is a protocol error. -/
def execControlMessage (dst opcode : Nat) (payload : List Byte) (s : State) : Out :=
  let d := dst / 128
  .next (if (s.die d).life != .up then s
  else if 64 < payload.length then s.dieError d
  else s.toUnit { typ := 9, tc := 0, partition := 0, src := exsarUnit, dst := dst, specific := opcode, payload := payload })

/-- EVENT: a die's report, with the reference count it carries (07: R212; 12: R389; 16: R484). -/
def execEvent (src code ref : Nat) (data : List Byte) (s : State) : Out :=
  let d := src / 128
  .next (if (s.die d).life != .up then s
  else if 64 < data.length then s.hubError d
  else
    match eventInfo code with
    | none => { s with log := s.log.take code 0xFF (logSeverity code) src ref data }
    | some (cls, sev) => ({ s with log := s.log.take code cls sev src ref data }).postTo 0 code cls sev src ref data)

end Sys2Proof.Machine
end

