-- ==== Sys2Proof/Machine/Security.lean ====
section
/-!
DEFINITION. Attestation, service-access levels and their exchange (13: R420; 17: R504, R508, R510, R515 to R522).
-/
namespace Sys2Proof.Machine

open Sys2Proof

/-- DEVICE_ID (17: R504). -/
def deviceId : List Byte := Config.sm3 Config.dikPub

/-- HALL_WAYPOINT, 0 while none is held (13: DEVICE_STATE; 17: R510). -/
def State.hallWaypoint (s : State) : Nat := (s.waypointHeld 0).getD 0

/-- NODE, 0xFFFF while not joined. -/
def State.nodeField (s : State) : Nat := s.fab.node.getD 0xFFFF

/-- The measurements AK is made from (17: R502). -/
def State.akMeasures (s : State) : List Byte := (s.sec.mr.take 3).flatten

/-- The report's first 0x280 bytes (17: R510). -/
def State.reportBody (s : State) (nonce : List Byte) : List Byte :=
  leBytes 4 0x54414D42 ++ leBytes 2 1 ++ leBytes 2 704 ++ padTo 32 nonce ++ padTo 32 deviceId ++
    leBytes 2 0xB000 ++ leBytes 2 0 ++ leBytes 4 s.firmware ++ leBytes 1 s.nor.fuses.lifecycle ++ leBytes 1 s.sec.level ++
    leBytes 1 (b2n s.boot.bankB) ++ leBytes 1 s.boot.dev.code ++ leBytes 4 s.nor.cast.number ++ leBytes 6 s.hallWaypoint ++
    leBytes 2 s.nodeField ++ padTo 256 s.sec.mr.flatten ++ (List.range 24).map (fun d => BitVec.ofNat 8 (Config.dieRevision d)) ++
    leBytes 4 s.sec.readmits ++ leBytes 4 s.sec.unlocks ++ padTo 64 (Config.akPub s.akMeasures) ++ padTo 64 s.sec.akCert ++
    padTo 64 Config.dikPub ++ padTo 64 Config.dikCert

/-- ATTEST; a part in RETURNED answers AUTH (17: R503). -/
def attestRun (_w : Waiter) (p : List Byte) (s : State) : Ans :=
  if s.nor.fuses.lifecycle = 2 then errAns 0xA s
  else
    let b := s.reportBody p
    .done 0 (b ++ padTo 64 (Config.signAk s.akMeasures b)) s

/-- The session on a mailbox, 0 where none is open. -/
def State.sessionOf (s : State) (mb : Nat) : Nat := ((s.helm.sessions.find? (fun x => x.key == mb)).map (·.id)).getD 0

/-- UNLOCK_CHALLENGE (17: R517, R518, R520). -/
def unlockChallengeRun (rand : List Byte) (w : Waiter) (p : List Byte) (s : State) : Ans :=
  let m := field p 0 1
  if 2 ≤ m then badAns 0 s
  else if m = 0 ∧ (s.setting 0x00070001 = 0 ∨ 10 ≤ s.nor.unlockFails) then errAns 6 s
  else
    let c := padTo 32 rand
    .done 0 c { s with sec := { s.sec with challenge := some (c, m, s.sessionOf w.1, s.now0) } }

/-- The challenge a response of a session and method may use: the newest, within 60 s (17: R517). -/
def State.validChallenge (s : State) (session method : Nat) : Option (List Byte) :=
  match s.sec.challenge with
  | none => none
  | some (c, m, x, ref) => if m = method ∧ x = session ∧ s.now0 - ref ≤ 60 * 156250000 then some c else none

/-- The challenge used up. -/
def State.useChallenge (s : State) : State := { s with sec := { s.sec with challenge := none } }

/-- A level opened for a session (17: R508, R519 to R521). -/
def State.openLevel (s : State) (session method level key : Nat) : State :=
  let s := s.extendMr 5 (leBytes 1 method ++ leBytes 1 level ++ leBytes 1 key)
  let s := { s with
    nor := { s.nor with unlockFails := 0 }
    sec := { s.sec with
      level := level, levelSession := some session, levelRef := s.now0, unlocks := satAdd 32 s.sec.unlocks 1 } }
  s.post 0x0059 exsarUnit (leBytes 1 method ++ leBytes 1 level)

/-- What is signed or authenticated for a level (17: R518, R519). -/
def proofBytes (c : List Byte) (level : Nat) (key : List Byte) (session : Nat) : List Byte :=
  c ++ deviceId ++ leBytes 1 level ++ key ++ leBytes 4 session

/-- UNLOCK_RESPONSE with METHOD 0: the attempt is counted before the proof is checked (17: R518, R520). -/
def unlockPasswordRun (w : Waiter) (p : List Byte) (s : State) : Ans :=
  let x := s.sessionOf w.1
  match s.validChallenge x 0 with
  | none => errAns 0xA s
  | some c =>
    let s := s.useChallenge
    if field p 4 1 ≠ 1 then badAns 4 s
    else if !s.norRange then errAns 5 s
    else
      let s := { s with nor := { s.nor with unlockFails := s.nor.unlockFails + 1 } }
      if slice p 8 32 = Config.hmacSm3 (leBytes 32 (s.setting 0x00070001)) (proofBytes c 1 [] x) then
        .done 0 (leBytes 1 1 ++ leBytes 3 0) (s.openLevel x 0 1 0)
      else errAns 0xA s

/-- Does the public key match its selector (17: R519)? -/
def State.unlockKeyOk (s : State) (key : Nat) (pub : List Byte) : Bool :=
  if key = 0 then s.setting 0x00070002 != 0 && pub == leBytes 64 (s.setting 0x00070002) else Config.sm3 pub == Config.serviceHash

/-- UNLOCK_RESPONSE with METHOD 1 (17: R516, R519). -/
def unlockSm2Run (w : Waiter) (p : List Byte) (s : State) : Ans :=
  let x := s.sessionOf w.1
  let level := field p 4 1
  let key := field p 5 1
  match s.validChallenge x 1 with
  | none => errAns 0xA s
  | some c =>
    let s := s.useChallenge
    if 2 ≤ key then badAns 5 s
    else if level = 0 ∨ 2 < level ∨ (key = 0 ∧ level = 2) then badAns 4 s
    else if s.unlockKeyOk key (slice p 8 64) &&
        Config.sm2Verify (slice p 8 64) (proofBytes c level (leBytes 1 key) x) (slice p 72 64) then
      .done 0 (leBytes 1 level ++ leBytes 3 0) (s.openLevel x 1 level key)
    else errAns 0xA s

/-! ### Commands -/

def execAttest (mb seq : Nat) (body : List Byte) (s : State) : Out := s.runHelm 0x0060 false (some [32]) mb seq body attestRun

def execUnlockChallenge (mb seq : Nat) (body rand : List Byte) (s : State) : Out :=
  s.runHelm 0x0061 true (some [1, 3]) mb seq body (unlockChallengeRun rand)

def execUnlockResponsePassword (mb seq : Nat) (body : List Byte) (s : State) : Out :=
  s.runMode 0x0062 true (some [1, 3, 1, 3, 32]) 0 0 1 mb seq body unlockPasswordRun

def execUnlockResponseSm2 (mb seq : Nat) (body : List Byte) (s : State) : Out :=
  s.runMode 0x0062 true (some [1, 3, 1, 1, 2, 64, 64]) 0 1 1 mb seq body unlockSm2Run

/-- LOCK (17: R521). -/
def execLock (mb seq : Nat) (body : List Byte) (s : State) : Out :=
  s.runHelm 0x0063 true (some []) mb seq body (fun _ _ t => okAns t.lockLevel)

/-- UNLOCK_LIFETIME_EXPIRY (17: R521). -/
def execUnlockLifetimeExpiry (s : State) : Out := .next s.lockLevel

end Sys2Proof.Machine
end

