-- ==== Sys2Proof/Machine/Casts.lean ====
section
/-!
DEFINITION. The maquette, cast commit and return, armed cast actions, and the re-lay of a new interleave key (06: R194; 13: R418; 18: R534
to R539).
-/
namespace Sys2Proof.Machine

open Sys2Proof

/-! ### Checks -/

/-- Does a channel run in the sense of 11: R371? -/
def ChanSt.runs : ChanSt → Bool
  | .idle | .error => false
  | .running | .pausing | .paused => true

/-- The rule of R194: every pipeline IDLE or FAILED and no tender channel running. -/
def State.quietForReseed (s : State) : Bool :=
  (Tbl.vals s.pipes).all (fun p => p.st == .idle || p.st == .failed) && (Tbl.vals s.chans).all (fun c => !c.st.runs)

/-- Does an entry cover part of the package's own spill regions of `size` bytes under a node (10: R330)? -/
def WinEntry.coversSpill (e : WinEntry) (node size : Nat) : Bool :=
  decide (e.nodeLo ≤ node) && decide (node ≤ e.nodeHi) && size != 0 &&
    (List.range 4).any (fun p => decide (e.base < (p + 1) * 2 ^ 40) && decide ((p + 1) * 2 ^ 40 - size ≤ e.limit))

/-- Does some window entry cover part of a spill region? -/
def State.windowsCoverSpill (s : State) (node size : Nat) : Bool :=
  s.parts.any (fun p => (Tbl.vals p.2.window).any (fun e => e.coversSpill node size))

/-- Cross-checks of a cast that would come into force (13: R418): the status that refuses it, if one does. -/
def State.castRefusal (s : State) (c : Cast) (reseed : Bool) : Option Nat :=
  let badCfg := (List.range 8).any (fun b => (switchKeys b).any (fun k => !isPermutation (c.value k)))
  let spill := c.value 0x00020007
  if reseed && !s.quietForReseed then some 4
  else if badCfg then some 1
  else if spill != s.setting 0x00020007 && s.windowsCoverSpill s.ownNode (spill * 2 ^ 26) then some 1
  else if !s.norRange then some 5
  else none

/-! ### Putting a cast in force (18: R536, R537, R539; 17: R508) -/

/-- The least recently used FIXED lines beyond the share made INVALID (18: R539; 08: R255). -/
def trimFixed (limit : Nat) : Nat → Cache → Cache
  | 0, c => c
  | n + 1, c =>
    if c.fixedCount ≤ limit then c
    else
      match oldestLine (c.lines.filter CacheLine.isFixed) with
      | some v => trimFixed limit n (c.drop v)
      | none => c

/-- Every plinth's FIXED lines held to the share in force. -/
def State.trimShare (s : State) : State :=
  (List.range 4).foldl (fun acc p => acc.setCache p (trimFixed s.fixedLimit (acc.cache p).lines.length (acc.cache p))) s

/-- A cast written to the store as the current one, the given one as the previous; its items applied (18: R539). -/
def State.applyCast (s : State) (c : Cast) (prev : Cast) (v : Nat) : State :=
  let s := { s with nor := { s.nor with cast := c, prev := some prev, castOwed := none } }
  let s := (s.extendMr 4 c.bytes).refreshModes.trimShare
  s.post 0x0050 exsarUnit (leBytes 4 c.number ++ leBytes 6 v)

/-- The current cast with maquette items laid over it, numbered next (18: R535, R536). -/
def State.builtCast (s : State) (items : Tbl Nat) : Cast :=
  let c := (items.filter (fun i => i.1 ≠ reseedKey)).foldl (fun (c : Cast) i => c.put i.1 i.2) s.nor.cast
  { c with number := addMod 32 s.nor.cast.number 1 }

/-- Does the item list ask for a new key? -/
def asksReseed (items : Tbl Nat) : Bool := Tbl.has items reseedKey

/-- A re-lay is asked of all four plinths, each of which begins once no port of its beacons holds spilled flits (06: R194); the cast takes effect
at its end. -/
def State.startRelay (s : State) (w : Option Waiter) (key : List Nat) (c : Cast) (v : Nat) : State :=
  { s with upd := { s.upd with relay := some { waiter := w, plinths := [0, 1, 2, 3], newKey := key, cast := c, v := v } } }

/-- An armed action fires (18: R538; 13: R418): a failure leaves the cast in force and posts CAST_FAILED. The live maquette stays. -/
def State.fireCast (s : State) (draws : List (List Nat)) : State :=
  match s.upd.castArm with
  | none => s
  | some a =>
    let s := { s with upd := { s.upd with castArm := none } }
    let fail := fun (st : Nat) => s.post 0x0051 exsarUnit (leBytes 1 st ++ leBytes 4 s.nor.cast.number)
    if a.ret then
      match s.nor.prev with
      | none => fail 8
      | some p =>
        match s.castRefusal p false with
        | some st => fail st
        | none => s.applyCast { p with number := addMod 32 s.nor.cast.number 1 } s.nor.cast a.v
    else
      let c := s.builtCast a.items
      let re := asksReseed a.items
      match s.castRefusal c re, drawKey draws with
      | some st, _ => fail st
      | none, some key => if re then s.startRelay none key c a.v else s.applyCast c s.nor.cast a.v
      | none, none => if re then s else s.applyCast c s.nor.cast a.v

/-- Does an armed commit that would pass its checks wait for a key draw? Such a firing has to bring one (06: R175). -/
def State.fireNeedsKey (s : State) : Bool :=
  match s.upd.castArm with
  | none => false
  | some a => !a.ret && asksReseed a.items && (s.castRefusal (s.builtCast a.items) true).isNone

/-- RELAY_DONE (06: R194): a plinth's part of the re-lay is over, and what waited there is served under the new key. After the last, the cast takes
effect. -/
def execRelayDone (plinth : Nat) (s : State) : Out :=
  .next (match s.upd.relay with
  | none => s
  | some r =>
    if !s.relaying plinth then s
    else
      let left := r.plinths.filter (fun p => p ≠ plinth)
      if left.isEmpty then
        let s := { s with
          upd := { s.upd with relay := none }
          boot := { s.boot with key := r.newKey } }
        let s := s.applyCast r.cast s.nor.cast r.v
        let s := s.goOn
        match r.waiter with
        | some w => s.answerCmd w 0x0053 0 (leBytes 4 s.nor.cast.number)
        | none => s
      else ({ s with upd := { s.upd with relay := some { r with plinths := left } } }).goOn)

/-! ### Waypoints an action can be armed for (08: R264) -/

/-- May an action be armed for V of the hall waypoint: joined, a value held, and V after it? -/
def State.canArm (s : State) (v : Nat) : Bool :=
  match s.fab.node, s.waypointHeld 0 with
  | some _, some w => serialNewer 48 v w
  | _, _ => false

/-! ### The maquette (18: R534; 13: R418) -/

/-- LEN of a key in the running image's format (18: R533, R590). -/
def State.keyLen (s : State) (k : Nat) : Option Nat :=
  itemLen ((Config.imageFormat ((s.running?.map Image.bytes).getD []) k).getD 1) k

/-- Items of a MAQUETTE_SET from offset `off`: those read, or the offset of the first failing field. -/
def State.parseItems (s : State) : Nat → Nat → List Byte → Tbl Nat → Except Nat (Tbl Nat)
  | 0, off, bs, m => if bs.length = off then .ok m else .error off
  | n + 1, off, bs, m =>
    if bs.length < off + 8 then .error off
    else
      let k := field bs off 4
      let len := field bs (off + 4) 2
      let wide := (len + 7) / 8 * 8
      match s.keyLen k with
      | none => .error off
      | some l =>
        if len ≠ 0 ∧ len ≠ l then .error (off + 4)
        else if bs.length < off + 8 + wide then .error (off + 8)
        else if len = 0 then s.parseItems n (off + 8) bs (Tbl.erase m k)
        else
          let v := field bs (off + 8) len
          if itemOk k v then s.parseItems n (off + 8 + wide) bs (Tbl.set m k v) else .error (off + 8)

/-- Bytes of values a maquette holds. -/
def State.maquetteBytes (s : State) (m : Tbl Nat) : Nat := (m.map (fun i => (s.keyLen i.1).getD 0)).sum

/-- MAQUETTE_SET. -/
def maquetteSetRun (_w : Waiter) (p : List Byte) (s : State) : Ans :=
  if s.upd.relay.isSome then errAns 2 s
  else if p.length < 4 then badAns 0 s
  else
    match s.parseItems (field p 0 2) 4 p s.upd.maquette with
    | .error off => badAns off s
    | .ok m =>
      if 256 < m.length ∨ 65536 < s.maquetteBytes m then badAns 0 s
      else okAns { s with upd := { s.upd with maquette := m } }

/-- An item as MAQUETTE_READ gives it: UNLOCK_VERIFIER reads as zeros (17: R515). -/
def State.readItem (s : State) (k v : Nat) : List Byte :=
  let n := (s.keyLen k).getD 0
  itemBytes k n (if k = 0x00070001 then 0 else v)

/-- MAQUETTE_READ. -/
def maquetteReadRun (_w : Waiter) (p : List Byte) (s : State) : Ans :=
  let cast := fun (c : Cast) => leBytes 4 c.number ++ castKeys.flatMap (fun k => s.readItem k (c.value k))
  match field p 0 1 with
  | 0 => .done 0 (leBytes 4 s.nor.cast.number ++ s.upd.maquette.flatMap (fun i => s.readItem i.1 i.2)) s
  | 1 => .done 0 (cast s.nor.cast) s
  | 2 =>
    match s.nor.prev with
    | some c => .done 0 (cast c) s
    | none => errAns 8 s
  | _ => badAns 0 s

/-- MAQUETTE_DISCARD. -/
def maquetteDiscardRun (_w : Waiter) (_p : List Byte) (s : State) : Ans :=
  if s.upd.relay.isSome then errAns 2 s else okAns { s with upd := { s.upd with maquette := [] } }

/-! ### Commit and return -/

/-- The answer of the cast commands: the number of the cast in force. -/
def castAns (s : State) : Ans := .done 0 (leBytes 4 s.nor.cast.number) s

/-- A refusal of a cast check; INVALID names the command's first byte. -/
def castErr (st : Nat) (s : State) : Ans := if st = 1 then badAns 0 s else errAns st s

/-- CAST_COMMIT, MODE 0 (18: R536). -/
def castCommitRun (draws : List (List Nat)) (w : Waiter) (_p : List Byte) (s : State) : Ans :=
  if s.upd.relay.isSome then errAns 2 s
  else
    let c := s.builtCast s.upd.maquette
    let re := asksReseed s.upd.maquette
    match s.castRefusal c re with
    | some st => castErr st s
    | none =>
      let t := { s with upd := { s.upd with maquette := [] } }
      match re, drawKey draws with
      | true, some key => .runs (t.startRelay (some w) key c 0)
      | _, _ => castAns (t.applyCast c s.nor.cast 0)

/-- CAST_COMMIT or CAST_RETURN armed for waypoint V (18: R538; 13: R418). -/
def castArmRun (ret : Bool) (p : List Byte) (s : State) : Ans :=
  let v := field p 2 6
  if s.upd.relay.isSome then errAns 2 s
  else if s.upd.castArm.isSome then errAns 2 s
  else if ret && s.nor.prev.isNone then errAns 8 s
  else if !s.canArm v then badAns 2 s
  else castAns { s with upd := { s.upd with castArm := some { ret := ret, v := v, items := if ret then [] else s.upd.maquette } } }

/-- MODE 2: the cast action in force is disarmed. -/
def castDisarmRun (s : State) : Ans :=
  if s.upd.relay.isSome then errAns 2 s else castAns { s with upd := { s.upd with castArm := none } }

/-- CAST_RETURN, every mode (18: R537). -/
def castReturnRun (_w : Waiter) (p : List Byte) (s : State) : Ans :=
  match field p 0 1 with
  | 0 =>
    if s.upd.relay.isSome then errAns 2 s
    else
      match s.nor.prev with
      | none => errAns 8 s
      | some c =>
        match s.castRefusal c false with
        | some st => castErr st s
        | none => castAns (s.applyCast { c with number := addMod 32 s.nor.cast.number 1 } s.nor.cast 0)
  | 1 => castArmRun true p s
  | 2 => castDisarmRun s
  | _ => badAns 0 s

/-! ### Commands -/

def execMaquetteSet (mb seq : Nat) (body : List Byte) (s : State) : Out :=
  s.runHelm 0x0050 true none mb seq body maquetteSetRun

def execMaquetteRead (mb seq : Nat) (body : List Byte) (s : State) : Out :=
  s.runHelm 0x0051 true (some [1, 3]) mb seq body maquetteReadRun

def execMaquetteDiscard (mb seq : Nat) (body : List Byte) (s : State) : Out :=
  s.runHelm 0x0052 true (some []) mb seq body maquetteDiscardRun

/-- CAST_COMMIT, MODE 0. A commit that needs a new key is run once a draw qualifies (06: R175). -/
def execCastCommit (mb seq : Nat) (body : List Byte) (draws : List (List Nat)) (s : State) : Out :=
  if s.isReady && mbPartition mb == 0 && asksReseed s.upd.maquette && (drawKey draws).isNone then .next s
  else s.runMode 0x0053 true (some [1, 1, 6]) 0 0 2 mb seq body (castCommitRun draws)

/-- CAST_COMMIT, MODE 1. -/
def execCastCommitArm (mb seq : Nat) (body : List Byte) (s : State) : Out :=
  s.runMode 0x0053 true (some [1, 1, 6]) 0 1 2 mb seq body (fun _ p t => castArmRun false p t)

/-- CAST_COMMIT, MODE 2. -/
def execCastCommitDisarm (mb seq : Nat) (body : List Byte) (s : State) : Out :=
  s.runMode 0x0053 true (some [1, 1, 6]) 0 2 2 mb seq body (fun _ _ t => castDisarmRun t)

def execCastReturn (mb seq : Nat) (body : List Byte) (s : State) : Out :=
  s.runHelm 0x0054 true (some [1, 1, 6]) mb seq body castReturnRun

end Sys2Proof.Machine
end

