-- ==== Sys2Proof/Machine/Update.lean ====
section
/-!
DEFINITION. Firmware update: deltas, staging, arms and the activation they fire (13: R419; 18: R523 to R532).
-/
namespace Sys2Proof.Machine

open Sys2Proof

/-! ### Banks -/

/-- State of a bank in the governing record. -/
def BankRecord.state (r : BankRecord) (bankB : Bool) : BankSt := if bankB then r.stateB else r.stateA
def BankRecord.setState (r : BankRecord) (bankB : Bool) (x : BankSt) : BankRecord :=
  if bankB then { r with stateB := x } else { r with stateA := x }
def BankRecord.setVersion (r : BankRecord) (bankB : Bool) (v : Nat) (hash : List Byte) : BankRecord :=
  if bankB then { r with versionB := v, hashB := hash } else { r with versionA := v, hashA := hash }
def Nor.setImage (n : Nor) (bankB : Bool) (i : Option Image) : Nor := if bankB then { n with imageB := i } else { n with imageA := i }

/-- The bank that does not run. -/
def State.spare (s : State) : Bool := !s.boot.bankB

/-- Is a firmware arm in force: 0 none, 1 next start, 2 waypoint (18: R529)? One that fired outside the NOR range takes over at the next
start (18: R530). -/
def State.armCode (s : State) : Nat :=
  if s.upd.updArm.isSome then 2 else if s.nor.record.pending.isSome || s.nor.pendOwed.isSome then 1 else 0

/-! ### Deltas (18: R526, R527) -/

/-- One operation of a delta: KIND, LEN, ARG. -/
structure DeltaOp where
  kind : Nat
  len : Nat
  arg : Nat
  deriving DecidableEq, Repr

/-- Operations from offset `off`. -/
def deltaOps (d : List Byte) : Nat → Nat → List DeltaOp
  | 0, _ => []
  | n + 1, off => { kind := field d off 1, len := field d (off + 4) 4, arg := field d (off + 8) 8 } :: deltaOps d n (off + 16)

/-- First and last-plus-one byte of the literal section. -/
def literalAt (d : List Byte) : Nat × Nat := (192 + 16 * field d 0x10 4, field d 0x08 4 - 64)

/-- Does an operation keep its rules, for a running image of `n` bytes? -/
def DeltaOp.ok (o : DeltaOp) (d : List Byte) (n : Nat) : Bool :=
  match o.kind with
  | 1 => decide (o.arg + o.len ≤ n)
  | 2 => decide ((literalAt d).1 ≤ o.arg) && decide (o.arg + o.len ≤ (literalAt d).2)
  | 3 => true
  | _ => false

/-- What an operation writes. -/
def DeltaOp.out (o : DeltaOp) (d image : List Byte) : List Byte :=
  match o.kind with
  | 1 => slice image o.arg o.len
  | 2 => slice d o.arg o.len
  | _ => List.replicate o.len (BitVec.ofNat 8 o.arg)

/-- Step 1 of R528 on a delta of `length` bytes against the running image: the offset of the first failing field. -/
def deltaBad (d : List Byte) (length : Nat) (image : List Byte) : Option Nat :=
  let nops := field d 0x10 4
  if length < 192 then some 0
  else if field d 0 4 ≠ 0x544C4442 then some 0
  else if field d 4 2 ≠ 1 then some 4
  else if field d 6 2 ≠ 192 then some 6
  else if field d 8 4 ≠ length ∨ 80 * 2 ^ 20 < length then some 8
  else if 64 * 2 ^ 20 < field d 0xC 4 then some 0xC
  else if nops < 1 ∨ 1048576 < nops ∨ length < 192 + 16 * nops + 64 then some 0x10
  else
    let ops := deltaOps d nops 192
    if (ops.map (·.len)).sum ≠ field d 0xC 4 then some 0xC
    else if !(ops.all (fun o => o.ok d image.length)) then some 192
    else if slice d 0x20 32 ≠ Config.sm3 image then some 0x20
    else none

/-- The whole target image. -/
def deltaTarget (d image : List Byte) : List Byte := (deltaOps d (field d 0x10 4) 192).flatMap (fun o => o.out d image)

/-! ### Staging (18: R528; 15: R461) -/

/-- A staging ends: the inactive bank is left EMPTY. -/
def State.dropStaging (s : State) : State :=
  let nor := s.nor.setImage s.spare none
  { s with nor := nor, upd := { s.upd with staging := none } }

/-- MEM_ERROR of a delta whose read ends at a block with this status. -/
def deltaError (s : State) (a n status : Nat) (t : State) : Ans :=
  let hit := ((runParts a n).find? (fun x => s.isPoison (localOf x.2.1))).getD (0, a, 0)
  .done 0xF (memErrorAns (status, hit.1)) t

/-- UPDATE_STAGE, steps 1 to 3; step 4 then programs 4 KiB at a time. Step 1 reads the header and the operation list, step 3 the whole delta. -/
def updateStageRun (w : Waiter) (p : List Byte) (s : State) : Ans :=
  let a := field p 0 8
  let n := field p 8 4
  let image := (s.running?.map Image.bytes).getD []
  if !s.norRange then errAns 5 s
  else if s.upd.staging.isSome || s.armCode != 0 then errAns 2 s
  else if n = 0 then badAns 8 s
  else if !s.isLocal a || 2 ^ 42 < localOf a + n || s.spillHit a n then errAns 3 (s.violation 0 0 a accRead)
  else
    let h := s.readRun (localOf a) (min n 192)
    if h.1 ≠ 0 then deltaError s a n h.1 h.2.2
    else
      let ops := h.2.2.readRun (localOf a + 192) (min (n - 192) (16 * field h.2.1 0x10 4))
      if ops.1 ≠ 0 then deltaError s a n ops.1 ops.2.2
      else
        match deltaBad (Store.readN s.mem (localOf a) n) n image with
        | some off => badAns off ops.2.2
        | none =>
          let s := ops.2.2
          let s := s.writeRecord (s.nor.record.setState s.spare .empty)
          let s := { s with nor := s.nor.setImage s.spare none }
          let r := s.readRun (localOf a) n
          let d := r.2.1
          let pub := slice d 0x60 64
          if r.1 ≠ 0 then deltaError s a n r.1 r.2.2
          else if rootAccepted s.nor.fuses pub && Config.sm2Verify pub (d.take (n - 64)) (d.drop (n - 64)) then
            let t := deltaTarget d image
            let g : Staging :=
              { waiter := w, target := t, version := field d 0x18 4, hashOk := Config.sm3 t == slice d 0x40 32 }
            .runs { r.2.2 with upd := { s.upd with staging := some g } }
          else errAns 0xA r.2.2

/-- NOR_PROGRAM_DONE (15: R461; 18: R528): an operation of at most 4 KiB completes. Out of range, the command ends ABORTED before the
next one; after the last, the bank is read back and marked STAGED, or the command ends AUTH. -/
def execNorProgramDone (s : State) : Out :=
  .next (match s.upd.staging with
  | none => s
  | some g =>
    let n := g.programmed + 4096
    if n < g.target.length then
      if s.norRange then { s with upd := { s.upd with staging := some { g with programmed := n } } }
      else s.dropStaging.answerCmd g.waiter 0x0055 0x10 []
    else
      let img : Image := { header := g.target.take 512, body := g.target.drop 512 }
      if !g.hashOk || !img.accepted s.nor.fuses then s.dropStaging.answerCmd g.waiter 0x0055 0xA []
      else if !s.norRange then s.dropStaging.answerCmd g.waiter 0x0055 0x10 []
      else
        let b := s.spare
        let nor := s.nor.setImage b (some img)
        let s := { s with nor := nor, upd := { s.upd with staging := none } }
        let s := s.writeRecord ((s.nor.record.setState b .staged).setVersion b img.firmware (Config.sm3 img.bytes))
        let s := s.post 0x0052 exsarUnit (leBytes 1 (b2n b) ++ leBytes 4 img.firmware)
        s.answerCmd g.waiter 0x0055 0 (leBytes 4 img.firmware ++ leBytes 1 (b2n b) ++ leBytes 3 0))

/-! ### Arms (18: R529) -/

/-- Can the inactive bank be armed: STAGED or PREVIOUS, and SEC_VERSION at least ROLLBACK_MIN? -/
def State.armable (s : State) : Bool :=
  let st := s.nor.record.state s.spare
  (st == .staged || st == .previous) &&
    ((s.nor.image? s.spare).map (fun i => decide (s.nor.fuses.rollbackMin ≤ i.secVersion))).getD false

/-- MODE 0: PENDING for the next start. -/
def updateArm0Run (_w : Waiter) (_p : List Byte) (s : State) : Ans :=
  if s.upd.staging.isSome then errAns 2 s
  else if !s.armable then badAns 0 s
  else if !s.norRange then errAns 5 s
  else
    let s := { s with upd := { s.upd with updArm := none }, nor := { s.nor with pendOwed := none } }
    okAns (s.writeRecord { s.nor.record with pending := some s.spare, tries := 0, armV := 0 })

/-- MODE 1: armed for waypoint V in control-core state; a MODE 0 arm is cleared first. -/
def updateArm1Run (_w : Waiter) (p : List Byte) (s : State) : Ans :=
  let v := field p 2 6
  if s.upd.staging.isSome then errAns 2 s
  else if !s.armable then badAns 0 s
  else if !s.canArm v then badAns 2 s
  else if s.nor.record.pending.isSome && !s.norRange then errAns 5 s
  else
    let s := if s.nor.record.pending.isSome then s.writeRecord { s.nor.record with pending := none } else s
    okAns { s with upd := { s.upd with updArm := some v }, nor := { s.nor with pendOwed := none } }

/-- MODE 2: either kind of arm is removed. -/
def updateDisarmRun (_w : Waiter) (_p : List Byte) (s : State) : Ans :=
  if s.upd.staging.isSome then errAns 2 s
  else if s.nor.record.pending.isSome && !s.norRange then errAns 5 s
  else
    let s := if s.nor.record.pending.isSome then s.writeRecord { s.nor.record with pending := none } else s
    okAns { s with upd := { s.upd with updArm := none }, nor := { s.nor with pendOwed := none } }

/-- UPDATE_STATUS: running bank and version, inactive bank and version, ARMED, V. -/
def updateStatusRun (_w : Waiter) (_p : List Byte) (s : State) : Ans :=
  let ver := if s.nor.record.state s.spare = .empty then 0 else ((s.nor.image? s.spare).map Image.firmware).getD 0
  let v := match s.upd.updArm with
    | some x => x
    | none => if s.nor.record.pending.isSome then s.nor.record.armV else s.nor.pendOwed.getD 0
  .done 0 (leBytes 1 (b2n s.boot.bankB) ++ leBytes 4 s.firmware ++ leBytes 1 (b2n s.spare) ++ leBytes 4 ver ++
    leBytes 1 s.armCode ++ leBytes 6 v) s

/-! ### Firing (18: R530) -/

/-- An activation start is owed: everything an external reset clears is cleared, the pins stand as they are. -/
def State.activate (s : State) : State :=
  let c := s.cleared
  { c with
    pins := { s.pins with lsmResetN := 0, coolDuty := 200 }
    boot := { c.boot with activation := true } }

/-- The firmware arm fires at waypoint V. -/
def State.fireActivation (s : State) (v : Nat) : State :=
  let s := { s with upd := { s.upd with updArm := none } }
  if s.norRange then
    (s.writeRecord { s.nor.record with pending := some s.spare, tries := 0, armV := v }).activate
  else
    { s with nor := { s.nor with pendOwed := some v } }.logOnly 0x0130 exsarUnit (leBytes 6 v)

/-- A deferred PENDING is written at the first sample in range. -/
def State.payPending (s : State) : State :=
  match s.nor.pendOwed with
  | none => s
  | some v =>
    if s.norRange then
      let s := { s with nor := { s.nor with pendOwed := none } }
      s.writeRecord { s.nor.record with pending := some s.spare, tries := 0, armV := v }
    else s

/-! ### Commands -/

/-- UPDATE_STAGE. While a block of the delta is kept busy, its read waits (06: R176, R189, R190, R194). -/
def execUpdateStage (mb seq : Nat) (body : List Byte) (s : State) : Out :=
  if s.isReady && mbPartition mb == 0 && s.isLocal (field body 4 8) && s.runBusy (localOf (field body 4 8)) (field body 12 4) then .next s
  else s.runHelm 0x0055 true (some [8, 4, 4]) mb seq body updateStageRun

def execUpdateArmNextStart (mb seq : Nat) (body : List Byte) (s : State) : Out :=
  s.runMode 0x0056 true (some [1, 1, 6]) 0 0 2 mb seq body updateArm0Run

def execUpdateArmWaypoint (mb seq : Nat) (body : List Byte) (s : State) : Out :=
  s.runMode 0x0056 true (some [1, 1, 6]) 0 1 2 mb seq body updateArm1Run

def execUpdateDisarm (mb seq : Nat) (body : List Byte) (s : State) : Out :=
  s.runMode 0x0056 true (some [1, 1, 6]) 0 2 2 mb seq body updateDisarmRun

def execUpdateStatus (mb seq : Nat) (body : List Byte) (s : State) : Out :=
  s.runHelm 0x0057 false (some []) mb seq body updateStatusRun

end Sys2Proof.Machine
end

