-- ==== Sys2Proof/Machine/Twins.lean ====
section
/-!
DEFINITION. Twins: the arbiter's TWIN_STATE, switch-over, and resync (08: R271 to R276; 13: R421; 05: R170).
-/
namespace Sys2Proof.Machine

open Sys2Proof

/-! ### Changes of state -/

/-- Every invocation in flight is discarded, its outputs undefined (08: R275; 05: R170); the pipelines stay loaded. -/
def State.discardFlight (s : State) : State :=
  (Tbl.keys s.pipes).foldl (fun acc pl =>
    match (acc.pipe? pl).map (fun (p : Pipe) => p.st) with
    | some .running | some .draining => acc.abortPipe pl 2 .idle
    | some .suspended => acc.abortPipe pl 2 .suspended
    | _ => acc) s

/-- Every MIRROR_WR still waiting for its acknowledgement completes MIRROR_LOST (08: R276). -/
def State.mirrorsLost (s : State) : State :=
  let open_ := s.fab.outstanding.filter (·.twin)
  let s := open_.foldl (fun acc r =>
    let acc := acc.dropOut r.reqId
    let acc := { acc with fab := { acc.fab with closedIds := acc.fab.closedIds ++ [(r.reqId, r.plinth)] } }
    acc.finish { r with reqId := r.orig } 9 []) s
  if open_.isEmpty then s else s.goOn

/-- A new twin state in force, posted as TWIN_CHANGED. A package that becomes STANDBY runs no pipeline (08: R271). -/
def State.enterTwin (s : State) (dest : TwinSt) (seq : Nat) : State :=
  let old := s.fab.twin
  let s := if (old == .active || old == .resync) && dest == .solo then s.mirrorsLost else s
  let s := if dest == .standby then s.discardFlight else s
  let s := { s with fab := { s.fab with twin := dest, twinArm := none, resync := if dest = TwinSt.resync then none else s.fab.resync } }
  s.post 0x0056 exsarUnit (leBytes 1 old.code ++ leBytes 1 dest.code ++ leBytes 8 seq)

/-- The armed switch-over fires at the commit of hall waypoint `value` (08: R264, R275). -/
def State.fireTwin (s : State) (value : Nat) : State :=
  match s.fab.twinArm with
  | none => s
  | some a => if serialNewer 48 a.v value then s else s.enterTwin a.toSt a.seq

/-! ### TWIN_STATE (13: R421) -/

/-- A state code. -/
def twinOf (c : Nat) : Option TwinSt :=
  match c with
  | 0 => some .none | 1 => some .active | 2 => some .standby | 3 => some .solo | 4 => some .resync
  | _ => none

/-- Is the command the arbiter's: signed, for this node, with a SEQ that follows the last one accepted? -/
def State.twinAuth (s : State) (q : List Byte) : Bool :=
  let key := s.setting 0x00070004
  key != 0 && Config.sm2Verify (leBytes 64 key) (q.take 24 ++ deviceId) (slice q 24 64) && s.fab.node == some (field q 16 2) &&
    serialNewer 64 (field q 8 8) s.nor.twinSeq

/-- Is the change made at once, and permitted? -/
def State.twinAtOnce (s : State) (dest : TwinSt) : Bool :=
  match s.fab.twin, dest with
  | _, .none => s.pipes.isEmpty
  | .none, .active | .none, .standby | .none, .solo => true
  | .active, .solo | .resync, .solo => true
  | .solo, .resync => true
  | .resync, .active => (s.fab.resync.map (·.done)).getD false
  | _, _ => false

/-- Is it a switch-over, made at a hall waypoint? -/
def State.twinAtV (s : State) (dest : TwinSt) : Bool :=
  (s.fab.twin == .standby && dest == .active) || (s.fab.twin == .active && dest == .standby)

def twinStateRun (_w : Waiter) (q : List Byte) (s : State) : Ans :=
  if !s.twinAuth q then errAns 0xA s
  else
    match twinOf (field q 0 1) with
    | none => badAns 0 s
    | some dest =>
      let seq := field q 8 8
      let v := field q 2 6
      let nor := { s.nor with twinSeq := seq }
      if s.twinAtOnce dest then
        .done 0 (leBytes 1 dest.code ++ leBytes 3 0) (({ s with nor := nor }).enterTwin dest seq)
      else if !s.twinAtV dest then badAns 0 s
      else if !s.canArm v then badAns 2 s
      else
        .done 0 (leBytes 1 s.fab.twin.code ++ leBytes 3 0)
          { s with nor := nor, fab := { s.fab with twinArm := some { toSt := dest, v := v, seq := seq } } }

def execTwinState (mb seq : Nat) (body : List Byte) (s : State) : Out :=
  s.runHelm 0x0070 true (some [1, 1, 6, 8, 2, 6, 64]) mb seq body twinStateRun

/-! ### Resync (08: R274; 11: R369) -/

/-- Spans in order of address, those that meet joined. -/
def joinSpans : List (Nat × Nat) → List (Nat × Nat)
  | [] => []
  | (a, n) :: rest =>
    match joinSpans rest with
    | [] => [(a, n)]
    | (b, m) :: more => if b ≤ a + n then (a, max n (b + m - a)) :: more else (a, n) :: (b, m) :: more

/-- A span put in its place. -/
def insertSpan (x : Nat × Nat) : List (Nat × Nat) → List (Nat × Nat)
  | [] => [x]
  | y :: ys => if x.1 ≤ y.1 then x :: y :: ys else y :: insertSpan x ys

/-- The mirrored spans in the HBM of one plinth. -/
def State.mirrorSpans (s : State) (p : Nat) : List (Nat × Nat) :=
  let lo := p * 2 ^ 40
  let hi := lo + 2 ^ 40 - s.spillSize
  let all := (s.parts.flatMap (fun (x : Nat × Partition) => Tbl.vals x.2.window)).filterMap (fun e =>
    if e.nodeLo ≤ s.ownNode ∧ s.ownNode ≤ e.nodeHi ∧ bit 4 e.access = true ∧ e.base < hi ∧ lo ≤ e.limit then
      some (max lo e.base, min hi (e.limit + 1) - max lo e.base)
    else none)
  joinSpans (all.foldr insertSpan [])

/-- TWIN_RESYNC: the four channels, PT0's and idle, start to copy. -/
def twinResyncRun (w : Waiter) (q : List Byte) (s : State) : Ans :=
  let ks := (List.range 4).map (fun p => 64 * p + field q (4 + p) 1)
  let running := (s.fab.resync.map (fun y => y.todo.any (fun (t : Nat × List (Nat × Nat)) => (s.chan t.1).st != .idle && (s.chan t.1).st != .error))).getD false
  if s.fab.twin != .resync then badAns 0 s
  else
    match (List.range 4).find? (fun p => decide (47 < field q (4 + p) 1)) with
    | some p => badAns (4 + p) s
    | none =>
      if ks.any (fun k => (s.chan k).owner != ptOf w) then errAns 3 s
      else if running || s.upd.relay.isSome || ks.any (fun k => (s.chan k).st != .idle) then errAns 2 s
      else
        let y : Resync := { rateCap := field q 0 2, todo := (List.range 4).map (fun p => (64 * p + field q (4 + p) 1, s.mirrorSpans p)) }
        okAns (ks.foldl State.nextCopy { s with fab := { s.fab with resync := some y } })

def execTwinResync (mb seq : Nat) (body : List Byte) (s : State) : Out :=
  s.runHelm 0x0071 true (some [2, 2, 1, 1, 1, 1]) mb seq body twinResyncRun

/-- RESYNC_DONE: every mirrored block has been copied. -/
def execResyncDone (s : State) : Out :=
  .next (match s.fab.resync with
  | none => s
  | some y =>
    if y.done || y.failed || s.fab.twin != .resync || y.todo.any (fun (t : Nat × List (Nat × Nat)) => !t.2.isEmpty || (s.chan t.1).st != .idle) then s
    else ({ s with fab := { s.fab with resync := some { y with done := true } } }).post 0x0055 exsarUnit (leBytes 8 y.blocks))

end Sys2Proof.Machine
end

