-- ==== Sys2Proof/Machine/Waypoints.lean ====
section
/-!
DEFINITION. Membership of tags, waypoint advances, what a commit fires, and fixed regions (08: R252 to R256, R260 to R265, R276, R593;
13: R407, R415, R416; 10: R341).
-/
namespace Sys2Proof.Machine

open Sys2Proof

/-! ### Members and the tree (08: R262, R593; 13: R407) -/

/-- Does the list name a node? -/
def TagSt.names (t : TagSt) (n : Nat) : Bool := t.members.any (fun (r : Nat × Nat) => decide (r.1 ≤ n) && decide (n ≤ r.2))

/-- The default root: the lowest node. -/
def TagSt.rootNode (t : TagSt) : Nat := ((t.members.head?).map (fun (r : Nat × Nat) => r.1)).getD 0

/-- The tree's order: the root, then the others ascending. -/
def TagSt.treeOrder (t : TagSt) (root : Nat) : List Nat := root :: t.nodes.filter (fun n => n ≠ root)

/-- Children of a node in the tree of fan-out 16. -/
def TagSt.children (t : TagSt) (root node : Nat) : List Nat :=
  let order := t.treeOrder root
  let i := order.idxOf node
  (order.drop (16 * i + 1)).take 16

/-- Parent of a node other than the root. -/
def TagSt.parent (t : TagSt) (root node : Nat) : Nat :=
  let order := t.treeOrder root
  order.getD ((order.idxOf node - 1) / 16) root

/-- A node and every node below it; the number bounds the levels. -/
def TagSt.subtree (t : TagSt) (root : Nat) : Nat → Nat → List Nat
  | 0, _ => []
  | k + 1, n => n :: (t.children root n).flatMap (t.subtree root k)

/-! ### Control packets (08: R241) -/

/-- Opcodes of CONTROL packets (assumption 30). -/
def opArrive : Nat := 1
def opCommit : Nat := 2
def opAbort : Nat := 3
def opReportRequest : Nat := 4
def opReport : Nat := 5
def opFix : Nat := 6
def opInvalidate : Nat := 7
def opRelease : Nat := 8
def opFixAck : Nat := 9

/-- A CONTROL packet to a node, from the collective engine. -/
def State.sendCtl (s : State) (node opcode tag value : Nat) (payload : List Byte) : State :=
  s.sendPkt 0
    { ftype := 9, tc := 0, srcNode := s.ownNode, dstNode := node, hallTag := tag, srcUnit := unitId 12 3, waypoint := value
      opcode := opcode, payload := payload }

/-- The same to several nodes. -/
def State.sendCtls (s : State) (nodes : List Nat) (opcode tag value : Nat) (payload : List Byte) : State :=
  nodes.foldl (fun acc n => acc.sendCtl n opcode tag value payload) s

/-- The delivered CONTROL packet that a row stands for, taken up. -/
def State.takeCtl (s : State) (tag opcode : Nat) (src : Option Nat) : State :=
  s.takeArrived (fun p => p.ftype == 9 && p.hallTag == tag && p.opcode == opcode && (src.map (fun n => p.srcNode == n)).getD true)

/-- The nodes an ABORT or a report names. -/
def missingBytes (ns : List Nat) : List Byte := leBytes 2 ns.length ++ (ns.take 20).flatMap (leBytes 2)

/-! ### Membership (08: R593) -/

/-- Joined, a partition carries the tag, and its list names the own node? -/
def State.memberNow (s : State) (tag : Nat) : Bool :=
  s.fab.node.isSome && (s.partOfTag tag).isSome && (s.tagSt tag).names s.ownNode

/-- The root is asked for the tag's waypoint (08: R593). -/
def State.askRoot (s : State) (tag root : Nat) : State := s.sendCtl root opReportRequest tag 0 []

/-- The root is asked for the outcome of an advance (08: R263; assumption 30). -/
def State.askOutcome (s : State) (tag root : Nat) : State := s.sendCtl root opReportRequest tag 0 (leBytes 1 1)

/-- The tags that an advance of a tag moves: every tag for the hall. -/
def State.tagsOf (s : State) (tag : Nat) : List Nat :=
  if tag = 0 then (Tbl.keys s.tags).filter (fun t => (s.tagSt t).member) else [tag]

/-- The package enters the advance: stores issued from now on count toward the next. -/
def State.enterAdvance (s : State) (tag : Nat) : State :=
  let t := s.tagSt tag
  s.setTag tag { t with entry := t.entry + 1, advance := t.advance.map (fun a => { a with entered := true, arrivals := t.early }), early := [] }

/-- A hall advance that waited for tag advances enters once none is left (08: R265). -/
def State.hallEnters (s : State) : State :=
  let waits := ((s.tagSt 0).advance.map (fun a => !a.entered)).getD false
  if waits && (Tbl.keys s.tags).all (fun t => t == 0 || (s.tagSt t).advance.isNone) then s.enterAdvance 0 else s

/-- Regions armed while an advance of the tag was in progress no longer wait for the commit after it (08: R253, R276). -/
def State.regionsWait (s : State) (tag : Nat) : State :=
  (s.tagsOf tag).foldl (fun acc k => acc.setTag k { acc.tagSt k with regions := (acc.tagSt k).regions.map (fun r => { r with afterNext := false }) }) s

/-- An advance that has ended without a commit: no command awaits it, WAYPOINT_FAILED is posted, and a hall advance that waited may enter. -/
def State.advanceFailed (s : State) (tag : Nat) (missing : List Nat) : State :=
  let t := s.tagSt tag
  let s := (s.setTag tag { t with advance := none, early := [] }).regionsWait tag
  (s.postFor ((s.partOfTag tag).getD 0) 0x0019 (unitId 12 3) (leBytes 2 tag ++ leBytes 6 (t.waypoint.getD 0) ++ missingBytes missing)).hallEnters

/-- An advance of the tag in progress ends as ABORT at this package. -/
def State.endAdvance (s : State) (tag : Nat) : State :=
  let t := s.tagSt tag
  match t.advance with
  | none => s
  | some a =>
    let s := s.advanceFailed tag []
    match a.waiter with
    | some w => s.answerCmd w 0x0043 0x10 (leBytes 6 (t.waypoint.getD 0) ++ leBytes 2 0xFFFF)
    | none => s

/-- A region command of the tag in progress ends ABORTED. -/
def State.endRegionOp (s : State) (tag : Nat) : State :=
  let t := s.tagSt tag
  match t.regionOp with
  | none => s
  | some o => (s.setTag tag { t with regionOp := none }).answerCmd o.waiter (if o.unfix then 0x0046 else 0x0045) 0x10 []

/-- Membership completes: the root takes its value, or 0; any other package asks the root. -/
def State.beginMember (s : State) (tag : Nat) : State :=
  let t := s.tagSt tag
  if t.rootNode = s.ownNode then s.setTag tag { t with member := true, waypoint := some (t.waypoint.getD 0), asking := false }
  else (s.setTag tag { t with member := true, waypoint := none, asking := true }).askRoot tag t.rootNode

/-- Membership ends, and with it an advance, a region command, and the tag's lines and regions here. -/
def State.endMember (s : State) (tag : Nat) : State :=
  let s := (s.endAdvance tag).endRegionOp tag
  let s := s.dropAllLines (fun l => l.hallTag == tag)
  s.setTag tag { s.tagSt tag with member := false, waypoint := none, asking := false, regions := [], early := [] }

/-- Membership of a tag after a change of one of its conditions. -/
def State.refreshMember (s : State) (tag : Nat) : State :=
  let now := s.memberNow tag
  if now == (s.tagSt tag).member then s else if now then s.beginMember tag else s.endMember tag

/-- Every tag that has a list, and every tag of a partition. -/
def State.refreshMembers (s : State) : State := (Tbl.keys s.tags).foldl State.refreshMember s

/-- A second join: every membership ends and completes again (13: R414). Regions stay with the tag. -/
def State.rejoinMember (s : State) (tag : Nat) : State :=
  if !(s.tagSt tag).member then s.refreshMember tag
  else
    let s := (s.endAdvance tag).endRegionOp tag
    let s := s.setTag tag { s.tagSt tag with waypoint := none, asking := false, early := [] }
    if s.memberNow tag then s.beginMember tag else s.endMember tag

/-! ### Fixed regions (08: R252 to R256) -/

/-- The payload that names a region. -/
def regionBytes (node base length : Nat) : List Byte := leBytes 2 node ++ leBytes 6 0 ++ leBytes 8 base ++ leBytes 8 length

def Region.same (r : Region) (node base length : Nat) : Bool := r.node == node && r.base == base && r.length == length

/-- A member's acknowledgement at the package that began the command: the next phase, or the end. -/
def State.regionAck (s : State) (tag member phase : Nat) : State :=
  let t := s.tagSt tag
  match t.regionOp with
  | none => s
  | some o =>
    if o.phase ≠ phase then s
    else
      let o := { o with acked := if o.acked.contains member then o.acked else o.acked ++ [member] }
      if !(t.nodes.all (fun n => o.acked.contains n)) then s.setTag tag { t with regionOp := some o }
      else if o.unfix && phase == 1 then
        -- the own package passes into phase 2 at once
        let s := s.setTag tag { t with
          regionOp := some { o with phase := 2, acked := [s.ownNode] }
          regions := t.regions.filter (fun r => !r.same o.node o.base o.length) }
        let s := s.sendCtls (t.nodes.filter (fun n => n ≠ s.ownNode)) opRelease tag 0 (regionBytes o.node o.base o.length)
        if t.nodes.all (fun n => n == s.ownNode) then
          (s.setTag tag { s.tagSt tag with regionOp := none }).answerCmd o.waiter 0x0046 0 []
        else s
      else
        (s.setTag tag { t with regionOp := none }).answerCmd o.waiter (if o.unfix then 0x0046 else 0x0045) 0 []

/-- An acknowledgement sent to the member that asked, or counted here where it is this package. -/
def State.ackRegion (s : State) (tag asker phase : Nat) : State :=
  if asker = s.ownNode then s.regionAck tag asker phase else s.sendCtl asker opFixAck tag phase []

/-- A member arms a region; one it already holds, armed or in effect, is acknowledged at once (08: R252, R276; 13: R416). -/
def State.armRegion (s : State) (tag node base length asker : Nat) : State :=
  let t := s.tagSt tag
  let inside := (t.advance.map (·.entered)).getD false || ((s.tagSt 0).advance.map (·.entered)).getD false
  match t.regions.find? (fun r => r.same node base length && r.st != .unfixing) with
  | some _ => s.ackRegion tag asker 1
  | none =>
    s.setTag tag { t with
      regions := t.regions.filter (fun r => !r.same node base length) ++
        [{ node := node, base := base, length := length, st := .armed, afterNext := inside, asker := asker }] }

/-- Phase 1 of UNFIX at a member: its FIXED lines of the region go. -/
def State.unfixRegion (s : State) (tag node base length asker : Nat) : State :=
  let t := s.tagSt tag
  let hit := fun (l : CacheLine) => l.hallTag == tag && l.isFixed && nodeOf (256 * l.block) == node &&
    decide (base < localOf (256 * l.block) + 256) && decide (localOf (256 * l.block) < base + length)
  let s := s.dropAllLines hit
  let s := s.setTag tag { t with regions := t.regions.map (fun r => if r.same node base length then { r with st := .unfixing } else r) }
  s.ackRegion tag asker 1

/-- Phase 2: the region leaves the table. -/
def State.releaseRegion (s : State) (tag node base length asker : Nat) : State :=
  let t := s.tagSt tag
  (s.setTag tag { t with regions := t.regions.filter (fun r => !r.same node base length) }).ackRegion tag asker 2

/-- Armed regions of a tag at a commit: those armed before the advance take effect and are acknowledged, the others at the next one
(08: R253, R276). -/
def State.applyRegions (s : State) (tag : Nat) : State :=
  let t := s.tagSt tag
  let due := t.regions.filter (fun r => r.st == .armed && !r.afterNext)
  let s := s.setTag tag { t with regions := t.regions.map (fun r =>
    if r.st == .armed then (if r.afterNext then { r with afterNext := false } else { r with st := .inEffect }) else r) }
  due.foldl (fun acc r => acc.ackRegion tag r.asker 1) s

/-! ### Advances (08: R262, R263, R265) -/

/-- Was a store or atomic under a tag issued before the entry into an advance of `tag`, which for the hall is an entry of every tag (08: R261,
R262)? -/
def State.issuedBefore (s : State) (tag ofTag entry : Nat) : Bool := (tag == 0 || ofTag == tag) && decide (entry < s.entryOf ofTag)

/-- Is a waiting request such a store or atomic? -/
def State.heldStoreOf (s : State) (tag : Nat) (h : HeldReq) : Bool :=
  match h.cmd with
  | .memWr q _ | .atomicRequest q _ _ => s.issuedBefore tag (s.tagOfPart q.partition) h.entry
  | _ => false

/-- Has every store and atomic that the package issued under the tag before its entry completed (08: R262, R272)? -/
def State.storesDone (s : State) (tag : Nat) : Bool :=
  !(s.relayWait.any (s.heldStoreOf tag)) &&
    s.fab.outstanding.all (fun r =>
      !(r.fromNode.isNone && (r.kind == .wr || r.kind == .atomic) && s.issuedBefore tag r.hallTag r.aheadOf))

/-- A change of an advance in progress. -/
def State.onAdvance (s : State) (tag : Nat) (f : Advance → Advance) : State :=
  s.setTag tag { s.tagSt tag with advance := (s.tagSt tag).advance.map f }

/-- Step 3 and 4: once this package and every child below have arrived, ARRIVE goes up, or, at the root, COMMIT goes down. -/
def State.tryArrive (s : State) (tag : Nat) : State :=
  let t := s.tagSt tag
  match t.advance with
  | none => s
  | some a =>
    let kids := t.children a.root s.ownNode
    if !a.entered || !a.drained || a.arrived || !(kids.all (fun k => a.arrivals.contains k)) then s
    else
      let s := s.onAdvance tag (fun a => { a with arrived := true })
      if a.root = s.ownNode then s.sendCtls kids opCommit tag a.target []
      else s.sendCtl (t.parent a.root s.ownNode) opArrive tag a.target []

/-- WAYPOINT_ADVANCE (13: R415). -/
def waypointAdvanceRun (w : Waiter) (q : List Byte) (s : State) : Ans :=
  let tag := field q 0 2
  let root := field q 2 2
  let t := s.tagSt tag
  match s.partOfTag tag with
  | none => badAns 0 s
  | some pt =>
    if !mayName w pt then errAns 6 s
    else if !t.member then badAns 0 s
    else if t.asking || t.advance.isSome || (s.tagSt 0).advance.isSome then errAns 2 s
    else if root ≠ 0xFFFF ∧ t.names root = false then badAns 2 s
    else if field q 4 6 ≠ t.waypoint.getD 0 then badAns 4 s
    else
      let a : Advance :=
        { target := addMod 48 (t.waypoint.getD 0) 1, root := if root = 0xFFFF then t.rootNode else root, entered := false, waiter := some w }
      let s := s.setTag tag { t with advance := some a }
      .runs (if tag = 0 then s.hallEnters else s.enterAdvance tag)

/-- WAYPOINT_READ (08: R593). -/
def waypointReadRun (w : Waiter) (q : List Byte) (s : State) : Ans :=
  let tag := field q 0 2
  match s.partOfTag tag with
  | none => errAns 8 s
  | some pt =>
    if !mayName w pt then errAns 6 s
    else
      match s.waypointHeld tag with
      | none => .done 0 (leBytes 6 0 ++ leBytes 1 2 ++ leBytes 1 0) s
      | some v => .done 0 (leBytes 6 v ++ leBytes 1 (b2n (s.tagSt tag).advance.isSome) ++ leBytes 1 0) s

/-- WAYPOINT_STORES_DRAINED. -/
def execWaypointStoresDrained (tag : Nat) (s : State) : Out :=
  .next (if ((s.tagSt tag).advance.map (·.entered)).getD false && s.storesDone tag then
    (s.onAdvance tag (fun a => { a with drained := true })).tryArrive tag
  else s)

/-- ARRIVE: one that comes before this package has entered is kept. -/
def execArrive (tag child : Nat) (s : State) : Out :=
  let s := s.takeCtl tag opArrive (some child)
  let t := s.tagSt tag
  .next (if !t.member then s
  else if (t.advance.map (·.entered)).getD false then
    (s.onAdvance tag (fun a => { a with arrivals := if a.arrivals.contains child then a.arrivals else a.arrivals ++ [child] })).tryArrive tag
  else s.setTag tag { t with early := if t.early.contains child then t.early else t.early ++ [child] })

/-! ### Commit and abort -/

/-- Seeds drawn afresh by each plinth (10: R341). -/
def State.reseedPaths (s : State) (seeds : List (Nat × Nat)) : State :=
  let put := fun (f : Nat × Nat → Nat) => (List.range seeds.length).map (fun i => (i, f (seeds.getD i (0, 0)) % 2 ^ 64))
  { s with fab := { s.fab with s0 := put (·.1), s1 := put (·.2) } }

/-- Armed actions fire at a commit of the hall waypoint: cast, twin, firmware (08: R264; 13: R424). -/
def State.fireArms (s : State) (value : Nat) (draws : List (List Nat)) : State :=
  let due := fun (v : Nat) => !serialNewer 48 v value
  let s := if (s.upd.castArm.map (fun a => due a.v)).getD false then s.fireCast draws else s
  let s := s.fireTwin value
  match s.upd.updArm with
  | some v => if due v then s.fireActivation v else s
  | none => s

/-- Step 5 of R262. -/
def State.commitAdvance (s : State) (tag value : Nat) (seeds : List (Nat × Nat)) (draws : List (List Nat)) : State :=
  let t := s.tagSt tag
  let w := t.advance.bind (·.waiter)
  let s := s.setTag tag { t with advance := none, waypoint := some value, lastMissing := [] }
  -- a hall commit moves the waypoint of every tag that holds one (08: R261)
  let s := if tag ≠ 0 then s
    else (s.tagsOf 0).foldl (fun acc k =>
      if k = 0 then acc
      else acc.setTag k { acc.tagSt k with waypoint := (acc.tagSt k).waypoint.map (fun v => addMod 48 v 1) }) s
  let s := (s.tagsOf tag).foldl State.applyRegions s
  let s := if tag = 0 then s.reseedPaths seeds else s
  let s := s.postFor ((s.partOfTag tag).getD 0) 0x0018 (unitId 12 3) (leBytes 2 tag ++ leBytes 6 value)
  let s := match w with
    | some w => s.answerCmd w 0x0043 0 (leBytes 6 value)
    | none => s
  let s := s.hallEnters
  if tag = 0 then s.fireArms value draws else s

/-- An advance that aborts: the package stays at W (08: R263). -/
def State.abortAdvance (s : State) (tag : Nat) (missing : List Nat) : State :=
  let t := s.tagSt tag
  match t.advance with
  | none => s.setTag tag { t with early := [] }
  | some a =>
    let s := s.advanceFailed tag missing
    match a.waiter with
    | some w => s.answerCmd w 0x0043 0x10 (leBytes 6 (t.waypoint.getD 0) ++ leBytes 2 missing.length)
    | none => s

/-- Does a commit have what it needs: a draw where an armed cast asks for a new key (06: R175)? -/
def State.commitReady (s : State) (tag value : Nat) (draws : List (List Nat)) : Bool :=
  let due := (s.upd.castArm.map (fun a => !serialNewer 48 a.v value)).getD false
  tag != 0 || !due || !s.fireNeedsKey || (drawKey draws).isSome

/-- WAYPOINT_COMMIT: at a member that has arrived; it sends COMMIT on down the tree. -/
def execWaypointCommit (tag value : Nat) (seeds : List (Nat × Nat)) (draws : List (List Nat)) (s : State) : Out :=
  let t := s.tagSt tag
  .next (match t.advance with
  | none => s
  | some a =>
    if !a.arrived || a.target ≠ value || !s.commitReady tag value draws then s
    else
      let s := s.takeCtl tag opCommit none
      let s := if a.root = s.ownNode then s else s.sendCtls (t.children a.root s.ownNode) opCommit tag value []
      s.commitAdvance tag value seeds draws)

/-- What an ABORT carries: the members that did not arrive, and the root of the tree it goes down (assumption 30). -/
def abortBytes (missing : List Nat) (root : Nat) : List Byte := padTo 42 (missingBytes missing) ++ leBytes 2 root

/-- The root that the ABORT of a tag in hand names: the default root where none is. -/
def State.abortRoot (s : State) (tag : Nat) : Nat :=
  ((s.fab.arrived.find? (fun p => p.ftype == 9 && p.hallTag == tag && p.opcode == opAbort)).map (fun p => field p.payload 42 2)).getD
    (s.tagSt tag).rootNode

/-- WAYPOINT_ABORT: sent on down the tree. A member that has not entered the advance stays where it is and reports the failure like the others
(08: R263). -/
def execWaypointAbort (tag : Nat) (missing : List Nat) (s : State) : Out :=
  let root := s.abortRoot tag
  let s := s.takeCtl tag opAbort none
  let t := s.tagSt tag
  let down := fun (root : Nat) => s.sendCtls (t.children root s.ownNode) opAbort tag (t.waypoint.getD 0) (abortBytes missing root)
  .next (match t.advance with
  | none => if t.member && root != s.ownNode then (down root).advanceFailed tag missing else s
  | some a => if a.root = s.ownNode then s else (down a.root).abortAdvance tag missing)

/-- ROOT_WAYPOINT_TIMEOUT: the root lacks an ARRIVE and aborts the advance. -/
def execRootWaypointTimeout (tag : Nat) (s : State) : Out :=
  let t := s.tagSt tag
  .next (match t.advance with
  | none => s
  | some a =>
    if a.root ≠ s.ownNode || !a.entered || a.arrived then s
    else
      let kids := t.children a.root s.ownNode
      let missing := (if a.drained then [] else [s.ownNode]) ++
        (kids.filter (fun k => !a.arrivals.contains k)).flatMap (t.subtree a.root 4)
      let s := s.sendCtls kids opAbort tag (t.waypoint.getD 0) (abortBytes missing a.root)
      let s := s.setTag tag { s.tagSt tag with lastMissing := missing }
      s.abortAdvance tag missing)

/-- MEMBER_WAYPOINT_TIMEOUT: leases dropped and the root asked; a second one ends the command with MISSING 0xFFFF (08: R263). -/
def execMemberWaypointTimeout (tag : Nat) (s : State) : Out :=
  let t := s.tagSt tag
  .next (match t.advance with
  | none => s
  | some a =>
    if !a.arrived || a.root = s.ownNode then s
    else if !a.asking then
      let tags := s.tagsOf tag
      let s := s.dropAllLines (fun l => tags.contains l.hallTag && !l.isFixed)
      (s.onAdvance tag (fun a => { a with asking := true })).askOutcome tag a.root
    else
      let s := match a.waiter with
        | some w => (s.onAdvance tag (fun a => { a with waiter := none, answered := true })).answerCmd w 0x0043 0x10
            (leBytes 6 (t.waypoint.getD 0) ++ leBytes 2 0xFFFF)
        | none => s
      s.askOutcome tag a.root)

/-! ### Reports (08: R263, R593) -/

/-- Does the request of a member ask for the outcome of an advance? -/
def State.outcomeAsked (s : State) (tag asker : Nat) : Bool :=
  ((s.fab.arrived.find? (fun p => p.ftype == 9 && p.hallTag == tag && p.opcode == opReportRequest && p.srcNode == asker)).map
    (fun p => !p.payload.isEmpty)).getD false

/-- WAYPOINT_REPORT_REQUEST: the root answers with the value it holds; the outcome of an advance it tells once none of the tag is in progress here. -/
def execWaypointReportRequest (tag asker : Nat) (s : State) : Out :=
  let early := s.outcomeAsked tag asker && (s.tagSt tag).advance.isSome
  let s := s.takeCtl tag opReportRequest (some asker)
  let t := s.tagSt tag
  .next (match t.member && !early, s.waypointHeld tag with
  | true, some v => s.sendCtl asker opReport tag v (missingBytes t.lastMissing)
  | _, _ => s)

/-- WAYPOINT_REPORT: the membership's value, or the outcome of the advance, adopted. -/
def execWaypointReport (tag value : Nat) (missing : List Nat) (seeds : List (Nat × Nat)) (draws : List (List Nat)) (s : State) : Out :=
  let t := s.tagSt tag
  .next (if t.asking then
    let s := s.takeCtl tag opReport none
    s.setTag tag { s.tagSt tag with waypoint := some (value % 2 ^ 48), asking := false }
  else
    match t.advance with
    | none => s.takeCtl tag opReport none
    | some a =>
      if !a.asking then s.takeCtl tag opReport none
      else if value = a.target then
        if s.commitReady tag value draws then
          ((s.takeCtl tag opReport none).sendCtls (t.children a.root s.ownNode) opCommit tag value []).commitAdvance tag value seeds draws
        else s
      else (s.takeCtl tag opReport none).abortAdvance tag missing)

/-- MEMBERSHIP_REQUEST_RETRY (08: R593). -/
def execMembershipRequestRetry (tag : Nat) (s : State) : Out :=
  .next (if (s.tagSt tag).asking then s.askRoot tag (s.tagSt tag).rootNode else s)

/-! ### Region commands (13: R416) -/

/-- The checks a region command passes: its tag, then its fields. -/
def State.regionStop (s : State) (w : Waiter) (q : List Byte) (fix : Bool) : Option Ans :=
  let tag := field q 0 2
  let t := s.tagSt tag
  let base := field q 8 8
  let len := field q 16 8
  match s.partOfTag tag with
  | none => some (badAns 0 s)
  | some pt =>
    if !mayName w pt then some (errAns 6 s)
    else if !t.member then some (badAns 0 s)
    else if t.asking || t.regionOp.isSome then some (errAns 2 s)
    else if 2 ^ 14 ≤ field q 2 2 then some (badAns 2 s)
    else if base % 65536 ≠ 0 ∨ 2 ^ 42 ≤ base then some (badAns 8 s)
    else if len = 0 ∨ len % 65536 ≠ 0 ∨ 2 ^ 42 < base + len then some (badAns 16 s)
    else if fix && decide (64 ≤ t.regions.length) && !t.regions.any (fun r => r.same (field q 2 2) base len) then some (badAns 0 s)
    else none

/-- A region command carried out: told to every other member, then done here. -/
def regionRun (unfix : Bool) (w : Waiter) (q : List Byte) (s : State) : Ans :=
  (s.regionStop w q (!unfix)).getD (
    let tag := field q 0 2
    let t := s.tagSt tag
    let node := field q 2 2
    let base := field q 8 8
    let len := field q 16 8
    let s := s.setTag tag { t with regionOp := some { unfix := unfix, phase := 1, node := node, base := base, length := len, waiter := w } }
    let s := s.sendCtls (t.nodes.filter (fun n => n ≠ s.ownNode)) (if unfix then opInvalidate else opFix) tag 0 (regionBytes node base len)
    .runs (if unfix then s.unfixRegion tag node base len s.ownNode else s.armRegion tag node base len s.ownNode))

/-- REGION_LIST: NODE, STATE, BASE and LENGTH of each region (assumption 31). -/
def regionListRun (w : Waiter) (q : List Byte) (s : State) : Ans :=
  let tag := field q 0 2
  match s.partOfTag tag with
  | none => errAns 8 s
  | some pt =>
    if !mayName w pt then errAns 6 s
    else
      let rs := (s.tagSt tag).regions
      .done 0 (leBytes 2 rs.length ++ leBytes 2 0 ++ rs.flatMap (fun r =>
        leBytes 2 r.node ++ leBytes 1 r.st.code ++ leBytes 5 0 ++ leBytes 8 r.base ++ leBytes 8 r.length)) s

/-- FIX. -/
def execFix (tag node base length asker : Nat) (s : State) : Out :=
  let s := s.takeCtl tag opFix (some asker)
  .next (if (s.tagSt tag).member then s.armRegion tag node base length asker else s)

/-- UNFIX_INVALIDATE. -/
def execUnfixInvalidate (tag node base length asker : Nat) (s : State) : Out :=
  let s := s.takeCtl tag opInvalidate (some asker)
  .next (if (s.tagSt tag).member then s.unfixRegion tag node base length asker else s)

/-- UNFIX_RELEASE. -/
def execUnfixRelease (tag node base length asker : Nat) (s : State) : Out :=
  let s := s.takeCtl tag opRelease (some asker)
  .next (if (s.tagSt tag).member then s.releaseRegion tag node base length asker else s)

/-- FIX_ACK. -/
def execFixAck (tag member phase : Nat) (s : State) : Out := .next ((s.takeCtl tag opFixAck (some member)).regionAck tag member phase)

/-- REGION_FIX_TIMEOUT (13: R416). -/
def execRegionFixTimeout (tag : Nat) (s : State) : Out := .next (s.endRegionOp tag)

/-! ### Commands -/

def execWaypointAdvance (mb seq : Nat) (body : List Byte) (s : State) : Out :=
  s.runHelm 0x0043 false (some [2, 2, 6]) mb seq body waypointAdvanceRun

def execWaypointRead (mb seq : Nat) (body : List Byte) (s : State) : Out :=
  s.runHelm 0x0044 false (some [2, 2]) mb seq body waypointReadRun

def execRegionFix (mb seq : Nat) (body : List Byte) (s : State) : Out :=
  s.runHelm 0x0045 false (some [2, 2, 4, 8, 8]) mb seq body (regionRun false)

def execRegionUnfix (mb seq : Nat) (body : List Byte) (s : State) : Out :=
  s.runHelm 0x0046 false (some [2, 2, 4, 8, 8]) mb seq body (regionRun true)

def execRegionList (mb seq : Nat) (body : List Byte) (s : State) : Out :=
  s.runHelm 0x0047 false (some [2, 2]) mb seq body regionListRun

end Sys2Proof.Machine
end

