-- ==== Sys2Proof/Machine/FabLink.lean ====
section
/-!
DEFINITION. The fabric link layer: lane sets, bring-up and sessions, flits and acknowledgements, replay, credits, pools and route
failures (10: R312 to R347; 09: R300, R302).
-/
namespace Sys2Proof.Machine

open Sys2Proof

/-! ### Lane sets (09: R300 to R302) -/

/-- Is the line's own ring retired or parked? -/
def State.lineGone (s : State) (b k : Nat) : Bool := (s.ring b k).retired || (s.ring b k).st == .parked || (s.lane b k).st == .retired

/-- The λ mask of a direction's unusable rings (10: R321). -/
def State.unusableMask (s : State) (b q side : Nat) : Nat :=
  ((List.range 18).map (fun i => if s.lineGone b (lineKey side q i) then 2 ^ i else 0)).sum

/-- Logical lanes and their lines for a set of usable lines: λ0 to λ15, a missing one moved onto λ16 and then λ17, and all renumbered in
ascending order where no spare is left (09: R300 to R302). -/
def assignLanes (usable : List Nat) : List (Nat × Nat) :=
  let missing := (List.range 16).filter (fun i => !usable.contains i)
  let spares := [16, 17].filter usable.contains
  if missing.length ≤ spares.length then
    (List.range 16).map (fun i => (i, if usable.contains i then i else spares.getD (missing.idxOf i) i))
  else
    let lines := (List.range 18).filter usable.contains
    (List.range (min 16 lines.length)).map (fun i => (i, lines.getD i 0))

/-- The lanes a direction may use now, from both ends' lists. -/
def State.agreed (s : State) (b q side : Nat) : List (Nat × Nat) :=
  let peer := if side = 0 then (s.tx b q).unusable else (s.rx b q).unusable
  assignLanes ((List.range 18).filter (fun i => !s.lineGone b (lineKey side q i) && !bit i peer))

/-- The direction's lines put on an agreed lane set. -/
def State.setLanes (s : State) (b q side : Nat) (ls : List (Nat × Nat)) : State :=
  let s := (List.range 18).foldl (fun acc i =>
    let k := lineKey side q i
    let x := acc.lane b k
    if x.st == .retired then acc
    else
      match ls.find? (fun (p : Nat × Nat) => p.2 == i) with
      | some p => acc.setLane b k { x with st := .active, lane := p.1 }
      | none => acc.setLane b k { x with st := if acc.lineGone b k then .off else if 16 ≤ i then .spare else .off }) s
  if side = 0 then s.setTx b q { s.tx b q with lanes := ls.length } else s.setRx b q { s.rx b q with lanes := ls.length }

/-! ### Link packets sent -/

/-- A link packet of a sender, in a CTRL flit on its own fibre, for whoever is at the far end (10: R314). -/
def State.sendCtrl (s : State) (b q ftype : Nat) (payload : List Byte) : State :=
  let pkt : FabPkt := { ftype := ftype, tc := 0, srcNode := s.ownNode, dstNode := ((s.rx b q).ident.map (·.node)).getD 0, hallTag := 0, payload := payload }
  let e := s.tx b q
  (s.setTx b q { e with links := e.links ++ [pkt] }).lightCtrl b q pkt

/-- LINK_HELLO of a sender. -/
def State.sendHello (s : State) (b q : Nat) : State :=
  let e := s.tx b q
  s.sendCtrl b q 0x10 (linkHead b q e.session ++ leBytes 1 (b2n e.hall) ++ leBytes 3 0 ++ leBytes 8 (s.now (16 + b)))

/-- LINK_LANES of one side of a port. -/
def State.sendLanes (s : State) (b q side : Nat) : State :=
  let body := leBytes 1 side ++ leBytes 3 0 ++ leBytes 4 (s.unusableMask b q side)
  match side, (s.rx b q).ident with
  | 0, _ | _, none => s.sendCtrl b q 0x13 (linkHead b q (s.tx b q).session ++ body)
  | _, some c => s.sendLink b q 0x13 c.node (linkHead c.beacon c.port c.session ++ body)

/-- LINK_ACK of a receive direction: FLAGS bit 0 RX_DOWN, bit 1 NAK. -/
def State.sendLinkAck (s : State) (b q flags : Nat) : State :=
  let e := s.rx b q
  match e.ident with
  | none => s
  | some c =>
    let s := s.setRx b q { e with ackDue := 0 }
    s.sendLink b q 0x11 c.node (linkHead c.beacon c.port c.session ++ leBytes 4 (subMod 20 e.expect 1) ++ leBytes 4 flags ++ leBytes 8 e.tRef)

/-! ### Up and down (10: R334 to R336) -/

/-- PORT_UP (13: R423). -/
def State.postPortUp (s : State) (b q : Nat) (hall : Bool) (lanes session : Nat) : State :=
  s.post 0x0028 (portUnit b q) (leBytes 1 b ++ leBytes 1 q ++ leBytes 1 (b2n hall) ++ leBytes 1 lanes ++ leBytes 1 session)

/-- What waits for a port is sent on: its own packets, pools, and requests that waited for a route. -/
def State.flow (s : State) (b q : Nat) : State := ((s.pump b q).movePools).goOn

/-- A sender in bring-up goes UP with its eighth ECHO and its first LINK_CREDIT. -/
def State.tryUp (s : State) (b q : Nat) : State :=
  let e := s.tx b q
  if e.st == .bringup && decide (8 ≤ e.echoes.length) && !e.granted.isEmpty then
    let s := s.setTx b q { e with st := .up }
    (s.postPortUp b q e.hall e.lanes e.session).flow b q
  else s

/-- A direction of a port goes down, the receive side telling its sender; in direct mode both directions do (10: R334, R335). -/
def State.dirDown (s : State) (b q side cause : Nat) : State :=
  let both := !(s.tx b q).hall
  let s := if (both || side == 1) && (s.rx b q).st != .down then s.sendLinkAck b q 1 else s
  let s := if both || side == 0 then s.txDown b q cause else s
  let s := if both || side == 1 then s.rxDown b q cause else s
  s.goOn

/-- Is the transmit side of a port lit (09: R287)? -/
def State.lit (s : State) (b q : Nat) : Bool := !(s.beacon b).laserFault && !(s.beacon b).darkFeeds.contains q

/-- Can a direction start: joined, its beacon in service, and 8 lanes agreed (09: R312)? -/
def State.canBring (s : State) (b q side : Nat) : Bool :=
  s.fab.node.isSome && (s.die (16 + b)).life == .up && (s.beacon b).built && decide (8 ≤ (s.agreed b q side).length)

/-- A sender's pass through R334: a new session from DOWN, and LINK_HELLO again until it is UP. -/
def State.bringTx (s : State) (b q : Nat) : State :=
  let e := s.tx b q
  if !s.canBring b q 0 then s
  else
    match e.st with
    | .down =>
      if !s.lit b q then s
      else
        let s := s.setLanes b q 0 (s.agreed b q 0)
        let s := s.setTx b q { s.tx b q with
          st := .bringup, session := (e.session + 1) % 256, next := 0, unacked := [], share := s.spillShare, spilled := 0, granted := [], charged := []
          expiries := 0, echoes := [] }
        (s.sendLanes b q 0).sendHello b q
    | .bringup => (s.sendHello b q).tryUp b q
    | _ => s

/-- A receiver's: from DOWN it waits for LINK_HELLO. -/
def State.bringRx (s : State) (b q : Nat) : State :=
  if !s.canBring b q 1 || (s.rx b q).st != .down then s
  else
    let s := s.setLanes b q 1 (s.agreed b q 1)
    (s.setRx b q { s.rx b q with st := .bringup }).sendLanes b q 1

/-- CHANNEL_BRINGUP (10: R334), with frame lock on `lanes` lanes. -/
def execChannelBringup (beacon port lanes : Nat) (sender : Bool) (s : State) : Out :=
  .next (if lanes < 8 then s else if sender then s.bringTx beacon port else s.bringRx beacon port)

/-- Lines of a port's receive side that carry a lane and keep frame lock (09: R280). -/
def State.lockedLanes (s : State) (b q : Nat) : Nat :=
  ((List.range 18).filter (fun i => (s.lane b (lineKey 1 q i)).st == .active && (s.lane b (lineKey 1 q i)).frameLock)).length

/-- LOCK_LOSS_TIMEOUT (10: R335); none runs while 8 lanes keep frame lock. -/
def execLockLossTimeout (beacon port : Nat) (s : State) : Out :=
  .next (if (s.rx beacon port).st == .down || decide (8 ≤ s.lockedLanes beacon port) then s else s.dirDown beacon port 1 0)

/-! ### Acknowledgements and replay at the sender (10: R323 to R329) -/

/-- Flits that a cumulative ACKSEQ covers. -/
def ackedCount (ackSeq : Nat) (fs : List FabFlit) : Nat :=
  if fs.any (fun f => f.fseq == ackSeq) then (fs.takeWhile (fun f => f.fseq != ackSeq)).length + 1 else 0

/-- An acknowledgement taken. -/
def State.takeFabAck (s : State) (b q ackSeq : Nat) : State :=
  let e := s.tx b q
  let n := ackedCount ackSeq e.unacked
  if n = 0 then s
  else
    let left := e.spilled - n
    (s.setTx b q { e with unacked := e.unacked.drop n, spilled := left, spilling := left != 0, expiries := 0 }).flow b q

/-- Every unacknowledged flit sent again in order; `i` is the counter of what started it. -/
def State.replay (s : State) (b q i : Nat) : State :=
  let e := s.tx b q
  let n := e.unacked.length
  if n = 0 then s
  else ((((s.setTx b q { e with sent := e.sent ++ e.unacked }).lightFlits b q e.unacked).bumpTx b q 0 n).bumpTx b q 1 n).bumpTx b q i 1

/-- A NAK, in direct mode only: its ACKSEQ first, then the replay (10: R326). -/
def State.takeNak (s : State) (b q ackSeq : Nat) : State :=
  let s := s.takeFabAck b q ackSeq
  if (s.tx b q).hall then s else s.replay b q 4

/-- REPLAY_TIMER_EXPIRY (10: R327, R335): the eighth in a row brings the channel down. -/
def execReplayTimerExpiry (beacon port : Nat) (s : State) : Out :=
  let e := s.tx beacon port
  .next (if e.unacked.isEmpty || (e.st != .up && e.st != .quiescing) then s
  else if 7 ≤ e.expiries then s.dirDown beacon port 0 4
  else (s.setTx beacon port { e with expiries := e.expiries + 1 }).replay beacon port 5)

/-- SPILL_MOVE (10: R329): the oldest flits beyond the 6,144 on chip; none while the plinth re-lays (06: R194). -/
def execSpillMove (beacon port count : Nat) (s : State) : Out :=
  let e := s.tx beacon port
  let room := s.replayCap beacon port - 6144 - e.spilled
  let n := min (min count room) (e.unacked.length - e.spilled - 6144)
  .next (if n = 0 then s
  else (s.setTx beacon port { e with spilled := e.spilled + n, spilling := true }).bumpTx beacon port 2 n)

/-! ### Link packets received -/

/-- Pool space of a class in use, in 32-byte units. -/
def RxEnd.poolUse (e : RxEnd) (c : Nat) : Nat := ((e.pool.filter (fun u => u.pkt.tc == c)).map FabUnit.charge).sum

/-- Credits granted at session open: each class its reserve and the shared space that is free (10: R331, R332). -/
def RxEnd.opening (e : RxEnd) : Tbl Nat :=
  let overs := ((List.range 6).map (fun c => e.poolUse c - 1024)).sum
  (List.range 6).map (fun c => (c, 1024 - e.poolUse c + (59392 - overs)))

/-- LINK_HELLO at a receive direction (10: R318, R320, R334). One of another identity closes the open session whatever its mode; a port in direct mode
whose peer reports hall mode stays down. -/
def State.takeHello (s : State) (b q : Nat) (h : Hello) : State :=
  let e := s.rx b q
  let c : ChanId := { node := h.node, beacon := h.beacon, port := h.port, session := h.session }
  if e.st == .down then s
  else if !e.hall && h.mode != 0 then
    let s := s.post 0x002A (portUnit b q) (leBytes 1 b ++ leBytes 1 q)
    if e.ident.isNone || e.ident == some c then s else s.dirDown b q 1 5
  else if e.ident == some c then (s.setRx b q { e with tRef := h.tRef }).sendLinkAck b q 0
  else
    let s := s.setRx b q { e with
      st := .up, ident := some c, expect := 0, nakOut := false, ackDue := 0, tRef := h.tRef, partialIn := [], freed := e.opening }
    let s := (s.sendLinkAck b q 0).sendCredit b q
    let s := if e.st == .bringup then s.postPortUp b q e.hall e.lanes h.session else s
    s.flow b q

/-- LINK_ACK at the sender it names (10: R324 to R328, R334, R335). -/
def State.takeLinkAck (s : State) (b q session ackSeq flags echo : Nat) : State :=
  let e := s.tx b q
  if e.st == .down || session ≠ e.session then s
  else if bit 0 flags then s.dirDown b q 0 3
  else if e.st == .bringup then
    if 8 ≤ e.echoes.length then s.tryUp b q
    else
      let trips := e.echoes ++ [subMod 64 (s.now (16 + b)) echo]
      (s.setTx b q { e with echoes := trips, rttMeas := trips.foldl min (trips.headD 0) }).tryUp b q
  else if bit 1 flags then s.takeNak b q ackSeq
  else s.takeFabAck b q ackSeq

/-- LINK_CREDIT at the sender it names: totals only grow (10: R332). -/
def State.takeCredit (s : State) (b q session : Nat) (granted : List Nat) : State :=
  let e := s.tx b q
  if e.st == .down || session ≠ e.session then s
  else
    let g := (List.range 6).foldl (fun (t : Tbl Nat) c =>
      let v := granted.getD c 0 % 2 ^ 32
      if Tbl.has t c && !serialNewer 32 v (Tbl.getD t c 0) then t else Tbl.set t c v) e.granted
    let s := (s.setTx b q { e with granted := g }).tryUp b q
    if (s.tx b q).st == .up then s.flow b q else s

/-- LINK_LANES: the far end's transmit rings bear on the receive side, its receive rings on the transmit side (09: R300). -/
def State.takeLanes (s : State) (b q side mask : Nat) : State :=
  let own := if side = 0 then 1 else 0
  let s := if side = 0 then s.setRx b q { s.rx b q with unusable := mask % 2 ^ 18 } else s.setTx b q { s.tx b q with unusable := mask % 2 ^ 18 }
  let st := if own = 0 then (s.tx b q).st else (s.rx b q).st
  if st == .down then s
  else
    let ls := s.agreed b q own
    let s := s.setLanes b q own ls
    if ls.length < 8 then s.dirDown b q own 1 else s

/-- ROUTE_FAIL (10: R343). -/
def State.takeRouteFail (s : State) (word : Nat) : State := s.holdWord word

/-- A link packet that has reached this package: those of the far end of the fibre (10: R314), and those addressed to it. -/
def State.takeLink (s : State) (b q : Nat) (p : FabPkt) : State :=
  let d := p.payload
  let pb := field d 0 1 % 8
  let pq := field d 1 1 % 16
  let session := field d 2 1
  match p.ftype with
  | 0x10 => s.takeHello b q { node := p.srcNode, beacon := pb, port := pq, session := session, mode := field d 4 1, tRef := field d 8 8 }
  | 0x11 => s.takeLinkAck pb pq session (field d 4 4 % 2 ^ 20) (field d 8 4) (field d 12 8)
  | 0x12 => s.takeCredit pb pq session ((List.range 6).map (fun c => field d (4 + 4 * c) 4))
  | 0x13 => if field d 4 1 = 0 then s.takeLanes b q 0 (field d 8 4) else s.takeLanes pb pq 1 (field d 8 4)
  | 0x14 => s.takeRouteFail (field d 8 8)
  | _ => s

/-- LINK_HELLO. -/
def execLinkHello (beacon port : Nat) (h : Hello) (s : State) : Out := .next (s.takeHello beacon port h)

/-- LINK_ACK. -/
def execLinkAck (beacon port session ackSeq flags echo : Nat) (s : State) : Out :=
  .next (s.takeLinkAck beacon port session ackSeq flags echo)

/-- FABRIC_LINK_CREDIT. -/
def execFabricLinkCredit (beacon port session : Nat) (granted : List Nat) (s : State) : Out :=
  .next (s.takeCredit beacon port session granted)

/-- LINK_LANES (09: R300). -/
def execLinkLanes (beacon port side mask : Nat) (s : State) : Out := .next (s.takeLanes beacon port (side % 2) mask)

/-- ROUTE_FAIL. -/
def execRouteFail (_cause _hop word : Nat) (s : State) : Out := .next (s.takeRouteFail word)

/-- ROUTE_FAIL_HOLD_EXPIRY. -/
def execRouteFailHoldExpiry (word : Nat) (s : State) : Out :=
  .next ({ s with fab := { s.fab with heldWords := s.fab.heldWords.filter (fun (h : Nat × Nat) => h.2 ≠ wordKey word) } }).goOn

/-! ### Units received (10: R316, R323, R342) -/

/-- Whole units at the front of a session's bytes, and what is left of the last; eight zero bytes end a flit. -/
def splitUnits : Nat → List Byte → List FabUnit × List Byte
  | 0, bs => ([], bs)
  | n + 1, bs =>
    if bs.length < 8 then ([], [])
    else if field bs 0 8 = 0 then ([], [])
    else if bs.length < 40 then ([], bs)
    else
      let len := 8 * ((40 + field bs 10 2 + 7) / 8)
      if bs.length < len then ([], bs)
      else
        let r := splitUnits n (bs.drop len)
        ({ route := field bs 0 8, pkt := FabPkt.ofBytes (bs.drop 8) } :: r.1, r.2)

/-- Link packets of a CTRL flit. -/
def splitLinks : Nat → List Byte → List FabPkt
  | 0, _ => []
  | n + 1, bs =>
    if bs.length < 32 || field bs 0 8 = 0 then []
    else FabPkt.ofBytes bs :: splitLinks n (bs.drop (8 * ((32 + field bs 2 2 + 7) / 8)))

/-- A route with another word's hops appended at HOP[NHOPS]. -/
def appendRoute (w more : Nat) : Nat :=
  let n := nhopsOf w
  w % 2 ^ (7 * n) + (more % 2 ^ (7 * nhopsOf more)) * 2 ^ (7 * n) + nextOf w * 2 ^ 56 + (n + nhopsOf more) * 2 ^ 60

/-- One unit from the receive direction of a port: sent on, delivered, or dropped (10: R342). -/
def State.takeUnit (s : State) (b q : Nat) (u : FabUnit) : State :=
  let pool := fun (s : State) (u : FabUnit) => (s.setRx b q { s.rx b q with pool := (s.rx b q).pool ++ [u] }).movePool b q
  if nextOf u.route < nhopsOf u.route then pool s u
  else if s.fab.node = some u.pkt.dstNode then
    let s := s.freeUnit b q u
    if 16 ≤ u.pkt.ftype then s.takeLink b q u.pkt else { s with fab := { s.fab with arrived := s.fab.arrived ++ [u.pkt] } }
  else if bits 13 6 u.pkt.dstNode ≠ bits 13 6 s.ownNode then (s.routeFail b 1 (nextOf u.route) (s.rxHead b q) u).freeUnit b q u
  else
    match s.chooseRoute (b / 2) u.pkt.dstNode u.pkt.key with
    | none => (s.routeFail b 1 (nextOf u.route) (s.rxHead b q) u).freeUnit b q u
    | some w =>
      if 8 < nhopsOf u.route + nhopsOf w then (s.routeFail b 2 (nextOf u.route) (s.rxHead b q) u).freeUnit b q u
      else pool s { u with route := appendRoute u.route w }

/-- A link packet of a CTRL flit: what a sender says is for this end; the rest by its destination. -/
def State.takeCtrl (s : State) (b q : Nat) (p : FabPkt) : State :=
  if p.ftype = 0x10 || p.ftype = 0x13 || some p.dstNode = s.fab.node then s.takeLink b q p else s.sendPkt (b / 2) p

/-- A NAK, unless one is out for the flit that is missing and RTT_MEAS + 2 us have not passed (10: R325). -/
def State.nak (s : State) (b q : Nat) : State :=
  let e := s.rx b q
  let now := s.now (16 + b)
  if e.hall || e.ident.isNone || (e.nakOut && decide (subMod 64 now e.nakAt ≤ (s.tx b q).rttMeas + 312)) then s
  else ((s.setRx b q { e with nakOut := true, nakAt := now }).sendLinkAck b q 2).bumpRx b q 6 1

/-- FABRIC_FLIT_RX (10: R313, R314, R323): the flit is taken from those that the direction's codewords gave, where it is one of them.
The acknowledgement in a header is taken where the flit's identity is that of the open session. -/
def execFabricFlitRx (beacon port : Nat) (flit : List Byte) (s : State) : Out :=
  let b := beacon
  let q := port
  let s := if (s.rx b q).flits.contains flit then s.setRx b q { s.rx b q with flits := (s.rx b q).flits.erase flit } else s
  let h := field flit 8 4
  let c : ChanId := { node := bits 13 0 h, beacon := bits 16 14 h, port := bits 20 17 h, session := bits 28 21 h }
  let ftype := bits 23 20 (field flit 0 4)
  let fseq := field flit 0 4 % 2 ^ 20
  let body := slice flit 12 240
  .next (if (s.die (16 + b)).life != .up || (s.rx b q).st == .down then s
  else if flit.length ≠ 256 ∨ crc32c (flit.take 252) ≠ field flit 252 4 then
    let s := s.setRx b q { s.rx b q with crcSeen := true }
    (s.bumpRx b q 4 1).nak b q
  else if 3 ≤ ftype then s
  else
    let s := if (s.tx b q).hall || (s.tx b q).st == .down || (s.rx b q).ident != some c then s
      else match bits 21 20 (field flit 4 4) with
        | 1 => s.takeFabAck b q (field flit 4 4 % 2 ^ 20)
        | 2 => s.takeNak b q (field flit 4 4 % 2 ^ 20)
        | _ => s
    let s := if ftype = 1 then s.setBeacon b { s.beacon b with idlePorts := (s.beacon b).idlePorts.filter (fun p => p ≠ q) } else s
    let e := s.rx b q
    if ftype = 2 then (splitLinks 30 body).foldl (fun acc p => acc.takeCtrl b q p) s
    else if ftype = 0 then s
    else if e.ident ≠ some c then s
    else if fseq = e.expect then
      let r := splitUnits 60 (e.partialIn ++ body)
      let s := s.setRx b q { e with expect := (fseq + 1) % 2 ^ 20, nakOut := false, ackDue := e.ackDue + 1, partialIn := r.2 }
      let s := r.1.foldl (fun acc u => acc.takeUnit b q u) (s.bumpRx b q 0 1)
      if 256 ≤ (s.rx b q).ackDue then s.sendLinkAck b q 0 else s
    else if serialNewer 20 e.expect fseq then (s.bumpRx b q 5 1).sendLinkAck b q 0
    else s.nak b q)

/-- FABRIC_ACK_TIMER (10: R324). -/
def execFabricAckTimer (beacon port : Nat) (s : State) : Out :=
  .next (if (s.rx beacon port).st == .up then s.sendLinkAck beacon port 0 else s)

/-- CREDIT_REPORT_TIMER (10: R332). -/
def execCreditReportTimer (beacon port : Nat) (s : State) : Out :=
  .next (if (s.rx beacon port).st == .up then s.sendCredit beacon port else s)

/-- POOL_STALL_EXPIRY (10: R333): the packet that has waited longest is dropped. -/
def execPoolStallExpiry (beacon port : Nat) (s : State) : Out :=
  let e := s.rx beacon port
  .next (match e.pool with
  | [] => s
  | u :: us =>
    let s := s.setRx beacon port { e with pool := us }
    ((s.bumpBeacon beacon 5).routeFail beacon 3 (nextOf u.route) (s.rxHead beacon port) u).freeUnit beacon port u)

end Sys2Proof.Machine
end

