-- ==== Sys2Proof/Machine/Beacons.lean ====
section
/-!
DEFINITION. The beacon controllers: ring loops, matrices, sights, lanes and sparing, mislocks, the switch, and the laser modules
(09: R283 to R306; 10: R338; 13: R417).
-/
namespace Sys2Proof.Machine

open Sys2Proof

/-! ### Parts of a beacon -/

/-- Side, port and λ of a ring or line. -/
def lineSide (k : Nat) : Nat := k / 288 % 2
def linePort (k : Nat) : Nat := k % 288 / 18
def lineIdx (k : Nat) : Nat := k % 18

/-- Does the controller work: beacon in service and its line table built? -/
def State.beaconOn (s : State) (b : Nat) : Bool := (s.die (16 + b)).life == .up && (s.beacon b).built

/-- May it start a sight, a re-point or a sparing (09: R292)? -/
def State.beaconActs (s : State) (b : Nat) : Bool := s.beaconOn b && !(s.beacon b).frozen

def State.onRing (s : State) (b k : Nat) (f : Ring → Ring) : State := s.setRing b k (f (s.ring b k))
def State.onLane (s : State) (b k : Nat) (f : Lane → Lane) : State := s.setLane b k (f (s.lane b k))
def State.onBeacon (s : State) (b : Nat) (f : Beacon → Beacon) : State := s.setBeacon b (f (s.beacon b))

/-- Service address of a counter of a ring, and of a line (21: R572). -/
def ringItem (b k i : Nat) : Nat := svcAddr (16 + b) 0xA (0x40 * k + 4 + 4 * i)
def lineItem (b k i : Nat) : Nat := svcAddr (16 + b) 0xB (0x40 * k + (if i = 0 then 0x08 else if i = 1 then 0x10 else if i = 2 then 0x20 else if i = 3 then 0x24 else 0x18))

/-- A ring counter advanced: MISLOCKS, UNLOCKS, SIGHTS. -/
def State.bumpRing (s : State) (b k i : Nat) : State :=
  let t := (s.ring b k).counters
  (s.onRing b k (fun r => { r with counters := bumpTbl r.counters i 32 1 })).satBump t i 1 (portUnit b (linePort k)) (ringItem b k i)

/-- A line counter advanced; FEC_UNCORRECTABLE and TAG_MISMATCH are 32 bits wide. -/
def State.bumpLane (s : State) (b k i n : Nat) : State :=
  let t := (s.lane b k).counters
  let wide := i = 0 ∨ i = 1 ∨ i = 4
  let s' := s.onLane b k (fun l => { l with counters := bumpTbl l.counters i (if wide then 64 else 32) n })
  if wide then s' else s'.satBump t i n (portUnit b (linePort k)) (lineItem b k i)

/-- The first DATA of an optics event: beacon, port, direction, λ. -/
def lineData (b k : Nat) : List Byte := leBytes 1 b ++ leBytes 1 (linePort k) ++ leBytes 1 (lineSide k) ++ leBytes 1 (lineIdx k)

/-- A heater at a code the spec does not give, while the ring is parked or swept (09: R305); a freeze keeps its last value until it
ends (09: R292). -/
def State.sweepRing (s : State) (b k : Nat) : State :=
  let v := s.fresh 20
  v.2.onRing b k (fun r => { r with st := .sweeping, steps := 0, heater := if (s.beacon b).frozen then r.heater else v.1 % 65536 })

/-! ### Lanes: withdrawal, re-admission, sparing, narrowing (09: R295, R301, R302) -/

/-- Lines of a direction in some state. -/
def State.linesIn (s : State) (b q side : Nat) (st : LaneSt) : List Nat :=
  (List.range 18).filter (fun i => (s.lane b (lineKey side q i)).st == st)

/-- Active lanes counted again. -/
def State.countLanes (s : State) (b q side : Nat) : State :=
  let n := (s.linesIn b q side .active).length
  if side = 0 then s.setTx b q { s.tx b q with lanes := n } else s.setRx b q { s.rx b q with lanes := n }

/-- A lane withdrawn: its line carries FILL. -/
def State.withdraw (s : State) (b k : Nat) (sight : Bool) : State :=
  let l := s.lane b k
  match l.st with
  | .active => (s.onLane b k (fun l => { l with st := .withdrawn, clean := 0, sighted := sight, inq := [] })).countLanes b (linePort k) (lineSide k)
  | .withdrawn => s.onLane b k (fun l => { l with clean := 0, sighted := l.sighted && sight })
  | _ => s

/-- A withdrawn lane takes traffic again. -/
def State.readmitLane (s : State) (b k : Nat) : State :=
  if (s.lane b k).st == .withdrawn then
    (s.onLane b k (fun l => { l with st := .active, sighted := false })).countLanes b (linePort k) (lineSide k)
  else s

/-- Lines in use renumbered in ascending order, with PORT_NARROWED; below 8 the direction is down. -/
def State.narrow (s : State) (b q side : Nat) : State :=
  let use := (List.range 18).filter (fun i =>
    (s.lane b (lineKey side q i)).st == .active || (s.lane b (lineKey side q i)).st == .withdrawn)
  let s := (List.range use.length).foldl (fun acc n => acc.onLane b (lineKey side q (use.getD n 0)) (fun l => { l with lane := n })) s
  let s := s.countLanes b q side
  let s := s.post 0x004B (portUnit b q) (leBytes 1 b ++ leBytes 1 q ++ leBytes 1 side ++ leBytes 1 use.length)
  if use.length < 8 then s.dirDown b q side 1 else s

/-- The spare that takes over next: λ16, then λ17, then a returned line. -/
def State.nextSpare (s : State) (b q side : Nat) : Option Nat :=
  ([16, 17] ++ List.range 16).find? (fun i =>
    let k := lineKey side q i
    (s.lane b k).st == LaneSt.spare && !(s.ring b k).retired && (s.ring b k).st != LoopSt.parked)

/-- A line retired from its direction; a spare takes its lane, or the direction narrows (09: R301, R302). -/
def State.retireLine (s : State) (b k : Nat) : State :=
  let q := linePort k
  let side := lineSide k
  let l := s.lane b k
  if l.st == .retired then s
  else
    let s := s.onBeacon b (fun e => { e with
      sights := e.sights.filter (fun x => x ≠ k), spoiled := e.spoiled.filter (fun x => x ≠ k), forced := e.forced.filter (fun x => x ≠ k)
      gapSights := e.gapSights.filter (fun x => x.1 ≠ k) })
    let s := (s.onRing b k (fun r => { r with retired := true, st := .parked })).setFeeds b
    let s := s.onLane b k (fun l => { l with st := .retired, frameLock := false })
    if l.st == .active || l.st == .withdrawn then
      match s.nextSpare b q side with
      | some i =>
        let j := lineKey side q i
        let s := s.onLane b j (fun x => { x with st := if side = 0 then .active else .withdrawn, lane := l.lane, clean := 0, sighted := false })
        (s.countLanes b q side).post 0x0049 (portUnit b q) (lineData b k ++ leBytes 1 i)
      | none => s.narrow b q side
    else s

/-- The line is retired now, or once the freeze ends (09: R292). -/
def State.retireSoon (s : State) (b k : Nat) : State :=
  if (s.beacon b).frozen then s.onBeacon b (fun e => { e with owed := if e.owed.contains k then e.owed else e.owed ++ [k] })
  else s.retireLine b k

/-- References of the last 10 s, a new one in front (09: R283, R301). -/
def lastTenSeconds (now : Nat) (l : List Nat) : List Nat := now :: l.filter (fun r => decide (subMod 64 now r < 10 * 156250000))

/-- A ring taken through recovery: lane withdrawn, ring parked and swept; it is retired where two attempts have not locked it. -/
def State.recover (s : State) (b k : Nat) : State :=
  let s := s.onBeacon b (fun e => { e with
    sights := e.sights.filter (fun x => x ≠ k), spoiled := e.spoiled.filter (fun x => x ≠ k), gapSights := e.gapSights.filter (fun x => x.1 ≠ k) })
  let s := s.withdraw b k false
  if 2 ≤ (s.ring b k).attempts then s.retireSoon b k
  else (s.onRing b k (fun r => { r with attempts := r.attempts + 1 })).sweepRing b k

/-- A mislock (09: R304, R305). -/
def State.mislock (s : State) (b k : Nat) : State :=
  let times := lastTenSeconds (s.now (16 + b)) (s.ring b k).mislocks
  let s := (s.onRing b k (fun r => { r with mislockSeen := true, mislocks := times })).bumpRing b k 0
  let s := s.post 0x0048 (portUnit b (linePort k)) (lineData b k)
  if 3 ≤ times.length then (s.withdraw b k false).retireSoon b k else s.recover b k

/-- A lane FAILED (09: R283): withdrawn and relocked, and retired at the third failure within 10 s. -/
def State.laneFailed (s : State) (b k : Nat) : State :=
  let times := lastTenSeconds (s.now (16 + b)) (s.lane b k).fails
  let s := s.onLane b k (fun l => { l with fails := times })
  if 3 ≤ times.length then (s.withdraw b k false).retireSoon b k else s.recover b k

/-! ### Sights (09: R295, R296) -/

/-- Pipelines whose notice has at least 250 us of its hold left, by the beacon's reference count (6.4 ns). -/
def State.gapWindows (s : State) (b : Nat) : List Nat :=
  ((s.beacon b).notices.filter (fun (n : Nat × Nat × Nat) => decide (250 * 625 + 4 * subMod 64 (s.now (16 + b)) n.2.2 ≤ n.2.1 * 625))).map (·.1)

/-- Does a returned line wait for its sight (09: R303)? -/
def State.returning (s : State) (b k : Nat) : Bool := (s.beacon b).laneWaits.any (fun (w : Nat × Waiter) => w.1 == k)

/-- Is a window open for the ring, or is it a spare or a line on its way to one, which need none? -/
def State.windowOpen (s : State) (b k : Nat) : Bool :=
  let e := s.beacon b
  (s.lane b k).st == .spare || s.returning b k || !(s.gapWindows b).isEmpty || e.idlePorts.contains (linePort k) || e.forced.contains k

/-- Can a sight of the ring start now? -/
def State.sightable (s : State) (b k : Nat) : Bool :=
  let e := s.beacon b
  ((s.ring b k).st == .locked || ((s.ring b k).st == .parked && s.returning b k)) && !(s.ring b k).retired &&
    !(e.sights.any (fun x => linePort x == linePort k)) && s.windowOpen b k

/-- A sight begins; one in a FORCED window is counted, and one under gap notices keeps them. -/
def State.startSight (s : State) (b k : Nat) : State :=
  let s := if (s.beacon b).forced.contains k then s.bumpBeacon b 1 else s
  let under := if (s.lane b k).st == .spare then [] else (s.gapWindows b).map (fun pl => (k, pl))
  let s := s.withdraw b k true
  (s.onBeacon b (fun e => { e with sights := e.sights ++ [k], gapSights := e.gapSights ++ under })).sweepRing b k

/-- SIGHT: the oldest ring that may be sighted, while fewer than SIGHTS_PARALLEL run. -/
def execSight (beacon ring : Nat) (s : State) : Out :=
  let age := fun (k : Nat) => (s.ring beacon k).lastSight
  .next (if s.beaconActs beacon && decide (ring < 576) && s.sightable beacon ring &&
      decide ((s.beacon beacon).sights.length < s.setting 0x00030003) &&
      (List.range 576).all (fun k => !s.sightable beacon k || decide (age ring ≤ age k)) then
    s.startSight beacon ring
  else s)

/-- SIGHT_DONE: peak and line table are taken and the lane re-admitted, a receive lane once 32 clean codewords have come; one that a feed-forward notice met
is taken again (09: R306). A returned line becomes a spare (09: R303). -/
def execSightDone (beacon ring peak code : Nat) (s : State) : Out :=
  let e := s.beacon beacon
  let b := beacon
  let k := ring
  .next (if !s.beaconActs b || !e.sights.contains k then s
  else if lineSide k == 1 && (s.lane b k).st == .withdrawn && (s.lane b k).sighted && decide ((s.lane b k).clean < 32) then s
  else if e.spoiled.contains k then s.onBeacon b (fun e => { e with spoiled := e.spoiled.filter (fun x => x ≠ k) })
  else
    let s := s.onBeacon b (fun e => { e with sights := e.sights.filter (fun x => x ≠ k), forced := e.forced.filter (fun x => x ≠ k), gapSights := e.gapSights.filter (fun x => x.1 ≠ k) })
    let s := s.onRing b k (fun r => { r with
      st := .locked, steps := 0, attempts := 0, peak := peak, lineCode := code, heater := code, lastSight := s.now (16 + b)
      integ := 256 * code, out := code })
    let s := s.bumpRing b k 2
    let s := if (s.lane b k).sighted then s.readmitLane b k else s
    match e.laneWaits.find? (fun (w : Nat × Waiter) => w.1 == k) with
    | none => s
    | some w =>
      let s := s.onBeacon b (fun e => { e with laneWaits := e.laneWaits.filter (fun (x : Nat × Waiter) => x.1 ≠ k) })
      let s := s.onLane b k (fun l => { l with st := .spare })
      s.answerCmd w.2 0x004A 0 (leBytes 1 (s.linesIn b (linePort k) (lineSide k) .active).length ++ leBytes 3 0))

/-- GAP_NOTICE: held until the gap closes or the controller releases it. -/
def execGapNotice (beacon pl hold : Nat) (s : State) : Out :=
  .next (match s.takeHub (fun p => p.typ == 9 && p.specific == 0x20 && p.dst == unitId (16 + beacon) 0 && field p.payload 0 1 == pl) with
  | none => s
  | some s =>
  if s.beaconOn beacon && ((s.pipe? pl).map (fun (p : Pipe) => p.gap == .opened && !p.gapReleased.contains beacon)).getD false then
    s.onBeacon beacon (fun e => { e with notices := e.notices.filter (fun (n : Nat × Nat × Nat) => n.1 ≠ pl) ++ [(pl, hold, s.now (16 + beacon))] })
  else s)

/-- IDLE_WINDOW_EXPIRY: the window closes at the next DATA flit. -/
def execIdleWindowExpiry (beacon port : Nat) (s : State) : Out :=
  .next (if s.beaconOn beacon && !(s.beacon beacon).idlePorts.contains port then
    s.onBeacon beacon (fun e => { e with idlePorts := e.idlePorts ++ [port] })
  else s)

/-- FORCED_SIGHT: a ring past SIGHT_MAX_AGE or on a DEGRADED lane; the sight runs at once where one may start. -/
def execForcedSight (beacon ring : Nat) (s : State) : Out :=
  let b := beacon
  let k := ring
  let e := s.beacon b
  let old := decide (s.setting 0x00030001 * 156250 < subMod 64 (s.now (16 + b)) (s.ring b k).lastSight)
  .next (if s.beaconActs b && decide (k < 576) && (old || (s.lane b k).degraded || e.forced.contains k) && !e.sights.contains k &&
      (s.ring b k).st == .locked && !(s.ring b k).retired then
    let s := s.onBeacon b (fun e => { e with forced := if e.forced.contains k then e.forced else e.forced ++ [k] })
    if s.sightable b k && decide ((s.beacon b).sights.length < s.setting 0x00030003) then s.startSight b k else s
  else s)

/-! ### Ring loops (09: R289 to R292) -/

/-- KP, KI, and the modulator and drop set-points in hundredths, by band. -/
def bandTable (band : Nat) : Nat × Nat × Nat × Nat :=
  match band with
  | 0 => (2400, 300, 50, 90)
  | 1 => (2000, 260, 50, 90)
  | _ => (1600, 220, 55, 88)

/-- FF_COEF in hundredths. -/
def ffCoef (band : Nat) : Nat := match band with
  | 0 => 12
  | 1 => 14
  | _ => 16

/-- The band for a beacon's Tj in quarter degrees, from the band it is in (09: R290). -/
def bandOf (band : Nat) (t : Int) : Nat :=
  let up := if t < 240 then 0 else if t < 320 then 1 else 2
  if band ≤ up then up
  else
    -- down only 2 degrees below the limit of the band left
    if band = 2 ∧ 312 < t then 2 else if 232 < t then max up 1 else up

/-- A beacon takes its band from its Tj. -/
def State.takeBand (s : State) (b : Nat) : State := s.onBeacon b (fun e => { e with band := bandOf e.band (s.die (16 + b)).tj })

/-- A matrix of a bank, key 2 * port + side. -/
def State.matrix (s : State) (b bank : Nat) : Matrix :=
  Tbl.getD (s.beacon b).matrices bank (if (s.beacon b).built then { fitCount := 1, residual := Config.startResidual b bank } else {})

/-- An entry in Q1.14; the first fit of a start is not the model's to know. -/
def State.matrixEntry (s : State) (b bank at_ : Nat) : Nat :=
  match Tbl.get? (s.matrix b bank).entries at_ with
  | some v => v
  | none => if (s.beacon b).built then Config.startMatrix b bank at_ % 65536 else 0

/-- Heater code of a ring from the loop outputs of its bank (09: R293). -/
def State.heaterCode (s : State) (b k : Nat) : Nat :=
  let side := lineSide k
  let q := linePort k
  let terms := (List.range 18).map (fun j =>
    let r := s.ring b (lineKey side q j)
    if r.retired || r.st == .parked then (0 : Int)
    else toSigned 16 (s.matrixEntry b (2 * q + side) (18 * lineIdx k + j)) * r.out)
  ((max 0 (min 65535 (terms.sum / 16384))) : Int).toNat

/-- One proportional-integral step: integrator in 1/256 codes, output in codes, ratio in 0.8 fixed point. -/
def Ring.step (r : Ring) (side band monitor : Nat) : Ring :=
  let t := bandTable band
  let set : Int := if side = 0 then t.2.2.1 else t.2.2.2
  let pk : Int := r.peak
  let err : Int := set * pk - 100 * monitor
  let den : Int := 100 * pk
  let add : Int := if r.rampSteps = 0 then 0 else r.ramp / r.rampSteps
  let integ := r.integ + (if pk = 0 then 0 else 256 * t.2.1 * err / den) + add
  { r with
    integ := integ, out := integ / 256 + (if pk = 0 then 0 else t.1 * err / den), band := band
    ramp := r.ramp - add, rampSteps := r.rampSteps - 1
    ratio := if r.peak = 0 then 0 else min 255 (256 * monitor / r.peak) }

/-- Is the ratio from 0.2 to 1.0? -/
def Ring.inRange (r : Ring) (monitor : Nat) : Bool := decide (r.peak ≤ 5 * monitor) && decide (monitor ≤ r.peak) && r.peak != 0

/-- HEATER_LOOP_STEP. A locked ring out of range for ten steps is UNLOCKED; a ring in recovery locks with the first step in range, and an
attempt of 43 steps without one has failed (09: R289, R301, R305). -/
def execHeaterLoopStep (beacon ring monitor : Nat) (s : State) : Out :=
  let b := beacon
  let k := ring
  let r := s.ring b k
  let e := s.beacon b
  .next (if !s.beaconOn b || e.frozen || 576 ≤ k || r.retired then s
  else
    let m := monitor % 4096
    match r.st with
    | .locked =>
      let s := s.setRing b k (r.step (lineSide k) e.band m)
      let s := s.onRing b k (fun r => { r with heater := s.heaterCode b k, steps := if r.inRange m then 0 else r.steps + 1 })
      if 10 ≤ (s.ring b k).steps then
        let s := (s.onRing b k (fun r => { r with unlockSeen := true })).bumpRing b k 1
        s.recover b k
      else s
    | .sweeping =>
      if e.sights.contains k then s
      else if r.inRange m then
        let s := s.onRing b k (fun r => { r with st := .locked, steps := 0, attempts := 0, heater := r.lineCode, integ := 256 * r.lineCode, out := r.lineCode })
        if lineSide k = 0 then s.readmitLane b k else s
      else if r.steps < 42 then s.onRing b k (fun r => { r with steps := r.steps + 1 })
      else s.recover b k
    | _ => s)

/-- FEED_FORWARD_NOTICE (09: R291): −FF_COEF × rate × 1 ms over the next 100 steps of every ring, in codes; `rate` in quarter degrees per
millisecond. A sight under way is taken again (09: R306). -/
def execFeedForwardNotice (beacon rate : Nat) (s : State) : Out :=
  .next (match s.takeHub (fun p => p.typ == 9 && p.specific == 0x21 && p.dst == unitId (16 + beacon) 0) with
  | none => s
  | some s =>
  let e := s.beacon beacon
  if !s.beaconOn beacon then s
  else
    let s := s.onBeacon beacon (fun e => { e with spoiled := e.sights })
    (List.range 576).foldl (fun acc k =>
      if (acc.ring beacon k).retired then acc
      else
        let total : Int := -((256 * ffCoef e.band * rate * Config.codesPerDegree beacon k / 400 : Nat) : Int)
        acc.onRing beacon k (fun r => { r with ramp := r.ramp + total, rampSteps := 100 })) s)

/-- EXSAR_HEARTBEAT_MISS (09: R292). -/
def execExsarHeartbeatMiss (beacon : Nat) (s : State) : Out :=
  .next (if s.beaconOn beacon then s.onBeacon beacon (fun e => { e with frozen := true, autonomous := false }) else s)

/-- The loops resume, and what was owed is done. -/
def State.thaw (s : State) (b : Nat) (alone : Bool) : State :=
  let owed := (s.beacon b).owed
  let s := s.onBeacon b (fun e => { e with frozen := false, autonomous := alone, owed := [] })
  let s := (List.range 576).foldl (fun acc k => if (acc.ring b k).st == .sweeping then
    let v := acc.fresh 20
    v.2.onRing b k (fun r => { r with heater := v.1 % 65536 }) else acc) s
  owed.foldl (fun acc k => acc.retireLine b k) s

/-- EXSAR_HEARTBEAT. -/
def execExsarHeartbeat (beacon : Nat) (s : State) : Out := .next (if s.beaconOn beacon then s.thaw beacon false else s)

/-- HEARTBEAT_AUTONOMY_TIMEOUT: the controller resumes on its own authority. -/
def execHeartbeatAutonomyTimeout (beacon : Nat) (s : State) : Out :=
  .next (if s.beaconOn beacon && (s.beacon beacon).frozen then s.thaw beacon true else s)

/-! ### Matrices (09: R294) -/

/-- Is a ring of the bank sweeping? -/
def State.bankSweeps (s : State) (b bank : Nat) : Bool :=
  (List.range 18).any (fun i => (s.ring b (lineKey (bank % 2) (bank / 2) i)).st == .sweeping)

def State.setMatrix (s : State) (b bank : Nat) (m : Matrix) : State := s.onBeacon b (fun e => { e with matrices := Tbl.set e.matrices bank m })

/-- MATRIX_FIT: one bank of a beacon at a time, `bank` being 2 * port + side. -/
def execMatrixFit (beacon bank : Nat) (s : State) : Out :=
  .next (if s.beaconActs beacon && decide (bank < 32) && !((Tbl.vals (s.beacon beacon).matrices).any (·.fitting)) && !s.bankSweeps beacon bank then
    s.setMatrix beacon bank { s.matrix beacon bank with fitting := true }
  else s)

/-- MATRIX_FIT_DONE: the new matrix takes the old one's place; suspended while a ring of the bank sweeps (09: R306). -/
def execMatrixFitDone (beacon bank residual : Nat) (entries : List Nat) (s : State) : Out :=
  let m := s.matrix beacon bank
  .next (if s.beaconActs beacon && m.fitting && !s.bankSweeps beacon bank && entries.length == 324 then
    s.setMatrix beacon bank
      { fitCount := addMod 16 m.fitCount 1, residual := residual % 65536, fitting := false
        entries := (List.range 324).map (fun i => (i, entries.getD i 0 % 65536)) }
  else s)

/-! ### Lanes as their receivers see them (09: R279, R280, R283, R304, R305) -/

/-- Is a bit error ratio, each corrected symbol taken for one wrong bit of the 2,720 of a codeword, above 10^-n (assumption 85)? -/
def berAbove (words errs n : Nat) : Bool := decide (2720 * words < errs * 10 ^ n)

/-- Is the lane FAILED by its last 1 ms (09: R283)? -/
def Lane.failed (l : Lane) : Bool := decide (16 < l.nearLost) || berAbove l.nearWords l.nearErrs 3

/-- A forced sight of both rings of a receive line asked for (09: R283, R296): its receive ring, and its transmit ring here. -/
def State.forceLine (s : State) (b k : Nat) : State :=
  [k, k - 288].foldl (fun acc x => acc.onBeacon b (fun e => { e with forced := if e.forced.contains x then e.forced else e.forced ++ [x] })) s

/-- LANE_BER_EVALUATION of a receive line: over the 100 ms that end, or over the 1 ms. -/
def execLaneBerEvaluation (beacon line : Nat) (long : Bool) (s : State) : Out :=
  let b := beacon
  let k := line
  let l := s.lane b k
  .next (if !s.beaconOn b || lineSide k = 0 || 576 ≤ k || (l.st != .active && l.st != .withdrawn && l.st != .spare) then s
  else if long then
    let bad := berAbove l.farWords l.farErrs (s.setting 0x00030004)
    let s := s.setLane b k { l with farWords := 0, farErrs := 0, degraded := bad }
    if bad && !l.degraded then (s.forceLine b k).post 0x004A (portUnit b (linePort k)) (lineData b k) else s
  else
    let s := s.setLane b k { l with nearWords := 0, nearErrs := 0, nearLost := 0 }
    if l.failed then s.laneFailed b k else s)

/-- What the decoder gives for a codeword with so many wrong symbols: header, corrected symbols and payload. Beyond 7 the word is flagged, or mis-corrected
to one that no rule gives (09: R280). -/
def State.decodeWord (s : State) (header errors : Nat) (payload : List Byte) : Option (Nat × Nat × List Byte) × State :=
  if errors ≤ 7 then (some (header % 1024, errors, payload), s)
  else
    let v := s.fresh 21
    (if v.1 % 2 = 0 then none else some (v.1 / 2 % 1024, v.1 / 2048 % 8, leBytes 320 (v.1 / 16384)), v.2)

/-- The place of a codeword in its MARK period, and its block handed to the link layer's lanes (09: R279, R280; 10: R315). -/
def State.takeBlock (s : State) (b k : Nat) (word : Option (Nat × Nat × List Byte)) : State :=
  let l := s.lane b k
  let place := match word with
    | some (h, _, _) => if parity 10 h == 0 && headerMark h then some 0 else l.mark
    | none => l.mark
  match l.frameLock, place with
  | true, some p =>
    let block := word.bind (fun w => if headerFill w.1 then none else some (scramble (lineIdx k) p w.2.2))
    (s.setLane b k { l with mark := some ((p + 1) % 64) }).enqueueBlock b k p block
  | _, _ => s

/-- CODEWORD_RX of a receive line: `errors` symbols of it are wrong; `payload` is as it stands on the fibre. Its block joins those of the other lanes, and the
flits they give wait for the link layer. -/
def execCodewordRx (beacon line header errors : Nat) (payload : List Byte) (s : State) : Out :=
  let b := beacon
  let k := line
  let l0 := s.lane b k
  .next (if !s.beaconOn b || lineSide k = 0 || 576 ≤ k || l0.st == .retired then s
  else
    let d := s.decodeWord header errors payload
    let s := d.2.bumpLane b k 0 1
    match d.1 with
    | none =>
      let s := (s.bumpLane b k 2 1).onLane b k (fun l => { l with good := 0, clean := 0, nearLost := l.nearLost + 1 })
      s.takeBlock b k none
    | some (header, errors, payload) =>
      let s := s.bumpLane b k 1 errors
      let valid := parity 10 header == 0
      let tagOk := header % 32 == lineIdx k
      let s := if tagOk then s else s.bumpLane b k 3 1
      let s := s.onLane b k (fun l => { l with
        good := if valid then l.good + 1 else 0
        frameLock := l.frameLock || (valid && decide (4 ≤ l.good + 1))
        clean := if tagOk then l.clean + 1 else 0
        wrong := if tagOk || (s.ring b k).st != .locked then 0 else l.wrong + 1
        nearWords := l.nearWords + 1, nearErrs := l.nearErrs + errors, farWords := l.farWords + 1, farErrs := l.farErrs + errors })
      let s := s.takeBlock b k (some (header, errors, payload))
      let l := s.lane b k
      if 4 ≤ l.wrong ∧ (s.ring b k).st = .locked then (s.onLane b k (fun l => { l with wrong := 0 })).mislock b k
      else if l.st == .withdrawn && decide (32 ≤ l.clean) && (s.ring b k).st == .locked then s.readmitLane b k
      else s)

/-- SILENT_LANE_TIMEOUT: `mislocked` is the ring that the comparison with the line table names, if one does. -/
def execSilentLaneTimeout (beacon line : Nat) (mislocked : Option Nat) (s : State) : Out :=
  let b := beacon
  let k := line
  .next (if !s.beaconOn b || 576 ≤ k || (s.ring b k).st != .locked || (s.ring b k).retired then s
  else
    let s := s.onLane b k (fun l => { l with frameLock := false, good := 0, mark := none, inq := [] })
    match mislocked with
    | some r => if (s.ring b r).st == .locked && !(s.ring b r).retired then s.mislock b r else s
    | none => s.laneFailed b k)

/-! ### The switch (09: R298, R299; 10: R338) -/

/-- Does a phase of a collective hold the package's beacons (08: R268)? -/
def State.collHolds (s : State) : Bool :=
  s.fab.colls.any (fun c => decide (1 ≤ c.phase) && ((c.phases[c.phase - 1]?).map (fun (p : Nat × Nat × Nat) => p.2.2 != 0xFF)).getD false)

/-- A re-point asked for: the banks that move stop sending DATA (10: R338). -/
def State.askRepoint (s : State) (b cfg : Nat) (w : Option Waiter) : State :=
  let moved := (List.range 16).filter (fun q => switchOut (s.beacon b).fibres q != switchOut (s.switchCfg b cfg) q)
  let s := s.onBeacon b (fun e => { e with repointTo := some cfg, repointStep := 0, repointWait := w, quiesce := moved })
  moved.foldl (fun acc q =>
    let e := acc.tx b q
    if e.st == .up then acc.setTx b q { e with st := .quiescing } else acc) s

/-- Released: the moved banks' sessions end. -/
def State.releaseRepoint (s : State) (b : Nat) : State :=
  let moved := (s.beacon b).quiesce
  let s := s.onBeacon b (fun e => { e with repointStep := 1 })
  (moved.foldl (fun acc q => acc.txDown b q 6) s).goOn

/-- HALL_REPOINT_RELEASE: the hold has lasted HALL_REPLAY_TIMEOUT. -/
def execHallRepointRelease (beacon : Nat) (s : State) : Out :=
  let e := s.beacon beacon
  .next (if s.beaconActs beacon && e.repointTo.isSome && e.repointStep == 0 then s.releaseRepoint beacon else s)

/-- The far ends of the moved banks are up for bring-up again: each sender opens a new session. -/
def State.repointed (s : State) (b : Nat) : State :=
  let e := s.beacon b
  let moved := e.quiesce
  let s := s.onBeacon b (fun e => { e with repointTo := none, repointStep := 0, repointWait := none, quiesce := [] })
  let s := s.bumpBeacon b 2
  let s := moved.foldl (fun acc q => acc.bringTx b q) s
  let s := match e.repointWait with
    | some w => s.answerCmd w 0x0049 0 []
    | none => s
  s.goOn

/-- REPOINT: the steps of R299 in order; step 1 waits until every flit of the moved banks is acknowledged (10: R338). -/
def execRepoint (beacon step : Nat) (s : State) : Out :=
  let b := beacon
  let e := s.beacon b
  .next (if !s.beaconActs b then s
  else
    match e.repointTo with
    | none => s
    | some cfg =>
      if step ≠ e.repointStep + 1 then s
      else
        match step with
        | 1 => if e.quiesce.all (fun q => (s.tx b q).unacked.isEmpty) then s.releaseRepoint b else s
        | 2 => s.onBeacon b (fun e => { e with repointStep := 2, config := cfg, fibres := s.switchCfg b cfg })
        | 3 => s.onBeacon b (fun e => { e with repointStep := 3 })
        | 4 => s.repointed b
        | _ => s)

/-- BEACON_REPOINT (13: R417). -/
def beaconRepointRun (w : Waiter) (q : List Byte) (s : State) : Ans :=
  let b := field q 0 1
  let c := field q 1 1
  if 7 < b ∨ (s.die (16 + b)).life = .retired then badAns 0 s
  else if 15 < c then badAns 1 s
  else if !s.beaconActs b || (s.beacon b).repointTo.isSome || s.collHolds then errAns 2 s
  else .runs (s.askRepoint b c (some w))

def execBeaconRepoint (mb seq : Nat) (body : List Byte) (s : State) : Out :=
  s.runHelm 0x0049 true (some [1, 1, 2]) mb seq body beaconRepointRun

/-! ### BEACON_LANE (13: R417; 09: R301, R303) -/

/-- The checks of both actions. -/
def State.laneStop (s : State) (q : List Byte) : Option Ans :=
  if 7 < field q 0 1 ∨ (s.die (16 + field q 0 1)).life = .retired then some (badAns 0 s)
  else if 15 < field q 1 1 then some (badAns 1 s)
  else if 1 < field q 2 1 then some (badAns 2 s)
  else if 17 < field q 3 1 then some (badAns 3 s)
  else if !s.beaconActs (field q 0 1) then some (errAns 2 s)
  else none

/-- The line a command names. -/
def laneOf (q : List Byte) : Nat := lineKey (field q 2 1) (field q 1 1) (field q 3 1)

/-- LANES (1), res (3). -/
def State.lanesAns (s : State) (b k : Nat) : Ans := .done 0 (leBytes 1 (s.linesIn b (linePort k) (lineSide k) .active).length ++ leBytes 3 0) s

/-- RETURN: a retired line takes a sight, at once where one may start, and rejoins as a spare; its counts clear. -/
def beaconLaneReturnRun (w : Waiter) (q : List Byte) (s : State) : Ans :=
  (s.laneStop q).getD (
    let b := field q 0 1
    let k := laneOf q
    if (s.beacon b).laneWaits.any (fun (x : Nat × Waiter) => x.1 == k) then errAns 2 s
    else if (s.lane b k).st != .retired && !(s.ring b k).retired then s.lanesAns b k
    else
      let s := s.onRing b k (fun r => { r with st := .parked, retired := false, attempts := 0, mislocks := [] })
      let s := s.onLane b k (fun l => { l with st := .off, fails := [], degraded := false })
      let s := (s.onBeacon b (fun e => { e with laneWaits := e.laneWaits ++ [(k, w)] })).setFeeds b
      .runs (if s.sightable b k && decide ((s.beacon b).sights.length < s.setting 0x00030003) then s.startSight b k else s))

/-- RETIRE: refused where fewer than 8 lines would be left. -/
def beaconLaneRetireRun (_w : Waiter) (q : List Byte) (s : State) : Ans :=
  (s.laneStop q).getD (
    let b := field q 0 1
    let k := laneOf q
    let left := ((List.range 18).filter (fun i => !s.lineGone b (lineKey (lineSide k) (linePort k) i) && lineKey (lineSide k) (linePort k) i != k)).length
    if (s.lane b k).st == .off && (s.beacon b).laneWaits.any (fun (x : Nat × Waiter) => x.1 == k) then errAns 2 s
    else if left < 8 && !s.lineGone b k then badAns 3 s
    else
      let s := s.retireLine b k
      s.lanesAns b k)

def execBeaconLaneReturn (mb seq : Nat) (body : List Byte) (s : State) : Out :=
  s.runMode 0x004A true (some [1, 1, 1, 1, 1, 3]) 4 0 1 mb seq body beaconLaneReturnRun

def execBeaconLaneRetire (mb seq : Nat) (body : List Byte) (s : State) : Out :=
  s.runMode 0x004A true (some [1, 1, 1, 1, 1, 3]) 4 1 1 mb seq body beaconLaneRetireRun

/-! ### Laser modules (09: R286, R287) -/

/-- LASER_ALARM with the module's flag bytes. -/
def State.laserAlarm (s : State) (b : Nat) : State :=
  (s.bumpBeacon b 3).post 0x004C (unitId (16 + b) 0) (leBytes 1 b ++ leBytes 8 (s.beacon b).laserFlags)

/-- What a reading of the module's flags finds: transmit lines lost, and feed fibres dark. A module that answers has recovered. -/
def State.readLaser (s : State) (b flags : Nat) (lost dark : List Nat) : State :=
  let e := s.beacon b
  let newDark := dark.filter (fun q => !e.darkFeeds.contains q)
  let s := s.onBeacon b (fun e => { e with laserFlags := flags, laserFault := false, darkFeeds := dark })
  let s := if lost.isEmpty && newDark.isEmpty then s else s.laserAlarm b
  let s := lost.foldl (fun acc k => if lineSide k = 0 ∧ (acc.lane b k).st ≠ .retired then acc.laneFailed b k else acc) s
  newDark.foldl (fun acc q => acc.dirDown b q 0 1) s

/-- CMIS_FLAG_POLL, every 10 ms. -/
def execCmisFlagPoll (beacon flags : Nat) (lost dark : List Nat) (s : State) : Out :=
  .next (if s.beaconOn beacon then s.readLaser beacon flags lost dark else s)

/-- LSM_INTERRUPT: the flags are read at once. -/
def execLsmInterrupt (beacon flags : Nat) (lost dark : List Nat) (s : State) : Out :=
  .next (if s.beaconOn beacon then s.readLaser beacon flags lost dark else s)

/-- LASER_MODULE_TIMEOUT: the module has not answered for 100 ms, or has reached ModuleFault; every transmit direction of the beacon goes down. -/
def execLaserModuleTimeout (beacon : Nat) (s : State) : Out :=
  .next (if s.beaconOn beacon && !(s.beacon beacon).laserFault then
    let s := (s.onBeacon beacon (fun e => { e with laserFault := true })).laserAlarm beacon
    (List.range 16).foldl (fun acc q => acc.dirDown beacon q 0 1) s
  else s)

end Sys2Proof.Machine
end

