-- ==== Sys2Proof/Machine/Collectives.lean ====
section
/-!
DEFINITION. Collectives (08: R266 to R270; 02: R51; 16: R481).

Machine/CollOps.lean holds the exchanges of the phases.
-/
namespace Sys2Proof.Machine

open Sys2Proof

/-! ### The descriptor (08: R267) -/

def collOp (d : List Byte) : Nat := field d 8 1
def collDtype (d : List Byte) : Nat := field d 9 1
def collRedop (d : List Byte) : Nat := field d 0xA 1
def collPhases (d : List Byte) : List (Nat × Nat × Nat) :=
  (List.range (field d 0xB 1)).map (fun i => (field d (0x30 + 2 * i) 1 % 16, bits 5 4 (field d (0x30 + 2 * i) 1), field d (0x31 + 2 * i) 1))
def collDims (d : List Byte) : List Nat := [field d 0x28 2, field d 0x2A 2, field d 0x2C 2]

/-- Do the phases along one dimension compute the operation over it? -/
def phasesFit (op : Nat) (kinds : List Nat) : Bool :=
  match op with
  | 1 => kinds == [1, 2] || kinds == [3, 4] || kinds == [5]
  | 2 => kinds == [4]
  | 3 => kinds == [3]
  | 4 => kinds == [1, 2] || kinds == [3, 4]
  | 5 => kinds == [1]
  | 6 => kinds == [2]
  | _ => kinds == [5]

/-- Do they compute it over every dimension that has more than one member? -/
def collPhasesOk (d : List Byte) : Bool :=
  let ps := collPhases d
  ps.all (fun p => decide (1 ≤ p.1) && decide (p.1 ≤ 5) && decide (p.2.1 ≤ 2) && (decide (p.2.2 ≤ 15) || p.2.2 == 0xFF)) &&
    (List.range 3).all (fun i =>
      let kinds := (ps.filter (fun p => p.2.1 == i)).map (fun p => p.1)
      (kinds.isEmpty && (collDims d).getD i 0 == 1) || phasesFit (collOp d) kinds)

/-- The first field of a descriptor that breaks a rule, for `n` members. -/
def State.collBad (s : State) (d : List Byte) (n : Nat) : Option Nat :=
  let op := collOp d
  let elem := collElem (collDtype d)
  let unit := if op = 5 ∨ op = 7 then 256 * n else 256
  let dims := collDims d
  if op < 1 ∨ 7 < op then some 8
  else if collReduces op && elem.isNone then some 9
  else if collReduces op && (decide (5 < collRedop d) || (decide (3 ≤ collRedop d) && !((elem.map (·.2)).getD false))) then some 0xA
  else if field d 0xB 1 < 1 ∨ 8 < field d 0xB 1 then some 0xB
  else if (op = 2 ∨ op = 3) ∧ n ≤ field d 0xE 2 then some 0xE
  else if op ≠ 1 ∧ s.isLocal (field d 0x10 8) = false then some 0x10
  else if op ≠ 1 ∧ s.isLocal (field d 0x18 8) = false then some 0x18
  else if field d 0x20 8 % unit ≠ 0 ∨ 2 ^ 42 < field d 0x20 8 then some 0x20
  else if dims.foldl (· * ·) 1 ≠ n then some 0x28
  else if !collPhasesOk d then some 0x30
  else none

/-! ### Ends -/

/-- A collective ends: its record is posted, and after an error its DST is undefined and the other members are told (08: R270). -/
def State.endColl (s : State) (c : Coll) (status : Nat) : State :=
  let s := { s with fab := { s.fab with
    colls := s.fab.colls.filter (fun x => x.id ≠ c.id)
    outstanding := s.fab.outstanding.filter (fun r => !(r.unit = collUnit && r.tag / 16 = c.slot)) } }
  let s := if status = 0 then s else s.undefineColl c
  let s := if status = 0 then s
    else s.sendCtls ((s.collNodes c).filter (fun x => x ≠ s.ownNode)) 10 c.hallTag 0 (leBytes 8 c.id ++ leBytes 1 status)
  s.postCompletion (8 * c.partition + c.mailbox) 0x0002 collUnit (leBytes 8 c.id ++ leBytes 1 status)

/-! ### Running -/

/-- A phase begins: its switch configuration is asked of every beacon that can take it (08: R268). -/
def State.phaseBegins (s : State) (c : Coll) : State :=
  match c.phases[c.phase - 1]? with
  | none => s
  | some p =>
    if p.2.2 = 0xFF then s
    else (List.range 8).foldl (fun acc b =>
      if acc.beaconActs b && (acc.beacon b).repointTo.isNone && ((acc.beacon b).config != p.2.2 || (acc.beacon b).fibres != acc.switchCfg b p.2.2) then acc.askRepoint b p.2.2 none else acc) s

/-- DST written with ordinary stores, block by block; blocks of a mirrored region wait for the twin (08: R269, R272). -/
def State.storeDst (s : State) (c : Coll) (data : List Byte) : State :=
  let l := localOf c.dst
  let first := l / 256
  (List.range (if data.isEmpty then 0 else (l + data.length - 1) / 256 - first + 1)).foldl (fun acc i =>
    let lo := max l (256 * (first + i))
    let hi := min (l + data.length) (256 * (first + i) + 256)
    let acc := acc.ctlStore lo (slice data (lo - l) (hi - lo))
    let tag := c.hallTag
    if acc.mirrors lo (hi - lo) then
      acc.mirrorOut lo (maskOf lo (hi - lo)) (inHalf lo (hi - lo))
        { plinth := homePlinth lo, unit := collUnit, tag := 16 * c.slot, reqId := 0, partition := c.partition, hallTag := c.hallTag
          kind := .wr, addr := c.dst + (lo - l), len := hi - lo, aheadOf := acc.entryOf tag }
    else acc) s

/-- The collective's stores that a twin has not acknowledged yet, and a failed one's status. -/
def State.collStores (s : State) (c : Coll) : Bool := s.fab.outstanding.any (fun r => r.unit == collUnit && r.tag == 16 * c.slot)
def State.collError (s : State) (c : Coll) : Option Nat :=
  (s.hubOut.find? (fun p => p.typ == 6 && p.dst == collUnit && p.tag == 16 * c.slot && p.specific != 0)).map (·.specific)

/-- The completions of a collective's stores taken up. -/
def State.takeCollDone (s : State) (c : Coll) : State :=
  s.dropPkts (fun p => p.typ == 6 && p.dst == collUnit && p.tag == 16 * c.slot)

/-- The last phase: the result is stored once every contribution is here, and the record posted once every store has completed. -/
def State.finishColl (s : State) (c : Coll) : State :=
  let n := (s.collNodes c).length
  let me := s.collMe c
  if c.stored then
    if s.collStores c then s else (s.takeCollDone c).endColl c ((s.collError c).getD 0)
  else
    let len := c.outLen n me
    if len ≠ 0 ∧ s.windowOk c.partition c.dst len accWrite = false then s.endColl c 1
    else if s.inFixed c.dst len then s.endColl c 8
    else if s.notIssued (localOf c.dst) len then s.endColl c 0xA
    else if s.runBusy (localOf c.dst) len then s
    else
      let s := (s.storeDst c ((c.result n me).take len)).putColl { c with stored := true }
      if s.collStores c then s else s.endColl c 0

/-! ### COLLECTIVE_START (13) -/

/-- COLLECTIVE_START. -/
def collectiveStartRun (w : Waiter) (q : List Byte) (s : State) : Ans :=
  let d := q.drop 4
  let tag := field d 0xC 2
  let t := s.tagSt tag
  match s.partOfTag tag with
  | none => badAns 0x10 s
  | some pt =>
    let mb := 8 * pt + field q 0 1
    let slots := s.fab.colls.map (·.slot)
    if !mayName w pt then errAns 6 s
    else if !t.member then badAns 0x10 s
    else if 7 < field q 0 1 then badAns 0 s
    else if t.asking then errAns 2 s
    else
      match s.collBad d t.nodes.length with
      | some off => badAns (4 + off) s
      | none =>
        if (s.coll? (field d 0 8)).isSome then badAns 4 s
        else if 4 ≤ s.fab.colls.length || 256 ≤ (s.mbox mb).reserved then errAns 2 s
        else
          let c : Coll :=
            { id := field d 0 8, slot := ((List.range 4).find? (fun i => !slots.contains i)).getD 0, op := collOp d, dtype := collDtype d
              redop := collRedop d, hallTag := tag, root := field d 0xE 2, src := field d 0x10 8, dst := field d 0x18 8
              count := field d 0x20 8, phases := collPhases d, dims := collDims d, partition := pt, mailbox := field q 0 1 }
          let s := s.setMbox mb { s.mbox mb with promised := (s.mbox mb).promised + 1 }
          okAns { s with fab := { s.fab with colls := s.fab.colls ++ [c] } }

def execCollectiveStart (mb seq : Nat) (body : List Byte) (s : State) : Out :=
  s.runHelm 0x0048 false (some [1, 3, 64]) mb seq body collectiveStartRun

/-! ### Events of the engine -/

/-- COLL_DATA: a member's next packet. Data of a collective that has not started here waits at its hub. -/
def execCollData (collId member : Nat) (data : List Byte) (s : State) : Out :=
  .next (match s.coll? collId with
  | none => s
  | some c =>
    let node := (s.collNodes c).getD member 0
    let s := s.takeArrived (fun p => p.ftype == 8 && p.reqId == collId % 2 ^ 32 && p.srcNode == node && p.payload == data)
    if member = s.collMe c ∨ (s.collNodes c).length ≤ member then s
    else (s.putColl { c with inq := Tbl.upd c.inq member [] (fun q => q ++ [data]) }).drive c.id)

/-- The next phase of a collective begins. -/
def State.beginPhase (s : State) (c : Coll) : State := ((s.putColl c).phaseBegins c).drive c.id

/-- COLLECTIVE_PHASE_DONE. Phase 0 takes SRC in; the end of any other lets the next begin, the last one's the result be stored. A phase with exchanges left
goes on, and is not over. A status other than OK ends the collective (08: R270). -/
def execCollectivePhaseDone (collId : Nat) (status : Nat) (s : State) : Out :=
  .next (match s.coll? collId with
  | none => s
  | some c =>
    let n := (s.collNodes c).length
    let me := s.collMe c
    if status ≠ 0 then (s.takeCtl c.hallTag 10 none).endColl c status
    else if c.phase = 0 then
      let len := if c.op = 1 then 0 else c.count
      if len ≠ 0 ∧ s.windowOk c.partition c.src len accRead = false then s.endColl c 1
      else if s.runBusy (localOf c.src) len then s
      else
        let r := s.readRun (localOf c.src) len
        if r.1 ≠ 0 then r.2.2.endColl c r.1 else r.2.2.beginPhase { c with items := c.ownItems n me r.2.1, phase := 1 }
    else if c.step < c.steps then s.drive c.id
    else if c.phase < c.phases.length then s.beginPhase (c.nextPhase n me)
    else s.finishColl c)

/-- COLL_TIMEOUT_EXPIRY. -/
def execCollTimeoutExpiry (collId : Nat) (s : State) : Out :=
  .next (match s.coll? collId with
  | none => s
  | some c => s.endColl c 3)

end Sys2Proof.Machine
end

