-- ==== Sys2Proof/Machine/Power.lean ====
section
/-!
DEFINITION. Temperature and power: sensors, the thermal factor, rate trips, the voltage loop, budgets, telemetry of the rails, the
shutdown latch, and the gates of power domains (15; 11: R368; 20: R560; 21: R578, R586).
-/
namespace Sys2Proof.Machine

open Sys2Proof

/-! ### Settings (15: R471) -/

/-- THROTTLE_START in quarter degrees. -/
def State.throttleStart (s : State) : Int := ((4 * s.setting 0x00050001 : Nat) : Int)

/-- Where fast sampling begins (15: R450), where a die has cooled (15: R453), and the limit of a step up (15: R456). -/
def State.fastStart (s : State) : Int := s.throttleStart - 32
def State.coolLimit (s : State) : Int := s.throttleStart - 8
def State.warmLimit (s : State) : Int := s.throttleStart - 20

/-- g of 15: R452; THROTTLE_SLOPE counts 0.5 percent per degree. -/
def State.slopeFactor (s : State) (tj : Int) : Nat :=
  if tj ≤ s.throttleStart then factorOne
  else max factorFloor (factorOne - 16 * s.setting 0x00050002 * (tj - s.throttleStart).toNat)

/-- Are the sensors sampled: firmware runs from step 8 on, and after a failure stop that left Exsar running? -/
def State.watches (s : State) : Bool := s.detects || (s.boot.dev == .failureStop && !s.boot.exsarGone)

/-! ### The thermal factor (15: R452) -/

/-- F_thermal of a compute die from the latest g of its die, plinth and beacons, and its trip. -/
def State.thermalOf (s : State) (d : Nat) : Nat :=
  let p := d / 3
  let least := min (s.die d).g (min (s.die (12 + p)).g (min (s.die (16 + 2 * p)).g (s.die (17 + 2 * p)).g))
  if (s.die d).tripped then min least factorFloor else least

/-- F_thermal of a die brought up to date: of a plinth or beacon its g (15: R472). -/
def State.setThermal (s : State) (d : Nat) : State :=
  let f := if d < 12 then s.thermalOf d else (s.die d).g
  let x := s.die d
  s.setDie d { x with fThermal := f, thermLow := x.thermLow || decide (f < factorOne) }

/-- F_thermal of a die and of every compute die that its g reaches. -/
def State.spreadThermal (s : State) (d : Nat) : State :=
  if d < 12 then s.setThermal d
  else
    let p := plinthOf d
    [3 * p, 3 * p + 1, 3 * p + 2].foldl (fun acc c => acc.setThermal c) (s.setThermal d)

/-- A factor in unsigned 1.7 (15: R472). -/
def factorWord (f : Nat) : Nat := f / 100

/-- A temperature as the 12-bit field of 15: R472 and 21: R578. -/
def tempWord (t : Int) : Nat := ofSigned 12 t

/-- THROTTLE_ENTER when a factor first goes below 1 (15: R453). -/
def State.throttleEnter (s : State) (d : Nat) : State :=
  let x := s.die d
  let f := if x.tripped then factorFloor else x.g
  if x.throttling || factorOne ≤ f then s
  else
    let s := s.setDie d { x with throttling := true, coolFor := none }
    s.post 0x0038 (dieUnit d) (leBytes 1 d ++ leBytes 2 (ofSigned 16 x.tj) ++ leBytes 1 (factorWord f))

/-- THROTTLE_EXIT after 100 ms at or below THROTTLE_START − 2 °C (15: R453); `n` periods of 50 µs have passed. -/
def State.throttleExit (s : State) (d n : Nat) : State :=
  let x := s.die d
  if !x.throttling then s
  else if x.tripped || decide (s.coolLimit < x.tj) then s.setDie d { x with coolFor := none }
  else
    let c := (x.coolFor.map (fun k => k + n)).getD 0
    if c < 2000 then s.setDie d { x with coolFor := some c }
    else
      (s.setDie d { x with throttling := false, coolFor := none }).post 0x0039 (dieUnit d) (leBytes 1 d ++ leBytes 2 (ofSigned 16 x.tj))

/-! ### Sensors (15: R448 to R450) -/

/-- Sensors of a die. -/
def sensorCount (d : Nat) : Nat := if d < 12 then 96 else if d < 16 then 48 else 8

/-- Twice the median of a die's readings. -/
def median2 (xs : List Int) : Int :=
  let ys := sortBy (fun a b => decide (a ≤ b)) xs
  let n := ys.length
  if n = 0 then 0 else ys.getD (n / 2) 0 + ys.getD ((n - 1) / 2) 0

/-- Does a reading lie more than 20 °C from the median? -/
def farOff (m2 v : Int) : Bool := decide (160 < 2 * v - m2) || decide (160 < m2 - 2 * v)

/-- One sensor's reading taken: out of service when it leaves −40 °C to 150 °C, or on its tenth sample far from the median. -/
def State.readSensor (s : State) (d i : Nat) (v m2 : Int) : State :=
  let x := s.die d
  if x.excluded.contains i then s.setDie d { x with temps := Tbl.set x.temps i v }
  else
    let n := if farOff m2 v then Tbl.getD x.offMedian i 0 + 1 else 0
    let out := decide (v < -160) || decide (600 < v) || decide (10 ≤ n)
    let x := { x with temps := Tbl.set x.temps i v, offMedian := Tbl.set x.offMedian i n }
    if out then
      (s.setDie d { x with excluded := x.excluded ++ [i] }).logOnly 0x0110 (dieUnit d) (leBytes 1 d ++ leBytes 1 i)
    else s.setDie d x

/-- Tj over the sensors in service; a die without one keeps its last (15: R448). -/
def Die.hottest (x : Die) (readings : List (Nat × Int)) : Int :=
  let live := (readings.filter (fun (r : Nat × Int) => !x.excluded.contains r.1)).map (fun (r : Nat × Int) => r.2)
  match live with
  | [] => x.tj
  | v :: vs => vs.foldl max v

/-- The sampling rate that follows from a sample: 20 kHz from THROTTLE_START − 8 °C, back after 10 ms below it (15: R450). -/
def State.sampling (s : State) (d : Nat) : State :=
  let x := s.die d
  if s.fastStart ≤ x.tj ∨ x.tripped then s.setDie d { x with fast := true, fastBelow := none }
  else if !x.fast then s
  else
    let c := (x.fastBelow.map (fun k => k + 1)).getD 0
    s.setDie d (if c < 200 then { x with fastBelow := some c } else { x with fast := false, fastBelow := none })

/-- Highest Tj of all dies in use. -/
def State.highestTj (s : State) : Int :=
  (List.range 24).foldl (fun m d => if (s.die d).life == .up then max m (s.die d).tj else m) (s.die 12).tj

/-- Duty of the cooling outputs in 0.5 percent (15: R469). -/
def State.coolingDuty (s : State) : Nat :=
  let t := s.highestTj
  let lo : Int := ((4 * s.setting 0x00050006 : Nat) : Int)
  let least := s.setting 0x00050007
  if s.throttleStart ≤ t then 200
  else if t ≤ lo then least
  else least + (200 - least) * (t - lo).toNat / (s.throttleStart - lo).toNat

/-- The cooling outputs: held through a changeover, full in failure stop (15: R469). -/
def State.setCooling (s : State) : State :=
  if s.boot.gap then s
  else
    let duty := if s.boot.dev == .failureStop then 200 else s.coolingDuty
    { s with pins := { s.pins with coolDuty := duty } }

/-- What PD0's range lets through at its next sample: a deferred PENDING and converted casts (18: R530, R533). -/
def State.paidInRange (s : State) : State :=
  let s := s.payPending
  if s.norRange then { s with nor := { s.nor with castOwed := none } } else s

/-- SENSOR_SAMPLE (15: R448 to R453, R469): `samples` in quarter degrees, sensor by sensor. -/
def execSensorSample (die : Nat) (samples : List Int) (s : State) : Out :=
  .next (if !s.watches || (s.die die).life != .up then s
  else
    let readings : List (Nat × Int) := (List.range (min (sensorCount die) samples.length)).map (fun i => (i, samples.getD i 0))
    let n := if (s.die die).fast then 1 else 20
    let inService := readings.filter (fun (r : Nat × Int) => !(s.die die).excluded.contains r.1)
    let m2 := median2 (inService.map (fun (r : Nat × Int) => r.2))
    let s := readings.foldl (fun acc (r : Nat × Int) => acc.readSensor die r.1 r.2 m2) s
    let x := s.die die
    let tj := x.hottest readings
    let g := if sensorCount die < 4 * x.excluded.length then factorFloor else s.slopeFactor tj
    let s := s.setDie die { x with tj := tj, g := g, warm := x.warm || decide (s.warmLimit < tj) }
    let s := (s.sampling die).spreadThermal die
    let s := (s.throttleExit die n).throttleEnter die
    let s := if 16 ≤ die then s.takeBand (die - 16) else s
    let s := if die = 12 then s.paidInRange else s
    s.setCooling)

/-! ### The rate monitor (15: R451, R454, R455) -/

/-- RATE_THRESHOLD in quarter degrees per millisecond. -/
def State.rateThreshold (s : State) : Int := ((2 * s.setting 0x00050003 : Nat) : Int)

/-- The rise over the last 250 µs in quarter degrees per millisecond. -/
def riseRate (now before : Int) : Int := 4 * (now - before)

/-- The feed-forward notice to a plinth's beacons (09: R291). -/
def State.noticeRise (s : State) (p rate : Nat) : State :=
  [16 + 2 * p, 17 + 2 * p].foldl (fun acc b =>
    if (acc.die b).life == .up then
      acc.toUnit { typ := 9, tc := 0, partition := 0, src := unitId (12 + p) 1, dst := unitId b 0, specific := 0x21, payload := leBytes 2 rate }
    else acc) s

/-- A trip (15: R454). -/
def State.trip (s : State) (d : Nat) (rate : Nat) : State :=
  let x := s.die d
  let s := s.setDie d { x with tripped := true, fast := true, fastBelow := none, coolFor := none }
  let s := (s.setThermal d).noticeRise (plinthOf d) rate
  let s := s.post 0x003A (dieUnit d) (leBytes 1 d ++ leBytes 2 rate)
  (s.bumpDie d 2 1).throttleEnter d

/-- RATE_MONITOR_EVALUATION of a compute die, with its own reading of Tj. -/
def execRateMonitorEvaluation (die : Nat) (tj : Int) (s : State) : Out :=
  .next (if 12 ≤ die || !s.detects || (s.die die).life != .up then s
  else
    let x := s.die die
    let s := s.setDie die { x with rise := (tj :: x.rise).take 5 }
    match x.rise[4]? with
    | none => s
    | some before =>
      let rate := riseRate tj before
      if s.rateThreshold ≤ rate then (if x.tripped then s else s.trip die rate.toNat)
      else if x.tripped then
        let y := s.die die
        (s.setDie die { y with tripped := false }).setThermal die
      else s)

/-! ### The voltage loop (15: R456) -/

/-- The change of VDD_CD that the last 10 ms ask for, in mV. -/
def State.voltageChange (s : State) (d : Nat) : Int :=
  let x := s.die d
  let v := (Tbl.getD s.rails d {}).setpoint
  if x.thermLow || decide (500 < x.powLow) then -((min 10 (v - 550) : Nat) : Int)
  else if v < s.setting 0x00050004 && !x.warm && !x.heavy then ((min 5 (s.setting 0x00050004 - v) : Nat) : Int)
  else 0

/-- What the loop watches, begun afresh. -/
def State.freshLoop (s : State) (d : Nat) : State :=
  let x := s.die d
  s.setDie d { x with thermLow := false, powLow := 0, warm := false, heavy := false }

/-- VOLTAGE_LOOP_STEP; set-points hold during a changeover (15: R469, R474). -/
def execVoltageLoopStep (die : Nat) (s : State) : Out :=
  .next (if 12 ≤ die || !s.isReady || s.boot.gap || (s.die die).life != .up then s
  else
    let c := s.voltageChange die
    let s := { s with rails := Tbl.upd s.rails die {} (fun r => { r with setpoint := ((r.setpoint : Int) + c).toNat }) }
    let s := if c < 0 then s.bumpDie die 3 1 else s
    s.freshLoop die)

/-! ### Budgets (15: R462 to R466; 20: R560) -/

/-- Sum of what the demands take of a level. -/
def levelSum (wants : List Nat) (level : Nat) : Nat := (wants.map (fun w => min w level)).sum

/-- The largest whole level, no higher than the largest demand, whose sum stays within `avail` hundredths of a watt; 0 where none does. -/
def waterLevel (wants : List Nat) (avail : Nat) : Nat :=
  ((List.range (wants.foldl max 0 + 1)).reverse.find? (fun l => decide (100 * levelSum wants l ≤ avail))).getD 0

/-- `avail` of 15: R463 in hundredths of a watt. -/
def availOf (budget others : Nat) : Nat := 98 * budget - 100 * others

/-- BUDGET_EXCHANGE: each report is die, measured power, demand, P_floor; dies from 12 on (HBM stacks as 24 to 55) take no budget.
Shedding stops where the budget is met (15: R474). -/
def execBudgetExchange (reports : List (Nat × Nat × Nat × Nat)) (s : State) : Out :=
  .next (if !s.detects || s.boot.gap then s
  else
    let heard := reports.filter (fun (r : Nat × Nat × Nat × Nat) => decide (24 ≤ r.1) || (s.die r.1).life == .up)
    let cds := heard.filter (fun (r : Nat × Nat × Nat × Nat) => decide (r.1 < 12))
    let others := ((heard.filter (fun (r : Nat × Nat × Nat × Nat) => decide (12 ≤ r.1))).map (fun (r : Nat × Nat × Nat × Nat) => r.2.1)).sum
    let level := waterLevel (cds.map (fun (r : Nat × Nat × Nat × Nat) => r.2.2.1)) (availOf s.power.budget others)
    heard.foldl (fun acc (r : Nat × Nat × Nat × Nat) =>
      if 24 ≤ r.1 then acc
      else
        let x := acc.die r.1
        if 12 ≤ r.1 then acc.setDie r.1 { x with meas := r.2.1 }
        else acc.setDie r.1 { x with
          meas := r.2.1, want := r.2.2.1, floorW := r.2.2.2, budget := some (max (min r.2.2.1 level) r.2.2.2), starved := false })
      { s with power := { s.power with shedding := s.power.shedding && decide (s.power.budget < s.power.measured) } })

/-- The budget a compute die applies, in mW (20: R560). -/
def State.budgetForce (s : State) (d : Nat) : Option Nat :=
  (s.die d).budget.map (fun b => min (1000 * b) (min 440000 (629 * (Tbl.getD s.rails d {}).setpoint)))

/-- F_power after an estimate of P mW under a budget of B mW (15: R464). -/
def powerFactor (f p b : Nat) : Nat :=
  if b < p then max factorFloor (f * b / p)
  else if 100 * p < 95 * b then min factorOne (f + 256)
  else f

/-- POWER_ESTIMATE of a compute die, in watts. Without a budget, or with IOUT over its limit, F_power stays at the floor. -/
def execPowerEstimate (die watts : Nat) (s : State) : Out :=
  .next (if 12 ≤ die || !s.detects || (s.die die).life != .up then s
  else
    let x := s.die die
    let f := if x.starved || x.currentHold then factorFloor
      else ((s.budgetForce die).map (powerFactor x.fPower (1000 * watts))).getD x.fPower
    let heavy := ((s.budgetForce die).map (fun b => decide (90 * b < 100000 * watts))).getD false
    s.setDie die { x with
      pEst := watts, fPower := f, heavy := x.heavy || heavy, powLow := if f < factorOne then x.powLow + 1 else x.powLow })

/-- BUDGET_TIMEOUT (15: R465). -/
def execBudgetTimeout (die : Nat) (s : State) : Out :=
  .next (if 12 ≤ die || !s.detects || (s.die die).life != .up then s
  else s.setDie die { s.die die with starved := true, fPower := factorFloor })

/-! ### Rails (15: R462, R469; 20: R560; 21: R586) -/

/-- MEASURED_W from the rails' last readings. -/
def State.measuredWatts (s : State) : Nat := ((List.range 20).map (fun r => (Tbl.getD s.rails r {}).pout)).sum / 1000

/-- IOUT above 630 A holds a die's F_power at the floor until a reading below 600 A. -/
def State.watchCurrent (s : State) (d iout : Nat) : State :=
  if (s.die d).life != .up then s
  else if 630000 < iout then s.setDie d { s.die d with currentHold := true, fPower := factorFloor }
  else if iout < 600000 then s.setDie d { s.die d with currentHold := false }
  else s

/-- RAIL_TELEMETRY_READ of a rail by Exsar: VOUT in mV, IOUT in mA, POUT in mW, STATUS_WORD; none where the regulator did not answer. -/
def execRailTelemetryRead (rail : Nat) (reading : Option (Nat × Nat × Nat × Nat)) (s : State) : Out :=
  .next (if 20 ≤ rail || !s.watches || s.boot.gap then s
  else
    let old := Tbl.getD s.rails rail {}
    match reading with
    | none => { s with rails := Tbl.set s.rails rail { old with status := old.status % 2 ^ 31 + 2 ^ 31 } }
    | some (v, i, p, st) =>
      let s := { s with rails := Tbl.set s.rails rail { old with vout := v, iout := i, pout := p, status := st % 65536 } }
      let s := { s with power := { s.power with measured := s.measuredWatts } }
      if rail < 12 then s.watchCurrent rail i else s)

/-- SMBALERT: REGULATOR_STATUS is logged, nothing more. -/
def execSmbalert (rail status : Nat) (s : State) : Out :=
  .next (if !s.watches || s.boot.gap then s
  else
    let s := { s with rails := Tbl.upd s.rails rail {} (fun r => { r with status := r.status / 2 ^ 16 * 2 ^ 16 + status % 65536 }) }
    s.logOnly 0x0111 exsarUnit (leBytes 1 rail ++ leBytes 2 status))

/-! ### Shutdown (15: R457 to R459) -/

/-- SHUTDOWN_TRIP: a comparator at 115 °C, wherever the dies have power; while RESET_N is low there is nothing to stop, and the start that follows
stops with THERMAL (14: R441; 15: R459). -/
def execShutdownTrip (die : Nat) (tj : Int) (exsarRuns : Bool) (s : State) : Out :=
  .next (if tj < 460 || s.pins.shutdownLatch || !(s.pins.aux && s.pins.mainRails) then s
  else
    let runs := exsarRuns && !s.boot.exsarGone && s.pins.resetN
    let s := { s with pins := { s.pins with
      shutdownLatch := true, thermtripN := false, coolDuty := 200, exsarRails := s.pins.exsarRails && !runs } }
    let s := if runs && decide (5 ≤ s.boot.phase) then s.post 0x003B (dieUnit die) (leBytes 1 die ++ leBytes 2 (ofSigned 16 tj)) else s
    if s.isReady then s.failStop 0x17 runs
    else if s.boot.dev == .starting && s.pins.resetN then s.startStop s.boot.phase 9 []
    else s)

/-! ### Power domains (15: R467, R468; 11: R368; 04: R142, R143) -/

/-- Stages of a domain. -/
def domainStages (die dom : Nat) : List Nat := ((List.range 30).map (fun u => 30 * die + u)).filter (fun k => stDomain k == dom)

/-- May a domain be gated at all: of a compute die in service, not yet gated or on the way (15: R474)? -/
def State.gateable (s : State) (die dom : Nat) : Bool :=
  decide (die < 12) && decide (dom < 12) && (s.die die).life == .up && !bit dom (s.die die).gated && !s.power.gating.contains (die, dom)

/-- The pipelines with a stage in a domain. -/
def State.domainPipes (s : State) (die dom : Nat) : List (Nat × Pipe) := s.pipes.filter (fun (p : Nat × Pipe) => p.2.inDomain die dom)

/-- Is the pipeline IDLE, or was it when a gate of another of its domains made it SUSPENDED? -/
def Pipe.atRest (p : Pipe) : Bool := p.st == .idle || (p.st == .suspended && p.powerIdle)

/-- Is the pipeline RUNNING, or was it when a gate of another of its domains made it SUSPENDED? -/
def Pipe.atWork (p : Pipe) : Bool := p.st == .running || p.st == .draining || (p.st == .suspended && !p.powerIdle)

/-- Domains whose stages are bound only to IDLE pipelines. -/
def State.idleDomains (s : State) : List (Nat × Nat) :=
  ((List.range 12).flatMap (fun d => (List.range 12).map (fun m => (d, m)))).filter (fun (g : Nat × Nat) =>
    let ps := s.domainPipes g.1 g.2
    !ps.isEmpty && ps.all (fun (p : Nat × Pipe) => p.2.atRest))

/-- Domains of the running pipelines of a partition, the highest pipeline first, in die and domain order. -/
def State.runningDomains (s : State) (pt : Nat) : List (Nat × Nat) :=
  (s.pipes.filter (fun (p : Nat × Pipe) => p.2.partition == pt && p.2.atWork)).reverse.flatMap
    (fun (p : Nat × Pipe) => ((List.range 12).flatMap (fun d => (List.range 12).map (fun m => (d, m)))).filter
      (fun (g : Nat × Nat) => p.2.inDomain g.1 g.2))

/-- Partitions in the order of shedding: WEIGHT ascending, the highest number first. -/
def State.shedPartitions (s : State) : List Nat :=
  let weight := fun (pt : Nat) => ((Tbl.get? s.parts pt).map (fun (x : Partition) => x.weight)).getD 0
  sortBy (fun a b => decide (weight a ≤ weight b)) (List.range 16).reverse

/-- Domains in the order of shedding. -/
def State.shedOrder (s : State) : List (Nat × Nat) := s.idleDomains ++ s.shedPartitions.flatMap s.runningDomains

/-- MEASURED_W over the budget with every compute die at its floors, or since that began? -/
def State.mustShed (s : State) : Bool :=
  decide (s.power.budget < s.power.measured) && (s.power.shedding || (List.range 12).all (fun d =>
    (s.die d).life != .up || ((s.die d).fPower == factorFloor && (Tbl.getD s.rails d {}).setpoint == 550)))

/-- The channels whose current descriptor has a source or destination in a domain. -/
def State.domainChans (s : State) (die dom : Nat) : List Nat :=
  (s.chans.filter (fun (c : Nat × Chan) =>
    (c.2.st == ChanSt.running || c.2.st == ChanSt.pausing || c.2.st == ChanSt.paused) && descInDomain c.2.desc die dom)).map (fun (c : Nat × Chan) => c.1)

/-- A gate begun: pipelines stop admission or go to SUSPENDED, channels touching the domain get PAUSE_PWR. -/
def State.beginGate (s : State) (die dom : Nat) : State :=
  let s := (s.domainPipes die dom).foldl (fun acc (p : Nat × Pipe) =>
    match p.2.st with
    | .running | .draining => acc.onPipe p.1 (fun q => { q with gateStop := true })
    | .idle => acc.onPipe p.1 (fun q => { q with st := .suspended, powerIdle := true })
    | _ => acc) s
  let touched := s.domainChans die dom
  let s := touched.foldl (fun acc k => acc.setPause k (acc.chan k).pause true) s
  { s with power := { s.power with
      gating := s.power.gating ++ [(die, dom)]
      paused := s.power.paused ++ touched.map (fun k => (die, dom, k)) } }

/-- DOMAIN_IDLE_EXPIRY: every stage FREE for DOMAIN_IDLE; channels on their stores pause first (11: R368). -/
def execDomainIdleExpiry (die dom : Nat) (s : State) : Out :=
  .next (if s.isReady && !s.boot.gap && s.gateable die dom && s.setting 0x00050005 != 0 &&
      (domainStages die dom).all (fun k => (s.stage k).st == .free && ((s.stage k).bind).isNone && !(s.stage k).busyTest) then
    if (s.domainChans die dom).isEmpty then s.gateNow die dom else (s.beginGate die dom).gateSettle
  else s)

/-- POWER_SHED: the next domain of the shed order. -/
def execPowerShed (s : State) : Out :=
  .next (if !s.isReady || s.boot.gap || !s.mustShed then s
  else
    let s := { s with power := { s.power with shedding := true } }
    match s.shedOrder.find? (fun (g : Nat × Nat) => s.gateable g.1 g.2) with
    | none => s
    | some g => (s.beginGate g.1 g.2).gateSettle)

/-- A SUSPENDED pipeline goes on once no domain of it is gated or about to be (04: R142). -/
def State.unsuspend (s : State) (pl : Nat) : State :=
  match s.pipe? pl with
  | none => s
  | some p =>
    if p.st != .suspended || p.stgs.any s.darkStage then s
    else if p.powerIdle || p.invs.isEmpty then s.setPipe pl { p with st := .idle, powerIdle := false }
    else ((s.setPipe pl { p with st := .running }).stagesTo p .running).wantLoads pl

/-- May a gated domain wake: in the reverse of the order of shedding, or because a load has bound one of its stages (15: R468)? -/
def State.mayWake (s : State) (die dom : Nat) : Bool :=
  bit dom (s.die die).gated && (s.die die).life == .up &&
    (if s.power.shed.contains (die, dom) then s.power.shed.getLast? == some (die, dom)
     else (s.domainPipes die dom).any (fun (p : Nat × Pipe) => p.2.loadWait.isSome))

/-- DOMAIN_WAKE: the domain powers up, its channels and pipelines go on, and loads that waited for it complete. -/
def execDomainWake (die dom : Nat) (s : State) : Out :=
  .next (if !s.isReady || s.boot.gap || !s.mayWake die dom then s
  else
    let x := s.die die
    let s := s.setDie die { x with
      gated := Nat.land x.gated (0xFFF - 2 ^ dom), gatedBound := Nat.land x.gatedBound (0xFFF - 2 ^ dom) }
    let s := { s with power := { s.power with shed := s.power.shed.filter (fun g => g != (die, dom)) } }
    let s := s.unpause die dom
    let s := (Tbl.keys s.pipes).foldl State.unsuspend s
    (Tbl.keys s.pipes).foldl State.loadReady s)

end Sys2Proof.Machine
end

