-- ==== Sys2Proof/Machine/Faults.lean ====
section
/-!
DEFINITION. Failure stops by cause, the control cores and their changeover, held fuse writes, and power-off (16: R480, R490 to R495;
07: R223; 12: R396; 15: R460, R470).
-/
namespace Sys2Proof.Machine

open Sys2Proof

/-! ### Failure stops (16: R493, R494) -/

/-- FAILURE_STOP of a cause of 16: R493 other than THERMAL, which SHUTDOWN_TRIP brings. -/
def execFailureStop (cause : Nat) (exsarRuns : Bool) (s : State) : Out :=
  .next (if s.isReady && decide (0x11 ≤ cause) && decide (cause ≤ 0x16) then s.failStop cause exsarRuns else s)

/-- SERVICE_CORE_HUNG (16: R480). -/
def execServiceCoreHung (plinth : Nat) (s : State) : Out :=
  .next (if s.isReady then
    let d := 12 + plinth
    (s.setDie d { s.die d with coreHung := true }).failStop 0x12 true
  else s)

/-- PLINTH_REFERENCE_LOSS (07: R223): the reference of PD0 runs Exsar too. -/
def execPlinthReferenceLoss (plinth : Nat) (s : State) : Out :=
  .next (if s.isReady then s.failStop 0x13 (plinth != 0) else s)

/-! ### Control cores (16: R490 to R492) -/

/-- What a control core is doing. -/
def Boot.core (b : Boot) (coreB : Bool) : CoreSt := if coreB then b.coreB else b.coreA

def Boot.setCore (b : Boot) (coreB : Bool) (c : CoreSt) : Boot := if coreB then { b with coreB := c } else { b with coreA := c }

/-- STANDBY_OK: a standby that the Binnacle can hand control to. -/
def Boot.standbyOk (b : Boot) : Bool := b.binnacleOk && (b.coreA == .standby || b.coreB == .standby)

/-- Do the cores run: from step 2 of a start on? -/
def State.coresRun (s : State) : Bool := !s.boot.exsarGone && (s.boot.core s.boot.activeB == .active)

/-- CORE_HEARTBEAT_MISS: the failed core is held in reset and control goes to the standby; without one the device stops with CONTROL. What the
spare bank was being given is lost with the active core (13: R424). -/
def execCoreHeartbeatMiss (coreB : Bool) (s : State) : Out :=
  .next (if !s.coresRun then s
  else if coreB == s.boot.activeB then
    if s.boot.standbyOk then
      let b := (s.boot.setCore coreB .held).setCore (!coreB) .active
      let s := if s.upd.staging.isSome then s.dropStaging else s
      let s := { s with boot := { b with activeB := !coreB, gap := true } }
      -- the second failure in one start stops it (14: R447)
      if s.starting && s.boot.restarted then s.startStop s.boot.phase 1 [] else s
    else
      let s := { s with boot := s.boot.setCore coreB .out }
      if s.isReady then s.failStop 0x11 false
      else
        let s := if s.boot.dev == .starting then s.startStop s.boot.phase 1 [] else s
        { s with boot := { s.boot with exsarGone := true } }
  else if s.boot.core coreB == .standby then { s with boot := s.boot.setCore coreB .held }
  else s)

/-- A command that ran when the active core failed: answered FAILOVER, now or, with requests to memory still out, at their end. -/
def State.failCmd (s : State) (mb : Nat) : State :=
  match (s.mbox mb).running with
  | none => s
  | some seq =>
    match Tbl.get? s.helm.memOps mb with
    | some m => { s with helm := { s.helm with memOps := Tbl.set s.helm.memOps mb { m with failover := true } } }
    | none => s.answerCmd (mb, seq) (s.mbox mb).runCode 0xD []

/-- CORE_FAILOVER: the new core resumes and posts the gap; the third changeover within an hour keeps the failed core out; the voltage loop
starts afresh (15: R474). A start after step 5 goes on from step 6 (14: R447). -/
def execCoreFailover (gapUs : Nat) (s : State) : Out :=
  .next (if !s.boot.gap then s
  else
    let failed := !s.boot.activeB
    let recent := s.now0 :: s.boot.failovers.filter (fun r => decide (subMod 64 s.now0 r < 3600 * 156250000))
    let b := { s.boot with gap := false, failovers := recent }
    let s := { s with boot := if 3 ≤ recent.length then b.setCore failed .out else b }
    let s := (Tbl.keys s.helm.mailboxes).foldl State.failCmd s
    let s := (List.range 12).foldl State.freshLoop s
    let s := s.post 0x0045 exsarUnit (leBytes 1 (b2n failed) ++ leBytes 1 (b2n s.boot.activeB) ++ leBytes 4 gapUs)
    if s.starting && decide (6 ≤ s.boot.phase) then s.restart else s)

/-- CORE_RESTART: the released core's self-test and reload. -/
def execCoreRestart (pass : Bool) (s : State) : Out :=
  .next (if s.boot.gap || s.boot.exsarGone then s
  else if s.boot.core (!s.boot.activeB) == .held then
    { s with boot := s.boot.setCore (!s.boot.activeB) (if pass then .standby else .out) }
  else s)

/-- BINNACLE_LOST: logged by the core that misses it; no changeover is possible until the next start. -/
def execBinnacleLost (coreB : Bool) (s : State) : Out :=
  .next (if s.coresRun && (s.boot.core coreB == .active || s.boot.core coreB == .standby) then
    { s.logOnly 0x0113 exsarUnit (leBytes 1 (b2n coreB)) with boot := { s.boot with binnacleOk := false } }
  else s)

/-! ### Fuses and power (15: R460, R470) -/

/-- FUSE_PROGRAM: held fuse writes, at the first sample in range. -/
def execFuseProgram (s : State) : Out := .next (if s.isReady && !s.boot.gap then programFuses s else s)

/-- POWER_OFF: nothing is held but the fuses and the NOR banks. -/
def execPowerOff (s : State) : Out := .next { s.cleared with pins := { aux := false, mainRails := false, coolDuty := 0 } }

end Sys2Proof.Machine
end

