-- ==== Sys2Proof/Machine/Registers.lean ====
section
/-!
DEFINITION. The management registers: the service address map, what every register reads, what writes do, the latch of 64-bit reads,
service packets, and telemetry (21; 03: R111, R115; 06: R198, R199; 07: R231, R232; 08: R237; 09: R293, R309, R310; 10: R345;
11: R370 to R373; 13: R404, R420; 15: R472, R473; 16: R483, R488).
-/
namespace Sys2Proof.Machine

open Sys2Proof

/-! ### Registers -/

/-- One register: its offset in the instance, 64 or 32 bits, its value, and its sticky SAT flag (21: R575; 16: R488). -/
structure Reg where
  off : Nat
  wide : Bool
  val : Nat
  sat : Bool := false
  deriving DecidableEq, Repr

def reg32 (off v : Nat) : Reg := { off := off, wide := false, val := v % 2 ^ 32 }
def reg64 (off v : Nat) : Reg := { off := off, wide := true, val := v % 2 ^ 64 }

/-- A counter that stops at its limit. -/
def ctr32 (off v : Nat) : Reg := { off := off, wide := false, val := v, sat := decide (2 ^ 32 - 1 ≤ v) }
def ctr64 (off v : Nat) : Reg := { off := off, wide := true, val := v, sat := decide (2 ^ 64 - 1 ≤ v) }

/-- The SAT word over counters in offset order (21: R575). -/
def satWord : List Reg → Nat
  | [] => 0
  | r :: rs => b2n r.sat + 2 * satWord rs

/-- A byte string as words from an offset. -/
def byteRegs (off : Nat) (bs : List Byte) : List Reg := (List.range (bs.length / 4)).map (fun i => reg32 (off + 4 * i) (field bs (4 * i) 4))

/-- The word at an offset; a place without a register reads 0. -/
def wordAt (rs : List Reg) (off : Nat) : Nat :=
  match rs.find? (fun r => r.off == off || (r.wide && r.off + 4 == off)) with
  | none => 0
  | some r => if r.off = off then r.val % 2 ^ 32 else r.val / 2 ^ 32

/-! ### Blocks -/

/-- STAGE_STATUS (03: R111). -/
def Stage.statusWord (x : Stage) : Nat :=
  x.flags.word + 2 ^ 4 * x.st.code + 2 ^ 8 * b2n x.lsCe + 2 ^ 12 * x.cause + 2 ^ 16 * (if x.st = .free then 0 else x.partition)

/-- STAGE (21: R577). -/
def State.stageRegs (s : State) (k : Nat) : List Reg :=
  let x := s.stage k
  let cs := (List.range 14).map (fun i => ctr64 (8 + 8 * i) (Tbl.getD x.counters i 0)) ++ [ctr32 0x78 (Tbl.getD x.counters 14 0)]
  [reg32 0 x.statusWord] ++ cs ++ [reg32 0x80 (satWord cs)]

/-- THERMAL_STATUS (15: R472). -/
def State.thermalWord (s : State) (d : Nat) : Nat :=
  let x := s.die d
  tempWord x.tj + 2 ^ 12 * b2n x.fast + 2 ^ 13 * b2n x.tripped + 2 ^ 14 * b2n s.pins.shutdownLatch +
    2 ^ 15 * b2n (!x.excluded.isEmpty) + 2 ^ 16 * factorWord x.fThermal + 2 ^ 24 * factorWord x.fPower

/-- The five counters of a compute die (15: R473). -/
def State.dieCounters (s : State) (d : Nat) : List Reg :=
  let c := fun i => Tbl.getD (s.die d).counters i 0
  [ctr64 0x10 (c 0), ctr64 0x18 (c 1), ctr32 0x20 (c 2), ctr32 0x24 (c 3), ctr32 0x28 (c 4)]

/-- THERMAL (21: R578). -/
def State.thermalRegs (s : State) (d : Nat) : List Reg :=
  let x := s.die d
  let own := if d < 12 then
      s.dieCounters d ++ [reg32 0x2C (satWord (s.dieCounters d)),
        reg32 0x30 ((((s.budgetForce d).getD 0) + 500) / 1000 % 65536 + 2 ^ 16 * (x.pEst % 65536)), reg32 0x34 x.gated]
    else []
  [reg32 0 (s.thermalWord d), reg64 8 x.refCount] ++ own ++
    (List.range (sensorCount d)).map (fun i =>
      reg32 (0x100 + 4 * i) (tempWord (Tbl.getD x.temps i 0) + 2 ^ 12 * b2n (!x.excluded.contains i)))

/-- Lanes on which a link end receives (21: R579). -/
def linkLanes (k : Nat) : Nat := if plinthLink k then 768 else if attachEnd k then 256 else 512

/-- LINK_STATUS (07: R232). -/
def LinkEnd.statusWord (e : LinkEnd) : Nat :=
  e.st.code + 2 ^ 3 * b2n e.baseline + 2 ^ 4 * b2n e.crcSeen + 2 ^ 5 * b2n e.hardFault + 2 ^ 16 * e.faultLane

/-- LINK (21: R579). -/
def State.linkRegs (s : State) (k : Nat) : List Reg :=
  let e := s.link k
  let c := fun i => Tbl.getD e.counters i 0
  let cs := [ctr64 0x20 (c 0), ctr64 0x28 (c 1)] ++ (List.range 6).map (fun i => ctr32 (0x30 + 4 * i) (c (i + 2)))
  [reg32 0 e.statusWord, reg64 0x08 (linkOwn k), reg64 0x10 e.peerWord, reg64 0x18 e.profile] ++ cs ++ [reg32 0x48 (satWord cs)] ++
    (List.range (linkLanes k)).map (fun l => reg32 (0x100 + 4 * l) (e.eyeWord (attachEnd k) l))

/-- STACK_STATUS of a stack, whose plinth re-lays or not (06: R198). -/
def Stack.statusWord (x : Stack) (relay : Bool) : Nat :=
  let p := match x.power with
    | .active => 0
    | .powerDown => 1
    | .selfRefresh => 2
  x.band + 2 ^ 2 * p + 2 ^ 4 * b2n x.ceSeen + 2 ^ 5 * b2n x.ueSeen + 2 ^ 6 * b2n x.pending + 2 ^ 7 * b2n x.exhausted +
    2 ^ 8 * b2n x.scrubbing + 2 ^ 9 * b2n relay + 2 ^ 16 * (x.temp % 256)

/-- HBM: eight stacks, and the plinth-wide registers as number 8 (21: R580). -/
def State.hbmRegs (s : State) (p i : Nat) : List Reg :=
  if i < 8 then
    let x := s.stack (8 * p + i)
    let c := fun i => Tbl.getD x.counters i 0
    let cs := (List.range 4).map (fun i => ctr64 (8 + 8 * i) (c i)) ++ (List.range 6).map (fun i => ctr32 (0x28 + 4 * i) (c (i + 4)))
    [reg32 0 (x.statusWord (s.relaying p))] ++ cs ++ [reg32 0x40 (satWord cs)]
  else
    let m := Tbl.getD s.skew p {}
    [ctr32 0 m.events, reg32 4 (m.last % 65536), reg32 8 (satWord [ctr32 0 m.events])] ++
      (List.range 8).map (fun j => reg32 (0x10 + 4 * j) (if s.relaying p then 0 else s.boot.key.getD j 0 % 2 ^ 24))

/-- TENDER: 64 channels, and the tender's own registers as number 64 (21: R581). -/
def State.tenderRegs (s : State) (p i : Nat) : List Reg :=
  if i < 64 then
    let x := s.chan (64 * p + i)
    let c := fun i => Tbl.getD x.counters i 0
    let cs := (List.range 4).map (fun i => ctr64 (0x38 + 8 * i) (c i)) ++ (List.range 3).map (fun i => ctr32 (0x58 + 4 * i) (c (i + 4)))
    [reg32 0 x.ctrlWord, reg32 4 x.statusWord, reg64 0x08 x.curDesc, reg64 0x10 x.srcCurNow, reg64 0x18 x.dstCurNow, reg64 0x20 x.remainNow,
      reg64 0x28 x.crcRun, reg64 0x30 x.rateCap] ++ cs ++ [reg32 0x64 (satWord cs)]
  else
    let n := (Tbl.getD s.tenders p {}).bufFull
    [ctr64 0 n, reg32 8 (satWord [ctr64 0 n]), reg32 0xC (s.setting 0x00040001)]

/-- PT0's fixed window entry (08: R237; 21: R583). -/
def State.fixedEntry (s : State) : List Byte :=
  leBytes 2 s.ownNode ++ leBytes 2 s.ownNode ++ leBytes 2 3 ++ leBytes 2 0 ++ leBytes 8 0 ++ leBytes 8 0x3FFFFFFFFFF ++ leBytes 8 0

/-- Bytes of a window entry of a partition; an unused one is zeros. -/
def State.entryBytes (s : State) (pt k : Nat) : List Byte :=
  if pt = 0 then (if k = 0 then s.fixedEntry else List.replicate 32 0)
  else (((Tbl.get? s.parts pt).bind (fun x => Tbl.get? x.window k)).map (fun e => padTo 32 e.raw)).getD (List.replicate 32 0)

/-- WINDOW (21: R583). -/
def State.windowRegs (s : State) (pt : Nat) : List Reg :=
  byteRegs 0 ((List.range 32).flatMap (s.entryBytes pt)) ++ [reg32 0x400 (s.tagOfPart pt)]

/-- FABRIC_CACHE (21: R584). -/
def State.cacheRegs (s : State) (p : Nat) : List Reg :=
  let x := s.cache p
  let fixedLines := (x.lines.filter (fun l => l.st == LineSt.fixed)).length
  let cs := (List.range 8).map (fun i => if i = 6 then reg64 0x30 fixedLines else ctr64 (8 * i) (Tbl.getD x.counters i 0)) ++
    [ctr32 0x40 (Tbl.getD x.counters 8 0)]
  cs ++ [reg32 0x44 (satWord cs)]

/-- One logbook entry's 96 bytes (16: R483). -/
def LogEntry.bytes (e : LogEntry) : List Byte :=
  leBytes 2 e.index ++ leBytes 2 e.code ++ leBytes 1 e.cls ++ leBytes 1 e.severity ++ leBytes 2 e.source ++
    leBytes 2 (b2n e.pinned + 2 * b2n e.crash) ++ leBytes 2 0 ++ leBytes 4 e.count ++ leBytes 8 e.refFirst ++ leBytes 8 e.refLast ++
    padTo 64 e.data

/-- LOGBOOK (21: R585). -/
def State.logRegs (s : State) : List Reg :=
  let es := s.log.entries
  let pin := (es.find? (fun e => e.pinned)).map (fun e => e.index)
  [reg32 0 s.log.next, reg32 4 (((es.head?.map (fun e => e.index)).getD 0) + 2 ^ 16 * b2n es.isEmpty), reg32 8 es.length,
    reg32 0xC s.log.lost, reg32 0x10 (pin.getD 0 + 2 ^ 15 * b2n pin.isSome), reg32 0x14 0, reg32 0x18 (b2n s.log.snapValid)] ++
    byteRegs 0x100 (padTo 96 s.log.snap)

/-- POWER: rails 0 to 19, the package as 31 (21: R586). -/
def State.powerRegs (s : State) (i : Nat) : List Reg :=
  if i < 20 then
    let r := Tbl.getD s.rails i {}
    [reg32 0 r.vout, reg32 4 r.iout, reg32 8 r.pout, reg32 0xC r.setpoint, reg32 0x10 r.status]
  else [reg32 0 s.power.budget, reg32 4 s.power.measured]

/-- RING_STATUS (09: R309). -/
def State.ringWord (s : State) (b k : Nat) : Nat :=
  let r := s.ring b k
  let st := if (s.beacon b).frozen && (r.st == .locked || r.st == .sweeping) then LoopSt.frozen else r.st
  st.code + 2 ^ 2 * r.band + 2 ^ 4 * b2n r.mislockSeen + 2 ^ 5 * b2n r.unlockSeen + 2 ^ 6 * b2n r.retired + 2 ^ 8 * (r.ratio % 256) +
    2 ^ 16 * (r.heater % 65536)

/-- RING (21: R587). -/
def State.ringRegs (s : State) (b k : Nat) : List Reg :=
  let r := s.ring b k
  let cs := (List.range 3).map (fun i => ctr32 (4 + 4 * i) (Tbl.getD r.counters i 0))
  [reg32 0 (s.ringWord b k)] ++ cs ++ [reg32 0x10 (satWord cs), reg32 0x14 (r.lineCode % 65536), reg64 0x18 r.lastSight]

/-- LANE_STATUS (09: R310). -/
def State.laneWord (s : State) (b k : Nat) : Nat :=
  let l := s.lane b k
  let recent := (lastTenSeconds (s.now (16 + b)) (s.ring b k).mislocks).length - 1
  l.st.code + 2 ^ 3 * (l.lane % 16) + 2 ^ 7 * min recent 3 + 2 ^ 9 * b2n l.degraded + 2 ^ 10 * b2n (l.frameLock && k / 288 == 1)

/-- LANE (21: R587); what is kept for receive lines only reads 0 on transmit lines. -/
def State.laneRegs (s : State) (b k : Nat) : List Reg :=
  let c := fun i => Tbl.getD (s.lane b k).counters i 0
  let rx := fun i => if k / 288 = 1 then c i else 0
  let cs := [ctr64 0x08 (rx 0), ctr64 0x10 (rx 1), ctr64 0x18 (c 4), ctr32 0x20 (rx 2), ctr32 0x24 (rx 3)]
  [reg32 0 (s.laneWord b k)] ++ cs ++ [reg32 0x28 (satWord cs)]

/-- MATRIX (09: R293). -/
def State.matrixRegs (s : State) (b bank : Nat) : List Reg :=
  let m := s.matrix b bank
  byteRegs 0 (leBytes 1 (bank / 2) ++ leBytes 1 (bank % 2) ++ leBytes 2 m.fitCount ++ leBytes 2 m.residual ++ leBytes 2 0 ++
    (List.range 324).flatMap (fun i => leBytes 2 (s.matrixEntry b bank i)))

/-- Microseconds and milliseconds in reference periods, and the replay timer in force (10: R327). -/
def refUs (n : Nat) : Nat := n * 625 / 4
def refMs (n : Nat) : Nat := n * 156250

def State.replayRefs (s : State) (e : TxEnd) : Nat :=
  max (refUs (s.setting (if e.hall then 0x00020005 else 0x00020004))) (2 * e.rttMeas + refUs 5)

/-- CHANNEL: sending ends 0 to 15, receiving ends 16 to 31 (21: R588; 10: R345). -/
def State.channelRegs (s : State) (b i : Nat) : List Reg :=
  if i < 16 then
    let e := s.tx b i
    let c := fun i => Tbl.getD e.counters i 0
    let cs := (List.range 4).map (fun i => ctr64 (8 + 8 * i) (c i)) ++ (List.range 3).map (fun i => ctr32 (0x28 + 4 * i) (c (i + 4))) ++
      [reg32 0x34 0]
    [reg32 0 (e.st.code + 2 ^ 3 * b2n e.hall + 2 ^ 4 * b2n e.spilling + 2 ^ 6 * b2n e.downSeen + 2 ^ 8 * e.lanes + 2 ^ 16 * (e.session % 256)),
      reg32 4 e.rttMeas] ++ cs ++ [reg32 0x38 (s.replayRefs e), reg32 0x3C (satWord cs)]
  else
    let q := i - 16
    let e := s.rx b q
    let c := fun i => Tbl.getD e.counters i 0
    let rtt := (s.tx b q).rttMeas
    let cs := [ctr64 8 (c 0), reg64 0x10 0, reg64 0x18 0, reg64 0x20 0] ++ (List.range 4).map (fun i => ctr32 (0x28 + 4 * i) (c (i + 4)))
    let session := (e.ident.map (fun x => x.session)).getD 0
    [reg32 0 (e.st.code + 2 ^ 3 * b2n e.hall + 2 ^ 5 * b2n e.crcSeen + 2 ^ 6 * b2n e.downSeen + 2 ^ 8 * e.lanes + 2 ^ 16 * (session % 256)),
      reg32 4 rtt] ++ cs ++ [reg32 0x38 (rtt + refUs 2), reg32 0x3C (satWord cs)]

/-- BEACON (21: R589). -/
def State.beaconRegs (s : State) (b : Nat) : List Reg :=
  let e := s.beacon b
  let cs := [ctr64 0 (Tbl.getD e.counters 0 0)] ++ (List.range 5).map (fun i => ctr32 (8 + 4 * i) (Tbl.getD e.counters (i + 1) 0))
  cs ++ [reg32 0x1C (satWord cs), reg32 0x20 (e.config % 16 + 2 ^ 4 * b2n (decide (0 < e.repointStep))), reg32 0x24 e.band,
    reg32 0x28 (refUs (s.setting 0x00020006)), reg32 0x2C (refUs (s.setting 0x00020004)), reg32 0x30 (refUs (s.setting 0x00020005)),
    reg32 0x34 (refMs (s.setting 0x00020009)), reg32 0x38 (refMs (s.setting 0x00020008)), reg32 0x3C (refMs (s.setting 0x00020003))]

/-! ### The address map (21: R571, R572) -/

/-- Instances of a block on a die, and their stride; none where the die has no such block. -/
def blockShape (die block : Nat) : Option (Nat × Nat) :=
  let cd := decide (die < 12)
  let pd := decide (12 ≤ die) && decide (die < 16)
  let bc := decide (16 ≤ die) && decide (die < 24)
  match block with
  | 0x01 => if cd then some (30, 0x100) else none
  | 0x02 => if die < 24 then some (1, 2 ^ 21) else none
  | 0x03 => if die < 24 then some (linkCount die, 0x1000) else none
  | 0x04 => if pd then some (9, 0x100) else none
  | 0x05 => if pd then some (65, 0x100) else none
  | 0x06 => if pd then some (16, 0x800) else none
  | 0x07 => if pd then some (1, 2 ^ 21) else none
  | 0x08 => if die = 12 then some (1, 2 ^ 21) else none
  | 0x09 => if die = 12 then some (32, 0x20) else none
  | 0x0A => if bc then some (576, 0x40) else none
  | 0x0B => if bc then some (576, 0x40) else none
  | 0x0C => if bc then some (32, 0x400) else none
  | 0x0D => if bc then some (32, 0x100) else none
  | 0x0E => if bc then some (1, 2 ^ 21) else none
  | _ => none

/-- The registers of an instance. -/
def State.regsOf (s : State) (die block i : Nat) : List Reg :=
  match block with
  | 0x01 => s.stageRegs (30 * die + i)
  | 0x02 => s.thermalRegs die
  | 0x03 => s.linkRegs (8 * die + i)
  | 0x04 => s.hbmRegs (die - 12) i
  | 0x05 => s.tenderRegs (die - 12) i
  | 0x06 => s.windowRegs i
  | 0x07 => s.cacheRegs (die - 12)
  | 0x08 => s.logRegs
  | 0x09 => s.powerRegs i
  | 0x0A => s.ringRegs (die - 16) i
  | 0x0B => s.laneRegs (die - 16) i
  | 0x0C => s.matrixRegs (die - 16) i
  | 0x0D => s.channelRegs (die - 16) i
  | 0x0E => s.beaconRegs (die - 16)
  | _ => []

/-- A place in the map. -/
structure Place where
  die : Nat
  block : Nat
  i : Nat
  off : Nat
  deriving DecidableEq, Repr

/-- Fields of a service address (21: R571). -/
def addrDie (a : Nat) : Nat := bits 31 27 a
def addrBlock (a : Nat) : Nat := bits 26 21 a
def addrOff (a : Nat) : Nat := bits 20 0 a

/-- The place an address names; none where no block decodes it (00: R16). -/
def placeOf (a : Nat) : Option Place :=
  match blockShape (addrDie a) (addrBlock a) with
  | none => none
  | some (n, stride) =>
    let i := addrOff a / stride
    if n ≤ i ∨ (addrBlock a = 9 ∧ 20 ≤ i ∧ i ≠ 31) then none
    else some { die := addrDie a, block := addrBlock a, i := i, off := addrOff a % stride }

/-- A compute die or beacon out of service (21: R574). -/
def State.dieLost (s : State) (d : Nat) : Bool := fenceable d && (s.die d).life != .up

/-- How an access ends (13: R398; 21: R573, R574; 17: R516). -/
inductive SvcEnd where
  | ok (value : Nat)
  | invalid
  | locked
  | unmapped
  | lost
  deriving DecidableEq, Repr

/-- Width and alignment of an access (21: R573). -/
def accessOk (a width : Nat) : Bool := (width == 4 || width == 8) && a % width == 0

/-- What stops an access, or its place. -/
def State.svcPlace (s : State) (a width : Nat) : SvcEnd ⊕ Place :=
  if !accessOk a width then .inl .invalid
  else if addrDie a = 12 ∧ addrBlock a = 0x1F then .inl .locked
  else
    match placeOf a with
    | none => .inl .unmapped
    | some p => if s.dieLost p.die then .inl .lost else .inr p

/-! ### Reads (03: R115; 21: R573) -/

/-- A service read, with the latch of the high word of a 64-bit register. -/
def State.svcRead (s : State) (a width : Nat) : SvcEnd × State :=
  match s.svcPlace a width with
  | .inl e => (e, s)
  | .inr p =>
    let rs := s.regsOf p.die p.block p.i
    if width = 8 then (.ok (wordAt rs p.off + 2 ^ 32 * wordAt rs (p.off + 4)), s)
    else
      match rs.find? (fun r => r.wide && (r.off == p.off || r.off + 4 == p.off)) with
      | none => (.ok (wordAt rs p.off), s)
      | some r =>
        if r.off = p.off then (.ok (r.val % 2 ^ 32), { s with latches := Tbl.set s.latches a (r.val / 2 ^ 32) })
        else
          match Tbl.get? s.latches (a - 4) with
          | some v => (.ok v, { s with latches := Tbl.erase s.latches (a - 4) })
          | none => (.ok (r.val / 2 ^ 32), s)

/-! ### Writes (21: R573, R582, R585; 00: R13) -/

/-- Bits of a W1C field cleared. -/
def w1c (cur : Bool) (i v : Nat) : Bool := cur && !bit i v

/-- SNAP_INDEX: one entry captured, or none (21: R585). -/
def Logbook.capture (l : Logbook) (index : Nat) : Logbook :=
  match l.entries.find? (fun e => e.index == index % 2 ^ 15) with
  | some e => { l with snap := e.bytes, snapValid := true }
  | none => { l with snap := [], snapValid := false }

/-- CH_CTRL of a host channel (11: R370; 21: R582). -/
def State.writeCtrl (s : State) (k v : Nat) : State :=
  let s := s.setWeight k (bits 11 8 v)
  let s := s.setPause k (bit 0 v) (s.chan k).pausePwr
  let s := s.answerPauses k
  if bit 2 v then s.abortChan k else s

/-- One 32-bit word written; read-only words and fields ignore it. -/
def State.writeWord (s : State) (p : Place) (off v : Nat) : State :=
  match p.block, off with
  | 0x01, 0 => s.onStage (30 * p.die + p.i) (fun x =>
      { x with
        flags := ⟨w1c x.flags.overflow 0 v, w1c x.flags.nanProduced 1 v, w1c x.flags.saturation 2 v, w1c x.flags.scaleClamp 3 v⟩
        lsCe := w1c x.lsCe 8 v })
  | 0x03, 0 => let e := s.link (8 * p.die + p.i); s.setLink (8 * p.die + p.i) { e with crcSeen := w1c e.crcSeen 4 v }
  | 0x04, 0 =>
    if p.i < 8 then
      let k := 8 * (p.die - 12) + p.i
      s.setStack k { s.stack k with ceSeen := w1c (s.stack k).ceSeen 4 v, ueSeen := w1c (s.stack k).ueSeen 5 v }
    else s
  | 0x05, 0 => if p.i < 48 then s.writeCtrl (64 * (p.die - 12) + p.i) v else s
  | 0x05, 4 =>
    if p.i < 64 then s.onChan (64 * (p.die - 12) + p.i) (fun c => { c with badSeen := w1c c.badSeen 4 v, powerSeen := w1c c.powerSeen 5 v })
    else s
  | 0x05, 0x30 => if p.i < 48 then s.onChan (64 * (p.die - 12) + p.i) (fun c => { c with rateCap := v % 65536 }) else s
  | 0x08, 0x14 => { s with log := s.log.capture v }
  | 0x0A, 0 => s.onRing (p.die - 16) p.i (fun r => { r with mislockSeen := w1c r.mislockSeen 4 v, unlockSeen := w1c r.unlockSeen 5 v })
  | 0x0D, 0 =>
    let b := p.die - 16
    if p.i < 16 then s.setTx b p.i { s.tx b p.i with downSeen := w1c (s.tx b p.i).downSeen 6 v }
    else
      let e := s.rx b (p.i - 16)
      s.setRx b (p.i - 16) { e with crcSeen := w1c e.crcSeen 5 v, downSeen := w1c e.downSeen 6 v }
  | _, _ => s

/-- A service write. -/
def State.svcWrite (s : State) (a width v : Nat) : SvcEnd × State :=
  match s.svcPlace a width with
  | .inl e => (e, s)
  | .inr p =>
    let s := s.writeWord p p.off (v % 2 ^ 32)
    (.ok 0, if width = 8 then s.writeWord p (p.off + 4) (v / 2 ^ 32 % 2 ^ 32) else s)

/-! ### Events of the map -/

/-- REGISTER_WRITE: one service write taken by its register. -/
def execRegisterWrite (addr width value : Nat) (s : State) : Out := .next (s.svcWrite addr width value).2

/-- COUNTER_LOW_READ: a 4-byte read of a low word latches the high word; any other read has no side effect here. -/
def execCounterLowRead (addr : Nat) (s : State) : Out := .next (s.svcRead addr 4).2

/-- SNAP_INDEX written. -/
def execSnapIndex (index : Nat) (s : State) : Out := .next { s with log := s.log.capture index }

/-! ### Service packets (07: R212; 21: R573, R574) -/

/-- The status of a completion of a service packet: 08: R243, and the Helm codes of 13: R398 where that list has none. -/
def SvcEnd.status : SvcEnd → Nat
  | .ok _ => 0
  | .invalid => 7
  | .locked => 0x0B
  | .unmapped => 0x0C
  | .lost => 4

/-- Does a packet to a die name a register of that die? -/
def svcReaches (dst a : Nat) : Bool := dst / 128 == addrDie a

/-- SVC_RD: 8 bytes from an address that is a multiple of 8, else 4. -/
def execSvcRd (src dst tag addr : Nat) (s : State) : Out :=
  .next (if !s.detects then s
  else
    match s.takeHub (fun p => p.typ == 0xA && p.dst == dst && p.tag == tag && p.specific == addr) with
    | none => s
    | some s =>
    if !svcReaches dst addr then s.complete dst 0 src tag 0x0C []
    else
      let width := if addr % 8 = 0 then 8 else 4
      match s.svcRead addr width with
      | (.ok v, t) => t.complete dst 0 src tag 0 (leBytes width v)
      | (e, t) => t.complete dst 0 src tag e.status [])

/-- SVC_WR: 4 or 8 bytes; any other LEN is a protocol error at the first link it crosses (07: R212, R213). -/
def execSvcWr (src dst tag addr : Nat) (data : List Byte) (s : State) : Out :=
  .next (if !s.detects then s
  else
    match s.takeHub (fun p => p.typ == 0xB && p.dst == dst && p.tag == tag && p.specific == addr) with
    | none => s
    | some s =>
    if (fenceable (src / 128) || fenceable (dst / 128)) && !pktOk 0xB data.length then
      (if fenceable (src / 128) then s.hubError (src / 128) else s.dieError (dst / 128))
    else if !svcReaches dst addr then s.complete dst 0 src tag 0x0C []
    else
      match s.svcWrite addr data.length (leNat data) with
      | (.ok _, t) => t.complete dst 0 src tag 0 []
      | (e, t) => t.complete dst 0 src tag e.status [])

/-! ### SERVICE_READ and SERVICE_WRITE (13: R420; 17: R516, R521) -/

/-- Has this mailbox's session a level open? -/
def State.serviceOpen (s : State) (w : Waiter) : Bool := decide (1 ≤ s.sec.level) && s.sec.levelSession == some (s.sessionOf w.1)

/-- The answer an access brings; an access of another width or alignment names the field at fault. -/
def svcAnswer (r : SvcEnd × State) (width : Nat) (out : Nat → List Byte) : Ans :=
  match r.1 with
  | .ok v => .done 0 (out v) r.2
  | .invalid => badAns (if width = 4 ∨ width = 8 then 0 else 4) r.2
  | .locked => errAns 0xB r.2
  | .unmapped => errAns 0xC r.2
  | .lost => .done 0xF (memErrorAns (4, 0)) r.2

def serviceReadRun (w : Waiter) (q : List Byte) (s : State) : Ans :=
  if !s.serviceOpen w then errAns 0xB s
  else svcAnswer (s.svcRead (field q 0 4) (field q 4 1)) (field q 4 1) (leBytes 8)

/-- SERVICE_READ. -/
def execServiceRead (mb seq : Nat) (body : List Byte) (s : State) : Out := s.runHelm 0x0064 true (some [4, 1, 3]) mb seq body serviceReadRun

def serviceWriteRun (w : Waiter) (q : List Byte) (s : State) : Ans :=
  if !s.serviceOpen w then errAns 0xB s
  else svcAnswer (s.svcWrite (field q 0 4) (field q 4 1) (field q 8 8)) (field q 4 1) (fun _ => [])

/-- SERVICE_WRITE. -/
def execServiceWrite (mb seq : Nat) (body : List Byte) (s : State) : Out :=
  s.runHelm 0x0065 true (some [4, 1, 3, 8]) mb seq body serviceWriteRun

/-! ### Telemetry (13: R404; 21: R576) -/

/-- Registers of an instance with their addresses. -/
def State.instanceRegs (s : State) (die block i : Nat) : List (Nat × Reg) :=
  match blockShape die block with
  | none => []
  | some (_, stride) => (s.regsOf die block i).map (fun r => (svcAddr die block (stride * i + r.off), r))

/-- Registers of a block, instance by instance. -/
def State.blockRegs (s : State) (die block : Nat) : List (Nat × Reg) :=
  match blockShape die block with
  | none => []
  | some (n, _) => ((List.range n).filter (fun i => block != 9 || decide (i < 20) || i == 31)).flatMap (s.instanceRegs die block)

/-- Group 0: thermal words, the counters of the compute dies, stack status words; dies out of service are left out. -/
def State.group0 (s : State) : List (Nat × Reg) :=
  (List.range 24).flatMap (fun d =>
    if s.dieLost d then []
    else
      ((s.instanceRegs d 2 0).filter (fun (r : Nat × Reg) => r.2.off == 0 || (decide (d < 12) && decide (0x10 ≤ r.2.off) && decide (r.2.off ≤ 0x2C)))) ++
        (if 12 ≤ d ∧ d < 16 then
          (List.range 8).flatMap (fun i => (s.instanceRegs d 4 i).filter (fun (r : Nat × Reg) => r.2.off == 0)) else []))

/-- The registers of a group; none where UNIT names nothing. -/
def State.groupRegs (s : State) (group unit : Nat) : Option (List (Nat × Reg)) :=
  match group with
  | 0 => if unit = 0 then some s.group0 else none
  | 1 => if unit = 0 then some (s.blockRegs 12 9) else none
  | 2 => if unit < 12 then some (s.blockRegs unit 1) else none
  | 3 => if unit < 192 ∧ unit % 8 < linkCount (unit / 8) then some (s.instanceRegs (unit / 8) 3 (unit % 8)) else none
  | 4 => if unit < 32 then some (s.instanceRegs (12 + unit / 8) 4 (unit % 8)) else none
  | 5 => if unit < 8 then some (s.blockRegs (16 + unit) 0xD ++ s.blockRegs (16 + unit) 0xE) else none
  | 6 => if unit < 4 then some (s.blockRegs (12 + unit) 7) else none
  | 7 => if unit < 256 then some (s.instanceRegs (12 + unit / 64) 5 (unit % 64)) else none
  | _ => none

/-- The die a group's UNIT lies on, where it may be out of service. -/
def groupDie (group unit : Nat) : Option Nat :=
  match group with
  | 2 => some unit
  | 3 => some (unit / 8)
  | 5 => some (16 + unit)
  | _ => none

/-- May a partition read a group's unit (13: R404)? -/
def State.mayRead (s : State) (pt group unit : Nat) : Bool :=
  pt == 0 || (match group with
    | 0 | 1 => true
    | 2 => ((Tbl.get? s.parts pt).map (fun x => bits (30 * unit + 29) (30 * unit) x.stageSet != 0)).getD false
    | 7 => (s.chan unit).owner == pt
    | _ => false)

/-- One record: ITEM, FLAGS, VALUE. -/
def regRecord (r : Nat × Reg) : List Byte := leBytes 4 r.1 ++ leBytes 4 (b2n r.2.sat) ++ leBytes 8 r.2.val

def telemetryReadRun (w : Waiter) (q : List Byte) (s : State) : Ans :=
  let g := field q 0 1
  let u := field q 1 2
  if 7 < g then badAns 0 s
  else
    match s.groupRegs g u with
    | none => badAns 1 s
    | some rs =>
      if !s.mayRead (ptOf w) g u then errAns 6 s
      else if ((groupDie g u).map (fun d => s.dieLost d)).getD false then .done 0xF (memErrorAns (4, 0)) s
      else .done 0 (leBytes 1 g ++ leBytes 1 0 ++ leBytes 2 rs.length ++ rs.flatMap regRecord) s

/-- TELEMETRY_READ. -/
def execTelemetryRead (mb seq : Nat) (body : List Byte) (s : State) : Out := s.runHelm 0x0003 false (some [1, 2, 1]) mb seq body telemetryReadRun

end Sys2Proof.Machine
end

