-- ==== Sys2Proof/Machine/HelmDevice.lean ====
section
/-!
DEFINITION. Helm commands about the device and its settings: capabilities and state, the logbook, subscriptions, host-port settings and the
package budget (12: R387, R389, R393, R395, R396; 13: R403; 15: R462; 16: R483, R486, R487).
-/
namespace Sys2Proof.Machine

open Sys2Proof

/-! ### QUERY_CAPS and DEVICE_STATE (13: R403) -/

/-- One link record, of the plinth's end of the link. -/
def State.linkRecord (s : State) (k : Nat) : List Byte :=
  let e := s.link k
  leBytes 2 k ++ leBytes 1 e.st.code ++ leBytes 1 0 ++ leBytes 8 (linkOwn k) ++ leBytes 8 e.peerWord ++ leBytes 1 (e.profile % 256) ++
    leBytes 1 0 ++ leBytes 2 (linkDisabled (linkOwn k) e.peerWord e.profile)

def queryCapsRun (_w : Waiter) (_q : List Byte) (s : State) : Ans :=
  .done 0 (leBytes 2 0xB000 ++ leBytes 4 s.firmware ++ leBytes 6 Config.macAddress ++ leBytes 4 0 ++
    (List.range 24).flatMap (fun d => leBytes 1 (Config.dieRevision d)) ++ leBytes 2 linkList.length ++ linkList.flatMap s.linkRecord) s

/-- QUERY_CAPS. -/
def execQueryCaps (mb seq : Nat) (body : List Byte) (s : State) : Out := s.runHelm 0x0001 false (some []) mb seq body queryCapsRun

def deviceStateRun (_w : Waiter) (_q : List Byte) (s : State) : Ans :=
  .done 0 (leBytes 1 s.boot.dev.code ++ leBytes 1 (b2n s.boot.activeB) ++ leBytes 1 (b2n s.boot.standbyOk) ++ leBytes 1 s.fab.twin.code ++
    leBytes 2 s.nodeField ++ leBytes 2 0 ++ leBytes 4 s.nor.cast.number ++ leBytes 6 s.hallWaypoint ++ leBytes 2 0) s

/-- DEVICE_STATE. -/
def execDeviceState (mb seq : Nat) (body : List Byte) (s : State) : Out := s.runHelm 0x0002 false (some []) mb seq body deviceStateRun

/-! ### The logbook (16: R486, R487) -/

/-- Entries from an index on; from the oldest where the ring does not hold it. -/
def Logbook.fromIndex (l : Logbook) (start : Nat) : List LogEntry :=
  if l.entries.any (fun e => e.index == start) then l.entries.dropWhile (fun e => e.index != start) else l.entries

def logbookReadRun (_w : Waiter) (q : List Byte) (s : State) : Ans :=
  let most := field q 2 2
  if most = 0 ∨ 128 < most then badAns 2 s
  else
    let es := (s.log.fromIndex (field q 0 2)).take most
    let first := (es.head?.map (fun e => e.index)).getD s.log.next
    .done 0 (leBytes 4 s.log.lost ++ leBytes 2 first ++ leBytes 2 es.length ++ es.flatMap LogEntry.bytes) s

/-- LOGBOOK_READ. -/
def execLogbookRead (mb seq : Nat) (body : List Byte) (s : State) : Out := s.runHelm 0x0004 false (some [2, 2]) mb seq body logbookReadRun

/-- LOGBOOK_CLEAR: the first entry afterwards is LOGBOOK_CLEARED, which is PINNED. -/
def logbookClearRun (_w : Waiter) (_q : List Byte) (s : State) : Ans :=
  let n := s.log.entries.length
  let lost := s.log.lost
  let s := { s with log := { s.log with entries := [], lost := 0, pinNext := true } }
  .done 0 (leBytes 2 n ++ leBytes 2 0) (s.logOnly 0x0114 exsarUnit (leBytes 2 n ++ leBytes 4 lost))

/-- LOGBOOK_CLEAR. -/
def execLogbookClear (mb seq : Nat) (body : List Byte) (s : State) : Out := s.runHelm 0x0005 true (some []) mb seq body logbookClearRun

/-! ### Subscriptions (12: R389, R395) -/

/-- Classes that a mailbox of a partition may take, of those defined. -/
def classesFor (sb : Bool) (pt : Nat) : Nat := if sb then 0x6C0 else if pt = 0 then 0xFFF else 0xF

def subscribeRun (w : Waiter) (q : List Byte) (s : State) : Ans :=
  let m := field q 0 1
  let pt := field q 1 1
  let mask := field q 4 8 % 2 ^ 12
  let sb := m == 0xFF
  if !mayName w pt || (sb && ptOf w != 0) then errAns 6 s
  else if 7 < m && !sb then badAns 0 s
  else if sb && pt != 0 then badAns 1 s
  else if !s.partExists pt then errAns 8 s
  else if Nat.land mask (classesFor sb pt) ≠ mask then badAns 4 s
  else
    let mb := if sb then sbKey else 8 * pt + m
    .done 0 (leBytes 8 (s.mbox mb).mask) (s.setMbox mb { s.mbox mb with mask := mask })

/-- SUBSCRIBE. -/
def execSubscribe (mb seq : Nat) (body : List Byte) (s : State) : Out := s.runHelm 0x0006 false (some [1, 1, 2, 8]) mb seq body subscribeRun

/-! ### HOST_PORT_CONFIG (12: R393, R396) -/

/-- A number in network form: the most significant byte first. -/
def beNat (bs : List Byte) : Nat := leNat bs.reverse

/-- One setting's 16 bytes: addresses in network form, numbers little-endian. -/
def HostCfg.bytesOf (c : HostCfg) (i : Nat) : List Byte :=
  match i with
  | 0 => leBytes 16 c.udpPort
  | 1 => leBytes 16 c.vlan
  | 2 => leBytes 16 c.helmPcp
  | 3 => leBytes 16 c.bulkPcp
  | 4 => (leBytes 16 c.ipv6).reverse
  | 5 => padTo 16 (leBytes 4 c.ipv4).reverse
  | 6 => leBytes 16 c.mtu
  | 7 => leBytes 16 c.rto
  | _ => leBytes 16 c.sessionTimeout

/-- A number that lies in a range. -/
def ranged (lo hi v : Nat) (f : Nat → HostCfg) : Option HostCfg := if lo ≤ v ∧ v ≤ hi then some (f v) else none

/-- One setting written from its 16 bytes; none where the value is out of range or no unicast address. Times are in microseconds. -/
def HostCfg.put (c : HostCfg) (i : Nat) (bs : List Byte) : Option HostCfg :=
  let v := leNat bs
  match i with
  | 0 => ranged 1024 65535 v (fun v => { c with udpPort := v })
  | 1 => ranged 0 4094 v (fun v => { c with vlan := v })
  | 2 => ranged 0 7 v (fun v => { c with helmPcp := v })
  | 3 => ranged 0 7 v (fun v => { c with bulkPcp := v })
  | 4 => ranged 0 (255 * 2 ^ 120 - 1) (beNat bs) (fun v => { c with ipv6 := v })
  | 5 => ranged 0 (224 * 2 ^ 24 - 1) (beNat (bs.take 4)) (fun v => { c with ipv4 := v })
  | 6 => ranged 1280 9216 v (fun v => { c with mtu := v })
  | 7 => ranged 100 100000 v (fun v => { c with rto := v })
  | _ => ranged 1000000 600000000 v (fun v => { c with sessionTimeout := v })

/-- The selected settings written in order, or the offset of the first bad value. -/
def putSettings : List Nat → Nat → List Byte → HostCfg → HostCfg ⊕ Nat
  | [], _, _, c => .inl c
  | i :: is, off, q, c =>
    match c.put i (slice q off 16) with
    | none => .inr off
    | some c => putSettings is (off + 16) q c

/-- Response frames not yet sent, cut to a new payload limit: the bytes of a response's frames are joined and cut afresh. -/
def resplit (mb limit : Nat) : List OutEntry → List Byte → List OutEntry
  | [], _ => []
  | e :: es, acc =>
    if e.kind == .response && !e.sent && !e.done then
      let bs := acc ++ e.body.drop 8
      if e.more then resplit mb limit es bs
      else respFrames mb (field e.body 0 2) (field e.body 2 1) (field e.body 4 4) limit (bs.length + 1) bs ++ resplit mb limit es []
    else e :: resplit mb limit es acc

/-- Every mailbox's unsent responses cut for the HELM_MTU in force. -/
def State.resplitAll (s : State) : State :=
  { s with helm := { s.helm with
    mailboxes := s.helm.mailboxes.map (fun (x : Nat × Mailbox) =>
      if x.1 = sbKey then x else (x.1, { x.2 with out := resplit x.1 (s.framePayload x.1) x.2.out [] })) } }

/-- The CONFIG event that a change of settings posts; the spec names neither its code nor its severity and DATA (assumption 8). -/
def State.postConfig (s : State) : State :=
  let c := s.fresh 20
  let v := c.2.fresh 21
  let d := v.2.fresh 22
  let s := d.2
  let code := c.1 % 2 ^ 16
  let data := leBytes 64 d.1
  let s := { s with log := s.log.take code 9 (v.1 % 4) exsarUnit s.now0 data }
  s.postTo 0 code 9 (v.1 % 4) exsarUnit s.now0 data

/-- Every setting in the form of the request. -/
def HostCfg.answer (c : HostCfg) : List Byte := leBytes 2 0x1FF ++ leBytes 2 0 ++ (List.range 9).flatMap c.bytesOf

def hostPortConfigRun (_w : Waiter) (q : List Byte) (s : State) : Ans :=
  let items := field q 0 2
  let is := setBits 16 0 items
  match if q.length < 4 then shortAt [2, 2] 0 q.length else none with
  | some off => badAns off s
  | none =>
    if 0x1FF < items then badAns 0 s
    else if q.length ≠ 4 + 16 * is.length then badAns (4 + 16 * min is.length ((q.length - 4) / 16)) s
    else
      match putSettings is 4 q s.nor.hostCfg with
      | .inr off => badAns off s
      | .inl c =>
        if is.isEmpty then .done 0 c.answer s
        else if !s.norRange then errAns 5 s
        else .done 0 c.answer ({ s with nor := { s.nor with hostCfg := c } }).resplitAll.postConfig

/-- HOST_PORT_CONFIG. -/
def execHostPortConfig (mb seq : Nat) (body : List Byte) (s : State) : Out := s.runHelm 0x0007 true none mb seq body hostPortConfigRun

/-! ### The package budget (15: R462) -/

/-- POWER_BUDGET_SET, over the sideband only. -/
def powerBudgetSetRun (w : Waiter) (q : List Byte) (s : State) : Ans :=
  let b := field q 0 4
  if w.1 ≠ sbKey then errAns 6 s
  else if b < 1800 ∨ 7500 < b then badAns 0 s
  else .done 0 (leBytes 4 b) { s with power := { s.power with budget := b } }

def execPowerBudgetSet (mb seq : Nat) (body : List Byte) (s : State) : Out := s.runHelm 0x0008 true (some [4]) mb seq body powerBudgetSetRun

def powerBudgetGetRun (_w : Waiter) (_q : List Byte) (s : State) : Ans :=
  .done 0 (leBytes 4 s.power.budget ++ leBytes 4 s.power.measured) s

/-- POWER_BUDGET_GET. -/
def execPowerBudgetGet (mb seq : Nat) (body : List Byte) (s : State) : Out :=
  s.runHelm 0x0009 false (some []) mb seq body powerBudgetGetRun

end Sys2Proof.Machine
end

