-- ==== Sys2Proof/Machine/HelmParts.lean ====
section
/-!
DEFINITION. Helm commands about partitions, windows, key slots, tag members, joining a fabric and the routing tables
(13: R405 to R407, R414; 04: R116; 08: R236, R237, R240, R251; 10: R330, R339, R340, R343; 17: R506).
-/
namespace Sys2Proof.Machine

open Sys2Proof

/-! ### Partitions (13: R405, R406; 04: R116) -/

/-- Pipelines that a partition has loaded. -/
def State.loadedOf (s : State) (pt : Nat) : Nat := ((Tbl.vals s.pipes).filter (fun p => p.partition == pt)).length

/-- Is a field's change selected? CHANGE bits: HALL_TAG, STAGE_SET, MAX_PIPELINES, WEIGHT, ADMIT_CAP, RUN_AHEAD_MAX. -/
def chosen (change i : Nat) : Bool := bit i change

/-- The first selected parameter that breaks a rule (13: R405; 04: R116; 08: R236). -/
def State.partBad (s : State) (pt change : Nat) (q : List Byte) : Option Nat :=
  let others := s.parts.filter (fun (p : Nat × Partition) => p.1 ≠ pt)
  let out := fun (off lo hi : Nat) => decide (field q off 1 < lo) || decide (hi < field q off 1)
  let tag := field q 2 2
  let set := field q 8 45
  if chosen change 0 && (tag == 0 || others.any (fun (p : Nat × Partition) => p.2.hallTag == tag)) then some 2
  else if chosen change 2 && out 4 1 64 then some 4
  else if chosen change 3 && out 5 1 255 then some 5
  else if chosen change 4 && out 6 1 100 then some 6
  else if chosen change 5 && out 7 0 3 then some 7
  else if chosen change 1 && others.any (fun (p : Nat × Partition) => Nat.land p.2.stageSet set != 0) then some 8
  else none

/-- The selected parameters of a request written into a partition. -/
def Partition.put (p : Partition) (change : Nat) (q : List Byte) : Partition :=
  { p with
    hallTag := if chosen change 0 then field q 2 2 else p.hallTag
    stageSet := if chosen change 1 then field q 8 45 else p.stageSet
    maxPipelines := if chosen change 2 then field q 4 1 else p.maxPipelines
    weight := if chosen change 3 then field q 5 1 else p.weight
    admitCap := if chosen change 4 then field q 6 1 else p.admitCap
    runAheadMax := if chosen change 5 then field q 7 1 else p.runAheadMax }


def partitionCreateRun (_w : Waiter) (q : List Byte) (s : State) : Ans :=
  let pt := field q 0 1
  if pt = 0 ∨ 15 < pt ∨ s.partExists pt = true then badAns 0 s
  else
    match s.partBad pt 0x3F q with
    | some off => badAns off s
    | none => okAns ({ s with parts := Tbl.set s.parts pt (({ hallTag := 0 } : Partition).put 0x3F q) }).refreshMembers

/-- The fields of PARTITION_CREATE in order. -/
def partSizes : List Nat := [1, 1, 2, 1, 1, 1, 1, 45]

/-- PARTITION_CREATE. -/
def execPartitionCreate (mb seq : Nat) (body : List Byte) (s : State) : Out :=
  s.runHelm 0x0010 true (some partSizes) mb seq body partitionCreateRun

/-- Does a new stage set leave out a stage that a pipeline holds (04: R116)? -/
def State.losesBound (s : State) (old new : Nat) : Bool :=
  (List.range 360).any (fun k => bit k old && !bit k new && (s.stage k).bind.isSome)

/-- PARTITION_SET: CHANGE stands at offset 1, where PARTITION_CREATE has its reserved byte. -/
def partitionSetRun (_w : Waiter) (q : List Byte) (s : State) : Ans :=
  let pt := field q 0 1
  let change := field q 1 1
  match if pt = 0 ∨ 15 < pt then none else Tbl.get? s.parts pt with
  | none => if pt = 0 ∨ 15 < pt then badAns 0 s else errAns 8 s
  | some p =>
    match s.partBad pt change q with
    | some off => badAns off s
    | none =>
      let n := p.put change q
      let loaded := s.loadedOf pt
      if s.losesBound p.stageSet n.stageSet || decide (n.maxPipelines < loaded) || (n.hallTag != p.hallTag && decide (0 < loaded)) then
        errAns 4 s
      else
        let s1 := { s with parts := Tbl.set s.parts pt n }
        if n.hallTag = p.hallTag then okAns s1
        else okAns ((s1.endMember p.hallTag).dropAllLines (fun l => l.hallTag == p.hallTag)).refreshMembers

/-- PARTITION_SET. -/
def execPartitionSet (mb seq : Nat) (body : List Byte) (s : State) : Out :=
  s.runHelm 0x0011 true (some partSizes) mb seq body partitionSetRun

/-- Host channels that a partition owns. -/
def State.ownedChans (s : State) (pt : Nat) : List Nat :=
  (List.range 256).filter (fun k => decide (k % 64 < 48) && (s.chan k).owner == pt)

/-- The port's record of a partition: sessions, half-open sessions, mailboxes, bulk streams and memory commands (12: R385, R396). -/
def State.dropPort (s : State) (pt : Nat) : State :=
  let s := (s.helm.sessions.filter (fun x => x.partition == pt)).foldl (fun acc x => acc.closeSession x (some 3)) s
  let own := fun (mb : Nat) => mb != sbKey && mb / 8 == pt
  { s with helm := { s.helm with
    halfOpen := s.helm.halfOpen.filter (fun h => h.partition ≠ pt)
    mailboxes := s.helm.mailboxes.filter (fun (x : Nat × Mailbox) => !own x.1)
    bulk := s.helm.bulk.filter (fun (x : Nat × BulkStream) => !own x.2.mailbox)
    memOps := s.helm.memOps.filter (fun (x : Nat × MemOp) => !own x.1) } }

/-- A partition removed (13: R406; 08: R251, R276). -/
def State.removePart (s : State) (pt : Nat) : State :=
  let tag := s.tagOfPart pt
  let own := s.ownedChans pt
  let s := own.foldl (fun acc k => (acc.abortChan k).onChan k (fun c => { c with owner := 0 })) s
  let s := (s.fab.colls.filter (fun c => c.partition == pt)).foldl (fun acc c => acc.endColl c 3) s
  let s := (s.endMember tag).dropAllLines (fun l => l.hallTag == tag)
  let s := s.dropPort pt
  { s with
    parts := Tbl.erase s.parts pt
    nor := { s.nor with keys := s.nor.keys.filter (fun (k : Nat × List Byte) => k.1 / 4 ≠ pt) } }

/-- Has a partition a key in its slots? -/
def State.hasKeys (s : State) (pt : Nat) : Bool := s.nor.keys.any (fun (k : Nat × List Byte) => k.1 / 4 == pt)

def partitionRemoveRun (_w : Waiter) (q : List Byte) (s : State) : Ans :=
  let pt := field q 0 1
  if pt = 0 ∨ 15 < pt then badAns 0 s
  else if !s.partExists pt then errAns 8 s
  else if 0 < s.loadedOf pt then errAns 4 s
  else if s.hasKeys pt && !s.norRange then errAns 5 s
  else okAns (s.removePart pt).goOn

/-- PARTITION_REMOVE. -/
def execPartitionRemove (mb seq : Nat) (body : List Byte) (s : State) : Out :=
  s.runHelm 0x0012 true (some [1, 3]) mb seq body partitionRemoveRun

/-- The fields PARTITION_CREATE gave, or PARTITION_SET changed. -/
def Partition.bytes (p : Partition) (pt : Nat) : List Byte :=
  leBytes 1 pt ++ leBytes 1 0 ++ leBytes 2 p.hallTag ++ leBytes 1 p.maxPipelines ++ leBytes 1 p.weight ++ leBytes 1 p.admitCap ++
    leBytes 1 p.runAheadMax ++ leBytes 45 p.stageSet

def partitionQueryRun (w : Waiter) (q : List Byte) (s : State) : Ans :=
  let pt := field q 0 1
  if !mayName w pt then errAns 6 s
  else if pt = 0 ∨ 15 < pt then badAns 0 s
  else
    match Tbl.get? s.parts pt with
    | none => errAns 8 s
    | some p => .done 0 (p.bytes pt ++ leBytes 1 (s.loadedOf pt) ++ leBytes 3 0) s

/-- PARTITION_QUERY. -/
def execPartitionQuery (mb seq : Nat) (body : List Byte) (s : State) : Out :=
  s.runHelm 0x0013 false (some [1, 3]) mb seq body partitionQueryRun

/-! ### Windows (08: R237, R240; 10: R330) -/

/-- The entry that 32 bytes spell, reserved bits dropped. -/
def entryOf (bs : List Byte) : WinEntry :=
  let lo := field bs 0 2 % 2 ^ 14
  let hi := field bs 2 2 % 2 ^ 14
  let acc := field bs 4 2 % 32
  let base := field bs 8 8
  let limit := field bs 16 8
  { nodeLo := lo, nodeHi := hi, access := acc, base := base, limit := limit
    raw := leBytes 2 lo ++ leBytes 2 hi ++ leBytes 2 acc ++ leBytes 2 0 ++ leBytes 8 base ++ leBytes 8 limit ++ leBytes 8 0 }

/-- The first field of an entry out of range, by its offset in the entry. -/
def WinEntry.bad (e : WinEntry) : Option Nat :=
  if e.nodeHi < e.nodeLo then some 2
  else if e.base % 65536 ≠ 0 ∨ 2 ^ 42 ≤ e.base then some 8
  else if (e.limit + 1) % 65536 ≠ 0 ∨ 2 ^ 42 ≤ e.limit ∨ e.limit < e.base then some 16
  else none

/-- Do two entries cover a common byte of a node, and does one of them let it be changed (08: R240)? -/
def WinEntry.clash (e f : WinEntry) (node : Nat) : Bool :=
  decide (e.nodeLo ≤ node) && decide (node ≤ e.nodeHi) && decide (f.nodeLo ≤ node) && decide (node ≤ f.nodeHi) &&
    decide (e.base ≤ f.limit) && decide (f.base ≤ e.limit) &&
    (Nat.land e.access (accWrite + accAtomic) != 0 || Nat.land f.access (accWrite + accAtomic) != 0)

/-- Does an entry of another partition clash? -/
def State.clashes (s : State) (pt : Nat) (e : WinEntry) : Bool :=
  s.parts.any (fun (p : Nat × Partition) => p.1 != pt && (Tbl.vals p.2.window).any (fun f => e.clash f s.ownNode))

/-- Does the new entry grant all that the old one granted? -/
def WinEntry.keeps (old : WinEntry) (new : Option WinEntry) : Bool :=
  match new with
  | none => false
  | some n =>
    decide (n.nodeLo ≤ old.nodeLo) && decide (old.nodeHi ≤ n.nodeHi) && decide (n.base ≤ old.base) && decide (old.limit ≤ n.limit) &&
      Nat.land n.access old.access == old.access

/-- The partition whose window a waiting request has passed, at its entry hub or, for another package's, at its home. -/
def State.heldPartition (s : State) : Instr → Option Nat
  | .memRd q _ | .memWr q _ | .atomicRequest q _ _ | .hint q => some q.partition
  | .rd q | .wr q _ | .fabricAtomic q _ | .fabricHint q => s.partOfTag q.hallTag
  | _ => none

/-- Open requests that have passed a partition's window: at the entry hub, or, for another package's, at the home. -/
def State.checkedBy (s : State) (pt : Nat) : List Nat :=
  let tag := s.tagOfPart pt
  (s.fab.outstanding.filter (fun r => if r.fromNode.isNone then r.partition == pt else r.hallTag == tag)).map (fun r => r.reqId) ++
    (s.relayWait.filter (fun h => s.heldPartition h.cmd == some pt)).filterMap (fun h => h.id)

/-- A window entry set or cleared. A change that takes access away completes once the requests already checked have completed. -/
def State.putEntry (s : State) (w : Waiter) (pt k : Nat) (p : Partition) (e : Option WinEntry) : Ans :=
  let win := match e with
    | none => Tbl.erase p.window k
    | some x => Tbl.set p.window k x
  let s1 := { s with parts := Tbl.set s.parts pt { p with window := win } }
  let taken := ((Tbl.get? p.window k).map (fun old => !old.keeps e)).getD false
  let ids := s.checkedBy pt
  if !taken || ids.isEmpty then okAns s1
  else .runs { s1 with helm := { s1.helm with winWaits := s1.helm.winWaits ++ [{ partition := pt, ids := ids, waiter := w }] } }

def windowSetRun (w : Waiter) (q : List Byte) (s : State) : Ans :=
  let pt := field q 0 1
  let k := field q 1 1
  let bs := slice q 4 32
  let e := entryOf bs
  match if pt = 0 ∨ 15 < pt then none else Tbl.get? s.parts pt with
  | none => if pt = 0 ∨ 15 < pt then badAns 0 s else errAns 8 s
  | some p =>
    if 31 < k then badAns 1 s
    else if s.helm.winWaits.any (fun x => x.partition == pt) then errAns 2 s
    else if bs.all (fun b => b == 0) then s.putEntry w pt k p none
    else
      match e.bad with
      | some off => badAns (4 + off) s
      | none =>
        if s.clashes pt e || e.coversSpill s.ownNode s.spillSize then badAns 4 s
        else s.putEntry w pt k p (some e)

/-- WINDOW_SET. -/
def execWindowSet (mb seq : Nat) (body : List Byte) (s : State) : Out :=
  s.runHelm 0x0014 true (some [1, 1, 2, 32]) mb seq body windowSetRun

def windowReadRun (w : Waiter) (q : List Byte) (s : State) : Ans :=
  let pt := field q 0 1
  if !mayName w pt then errAns 6 s
  else if 15 < pt then badAns 0 s
  else if !s.partExists pt then errAns 8 s
  else .done 0 ((List.range 32).flatMap (s.entryBytes pt)) s

/-- WINDOW_READ. -/
def execWindowRead (mb seq : Nat) (body : List Byte) (s : State) : Out :=
  s.runHelm 0x0015 false (some [1, 3]) mb seq body windowReadRun

/-! ### Key slots (13: R407; 17: R506) -/

/-- Was the mailbox's session opened on PT0 slot 3? -/
def State.ownerSession (s : State) (w : Waiter) : Bool := s.helm.sessions.any (fun x => x.key == w.1 && x.partition == 0 && x.keySlot == 3)

def keySlotSetRun (w : Waiter) (q : List Byte) (s : State) : Ans :=
  let pt := field q 0 1
  let slot := field q 1 1
  let key := slice q 4 64
  if 15 < pt then badAns 0 s
  else if 3 < slot then badAns 1 s
  else if !s.partExists pt then errAns 8 s
  else if pt = 0 ∧ slot = 3 ∧ s.ownerSession w = false then errAns 6 s
  else if !s.norRange then errAns 5 s
  else
    let keys := if key.all (fun b => b == 0) then Tbl.erase s.nor.keys (4 * pt + slot) else Tbl.set s.nor.keys (4 * pt + slot) key
    okAns { s with nor := { s.nor with keys := keys } }

/-- KEY_SLOT_SET. -/
def execKeySlotSet (mb seq : Nat) (body : List Byte) (s : State) : Out :=
  s.runHelm 0x0016 true (some [1, 1, 2, 64]) mb seq body keySlotSetRun

def keySlotReadRun (w : Waiter) (q : List Byte) (s : State) : Ans :=
  let pt := field q 0 1
  if !mayName w pt then errAns 6 s
  else if 15 < pt then badAns 0 s
  else if !s.partExists pt then errAns 8 s
  else .done 0 ((List.range 4).flatMap (fun i => padTo 64 (Tbl.getD s.nor.keys (4 * pt + i) []))) s

/-- KEY_SLOT_READ: an empty slot reads as zeros. -/
def execKeySlotRead (mb seq : Nat) (body : List Byte) (s : State) : Out :=
  s.runHelm 0x0017 false (some [1, 3]) mb seq body keySlotReadRun

/-! ### Tag members (13: R407; 08: R593) -/

/-- The ranges of a TAG_MEMBERS payload. -/
def memberRanges (q : List Byte) (n : Nat) : List (Nat × Nat) := (List.range n).map (fun i => (field q (4 + 4 * i) 2, field q (6 + 4 * i) 2))

/-- The offset of the first range out of order or beyond node 0x3FFF; `low` is the lowest node that may come next. -/
def rangesBad : List (Nat × Nat) → Nat → Nat → Option Nat
  | [], _, _ => none
  | r :: rs, low, off =>
    if r.1 < low ∨ 0x3FFF < r.1 then some off
    else if r.2 < r.1 ∨ 0x3FFF < r.2 then some (off + 2)
    else rangesBad rs (r.2 + 1) (off + 4)

def tagMembersRun (_w : Waiter) (q : List Byte) (s : State) : Ans :=
  let tag := field q 0 2
  let n := field q 2 2
  match if q.length < 4 then shortAt [2, 2] 0 q.length else none with
  | some off => badAns off s
  | none =>
    if n = 0 ∨ 64 < n then badAns 2 s
    else if q.length ≠ 4 + 4 * n then badAns 4 s
    else
      let rs := memberRanges q n
      match rangesBad rs 0 4 with
      | some off => badAns off s
      | none =>
        if (s.tagSt tag).advance.isSome || s.fab.colls.any (fun c => c.hallTag == tag) then errAns 2 s
        else okAns ((s.setTag tag { s.tagSt tag with members := rs }).refreshMember tag)

/-- TAG_MEMBERS. -/
def execTagMembers (mb seq : Nat) (body : List Byte) (s : State) : Out := s.runHelm 0x0018 true none mb seq body tagMembersRun

def tagMembersReadRun (w : Waiter) (q : List Byte) (s : State) : Ans :=
  let tag := field q 0 2
  if ptOf w ≠ 0 ∧ s.partOfTag tag ≠ some (ptOf w) then errAns 6 s
  else
    let rs := (s.tagSt tag).members
    .done 0 (leBytes 2 rs.length ++ leBytes 2 0 ++ rs.flatMap (fun (r : Nat × Nat) => leBytes 2 r.1 ++ leBytes 2 r.2)) s

/-- TAG_MEMBERS_READ. -/
def execTagMembersRead (mb seq : Nat) (body : List Byte) (s : State) : Out :=
  s.runHelm 0x0019 false (some [2, 2]) mb seq body tagMembersReadRun

/-! ### FABRIC_JOIN (13: R414) -/

/-- May the package join now: no pipeline works and no channel runs? -/
def State.mayJoin (s : State) : Bool :=
  (Tbl.vals s.pipes).all (fun p => p.st != .running && p.st != .draining && p.st != .suspended) && (Tbl.vals s.chans).all (fun c => !c.st.runs)

/-- What a second join does before it takes effect: every channel down, every line gone, tables cleared, arms dropped. -/
def State.leaveFabric (s : State) : State :=
  let s := (List.range 128).foldl (fun acc i => acc.portDown (i / 16) (i % 16) 5) s
  let s := s.dropAllLines (fun _ => true)
  { s with
    fab := { s.fab with groupTable := [], nodeTable := [], heldWords := [], twinArm := none }
    upd := { s.upd with castArm := none, updArm := none } }

def fabricJoinRun (_w : Waiter) (q : List Byte) (s : State) : Ans :=
  let node := field q 0 2
  let hall := field q 2 2
  if !s.mayJoin then errAns 4 s
  else if 0x3FFF < node then badAns 0 s
  else if hall = 0 ∨ 16384 < hall then badAns 2 s
  else if s.windowsCoverSpill node s.spillSize then badAns 0 s
  else
    let again := s.fab.node.isSome
    let s := if again then s.leaveFabric else s
    let s := { s with fab := { s.fab with node := some node, hallSize := hall, switched := field q 8 16 } }
    let s := s.refreshModes
    okAns ((if again then (Tbl.keys s.tags).foldl State.rejoinMember s else s.refreshMembers).goOn)

/-- FABRIC_JOIN. -/
def execFabricJoin (mb seq : Nat) (body : List Byte) (s : State) : Out :=
  s.runHelm 0x0040 true (some [2, 2, 4, 16]) mb seq body fabricJoinRun

/-! ### Routing tables (10: R339, R340, R343) -/

/-- Words of entry `i` of a ROUTE_WRITE payload. -/
def entryWords (q : List Byte) (i : Nat) : List Nat := (List.range 4).map (fun j => field q (8 + 36 * i + 8 * j) 8)

/-- A word that may be written: unused, or 1 to 8 hops with NEXT 0. -/
def wordOk (w : Nat) : Bool := nhopsOf w == 0 || (decide (nhopsOf w ≤ 8) && nextOf w == 0)

/-- The first bad field of an entry. -/
def routeBad (q : List Byte) (i : Nat) : Option Nat :=
  let at_ := 4 + 36 * i
  if 1 < field q at_ 1 then some at_
  else if field q at_ 1 = 1 ∧ 63 < field q (at_ + 1) 1 then some (at_ + 1)
  else ((List.range 4).find? (fun j => !wordOk ((entryWords q i).getD j 0))).map (fun j => at_ + 4 + 8 * j)

/-- One entry written; the holds of its words end. -/
def State.writeRoute (s : State) (table index : Nat) (ws : List Nat) : State :=
  { s with fab := { s.fab with
    groupTable := if table = 0 then Tbl.set s.fab.groupTable index ws else s.fab.groupTable
    nodeTable := if table = 0 then s.fab.nodeTable else Tbl.set s.fab.nodeTable index ws
    heldWords := s.fab.heldWords.filter (fun (h : Nat × Nat) => h.1 ≠ 256 * table + index) } }

def routeWriteRun (_w : Waiter) (q : List Byte) (s : State) : Ans :=
  let n := field q 0 2
  match if q.length < 4 then shortAt [2, 2] 0 q.length else none with
  | some off => badAns off s
  | none =>
    if n = 0 ∨ 128 < n then badAns 0 s
    else if q.length ≠ 4 + 36 * n then badAns 4 s
    else
      match (List.range n).findSome? (routeBad q) with
      | some off => badAns off s
      | none =>
        okAns (((List.range n).foldl (fun acc i =>
          acc.writeRoute (field q (4 + 36 * i) 1) (field q (5 + 36 * i) 1) (entryWords q i)) s).goOn)

/-- ROUTE_WRITE. -/
def execRouteWrite (mb seq : Nat) (body : List Byte) (s : State) : Out := s.runHelm 0x0041 true none mb seq body routeWriteRun

/-- One entry as ROUTE_READ gives it: as written, then HELD of each word. -/
def State.routeBytes (s : State) (table index : Nat) : List Byte :=
  let place := 256 * table + index
  let ws := (List.range 4).map (fun j => (s.routeWords place).getD j 0)
  leBytes 1 table ++ leBytes 1 index ++ leBytes 2 0 ++ ws.flatMap (leBytes 8) ++
    ws.flatMap (fun w => leBytes 1 (b2n (s.fab.heldWords.contains (place, wordKey w))))

def routeReadRun (_w : Waiter) (q : List Byte) (s : State) : Ans :=
  let table := field q 0 1
  let first := field q 1 1
  let n := field q 2 2
  let size := if table = 0 then 256 else 64
  if 1 < table then badAns 0 s
  else if size ≤ first then badAns 1 s
  else if size < first + n then badAns 2 s
  else .done 0 ((List.range n).flatMap (fun i => s.routeBytes table (first + i))) s

/-- ROUTE_READ. -/
def execRouteRead (mb seq : Nat) (body : List Byte) (s : State) : Out := s.runHelm 0x0042 true (some [1, 1, 2]) mb seq body routeReadRun

end Sys2Proof.Machine
end

