-- ==== Sys2Proof/Machine/MStage.lean ====
section
/-!
DEFINITION. Matrix stages: one A row through a B tile, the accumulator tiles, slice mode, and the drain (03: R82 to R90, R592; 02: R31,
R45 to R50, R53 to R56). One GEMM step takes one A row, and with B or C0 on IN1 also a record of it.
-/
namespace Sys2Proof.Machine

open Sys2Proof

/-! ### Shapes -/

/-- K-elements of a K tile. -/
def mKt (e : List Byte) : Nat := if mSlice e then 512 else kTile (mFmtA e) (mFmtB e) (mSparse e)
def mRowsAt (e : List Byte) (rt : Nat) : Nat := min 512 (mRows e - 512 * rt)
def mColsAt (e : List Byte) (nt : Nat) : Nat := min 512 (mN e - 512 * nt)
def mKAt (e : List Byte) (kt : Nat) : Nat := min (mKt e) (mK e - mKt e * kt)
def ceilDiv (a b : Nat) : Nat := (a + b - 1) / b

/-- Is the accumulator INT32? -/
def mInt (e : List Byte) : Bool := mFmtA e == .int8 || mFmtA e == .int4

/-- Bytes of an A row of a K tile on IN0: elements, then MX scales (assumption 24). -/
def aRowBytes (e : List Byte) (kn : Nat) : Nat := fmtBytes (mFmtA e) kn + if (mFmtA e).isMx then kn / 32 else 0

/-- Kept K-elements of a column of B. -/
def keptOf (e : List Byte) (kn : Nat) : Nat := if mSparse e then kn / 2 else kn

/-- Bytes of a B tile on IN1: elements, scales, metadata, each column after column (assumption 24). -/
def bTileBytes (e : List Byte) (cols kn : Nat) : Nat :=
  fmtBytes (mFmtB e) (cols * keptOf e kn) + (if (mFmtB e).isMx then cols * (kn / 32) else 0) +
    if mSparse e then cols * ceilDiv kn 8 else 0

/-! ### Operands -/

/-- Codes and scales of a K tile of one line. -/
abbrev Line := List Nat × List Nat

/-- A row of A in the local store. -/
def aFromLs (j : Job) (e : List Byte) (m : Store) (plane r k0 kn : Nat) : Line :=
  let w := (mFmtA e).width
  let base := j.p.lsOff j.i j.b (field e 0x18 4) + plane * mRows e * mK e
  let sc := j.p.lsOff j.i j.b (field e 0x28 4)
  (if mAKm e then (List.range kn).flatMap (fun k => lsElems m base w ((k0 + k) * mRows e + r) 1) else lsElems m base w (r * mK e + k0) kn,
    if (mFmtA e).isMx then lsElems m sc 8 (r * (mK e / 32) + k0 / 32) (kn / 32) else [])

/-- A row of A from IN0. -/
def aFromIn (e : List Byte) (bs : List Byte) (kn : Nat) : Line :=
  ((unpack (mFmtA e).width bs).take kn, (slice bs (fmtBytes (mFmtA e) kn) (if (mFmtA e).isMx then kn / 32 else 0)).map (·.toNat))

/-- Two kept values of a group of four in their places; a pair with i0 ≥ i1 names the first alone (02: R53, R54). -/
def placePair (meta_ v0 v1 : Nat) : List Nat :=
  let i0 := meta_ % 4
  let i1 := meta_ / 4 % 4
  (List.range 4).map (fun i => if i = i0 then v0 else if i0 < i1 ∧ i = i1 then v1 else 0)

/-- A 2:4 line made dense (03: R88). -/
def densify : List Nat → List Nat → List Nat
  | m :: ms, v0 :: v1 :: vs => placePair m v0 v1 ++ densify ms vs
  | _, _ => []

/-- A column of B in the local store. Metadata takes K / 8 bytes a column, rounded up where 4 elements of K are left (assumption 70). -/
def bFromLs (j : Job) (e : List Byte) (m : Store) (plane c k0 kn : Nat) : Line :=
  let w := (mFmtB e).width
  let kept := keptOf e (mK e)
  let base := j.p.lsOff j.i j.b (field e 0x1C 4) + plane * mN e * mK e
  let codes := if mBKn e then (List.range kn).flatMap (fun k => lsElems m base w ((k0 + k) * mN e + c) 1)
    else lsElems m base w (c * kept + keptOf e k0) (keptOf e kn)
  let meta_ := lsElems m (j.p.lsOff j.i j.b (field e 0x24 4) + c * ceilDiv (mK e) 8) 4 (k0 / 4) (kn / 4)
  (if mSparse e then densify meta_ codes else codes,
    if (mFmtB e).isMx then lsElems m (j.p.lsOff j.i j.b (field e 0x20 4)) 8 (c * (mK e / 32) + k0 / 32) (kn / 32) else [])

/-- A column of a B tile from IN1. -/
def bFromIn (e : List Byte) (bs : List Byte) (cols c kn : Nat) : Line :=
  let f := mFmtB e
  let kept := keptOf e kn
  let o1 := fmtBytes f (cols * kept)
  let o2 := o1 + if f.isMx then cols * (kn / 32) else 0
  let codes := unpackNat f.width kept (leNat (bs.take o1) / 2 ^ (f.width * (c * kept)))
  let meta_ := unpackNat 4 (kn / 4) (leNat (slice bs (o2 + c * ceilDiv kn 8) (ceilDiv kn 8)))
  (if mSparse e then densify meta_ codes else codes, if f.isMx then (slice bs (o1 + c * (kn / 32)) (kn / 32)).map (·.toNat) else [])

/-! ### One output element (02: R31, R46 to R50) -/

/-- Consecutive groups of at most `g`. -/
def groupsOf (g : Nat) : Nat → List Nat → List (List Nat)
  | 0, _ => []
  | n + 1, cs => if cs.isEmpty then [] else cs.take g :: groupsOf g n (cs.drop g)

/-- An accumulator after one K tile. -/
def accTile (fa fb : Fmt) (acc : Nat) (a b : Line) : Nat × Flags :=
  let step := fun (st : Nat × Flags) (r : Nat × Flags) => (r.1, st.2.or r.2)
  if fa.isInt then accAddInt acc ((List.zipWith (fun x y => toSigned fa.width x * toSigned fb.width y) a.1 b.1).sum)
  else if fa.isMx then
    let n := a.2.length
    let ga := groupsOf 32 n a.1
    let gb := groupsOf 32 n b.1
    (List.range n).foldl (fun st g =>
      step st (accAdd st.1 (mxGroup fa fb (a.2.getD g 0) (b.2.getD g 0) (ga.getD g []) (gb.getD g [])))) (acc, Flags.none)
  else if fa == .fp32 then
    (List.zip a.1 b.1).foldl (fun st xy => step st (fFma .fp32 xy.1 xy.2 st.1)) (acc, Flags.none)
  else
    (List.zip (groupsOf 16 a.1.length a.1) (groupsOf 16 b.1.length b.1)).foldl (fun st g =>
      step st (accAdd st.1 (groupAdd fa g.1 g.2))) (acc, Flags.none)

/-! ### Steps -/

/-- The next tile's place after the one in use; none after the last of the batch (03: R85, R90, R592). -/
def nextTile (e : List Byte) (m : MState) : Option (Nat × Nat × Nat × Nat) :=
  let rts := ceilDiv (mRows e) 512
  let nts := ceilDiv (mN e) 512
  let kts := ceilDiv (mK e) 512
  if mSlice e ∧ m.pair < 27 then some (m.rt, m.nt, m.kt, m.pair + 1)
  else if mSlice e ∧ m.kt + 1 < kts then some (m.rt, m.nt, m.kt + 1, 0)
  else if m.nt + 1 < nts then some (m.rt, m.nt + 1, 0, 0)
  else if m.rt + 1 < rts then some (m.rt + 1, 0, 0, 0)
  else none

/-- A finished tile moved to the drain, if that is free. -/
def toDrain (e : List Byte) (m : MState) : MState :=
  if m.full ∧ m.drain.isNone then
    let m' : MState := { m with drain := some (m.rt, m.nt, 0), drainTile := m.tile, tile := [], full := false, started := false, c0Row := 0 }
    match nextTile e m with
    | some (rt, nt, kt, pair) => { m' with rt := rt, nt := nt, kt := kt, pair := pair, row := 0 }
    | none => { m' with computed := true }
  else m

/-- A C0 row of the local store (03: R592). -/
def c0Row (j : Job) (e : List Byte) (store : Store) (r c0 cols : Nat) : List Nat :=
  lsElems store (j.p.lsOff j.i j.b (field e 0x2C 4)) 32 (r * mN e + c0) cols

/-- Codes set in a tile, row by row of 512. -/
def setRow (t : Tbl Nat) (row : Nat) (codes : List Nat) : Tbl Nat :=
  (List.range codes.length).foldl (fun acc c => Tbl.set acc (512 * row + c) (codes.getD c 0)) t

/-- The tile in use with its C0; a tile whose C0 comes on IN1 takes one row of it. -/
def State.startTile (s : State) (j : Job) (k : Nat) (e : List Byte) : State :=
  let x := s.stage k
  let m := x.m
  let rows := mRowsAt e m.rt
  let cols := mColsAt e m.nt
  match mC0 e with
  | 1 =>
    let t := (List.range rows).foldl (fun acc r => setRow acc r (c0Row j e x.store (512 * m.rt + r) (512 * m.nt) cols)) []
    s.setStage k { x with m := { m with tile := t, started := true } }
  | 2 =>
    match s.absorb j k 1 with
    | none => s
    | some (r, s) => s.onStage k (fun y => { y with m := { y.m with
        tile := setRow y.m.tile y.m.c0Row ((unpack 32 r.payload).take cols)
        c0Row := y.m.c0Row + 1, started := decide (rows ≤ y.m.c0Row + 1) } })
  | _ => s.setStage k { x with m := { m with tile := [], started := true } }

/-- A record of B taken from IN1 into the shadow, and a tile moved from there into the cells where none is. -/
def State.loadB (s : State) (j : Job) (k : Nat) (e : List Byte) : State :=
  let m := (s.stage k).m
  let need := bTileBytes e (mColsAt e m.nt) (mKAt e m.kt)
  let wants := decide (m.bShadow.length < need) && (m.bCur.isNone || !(m.kt + 1 == ceilDiv (mK e) (mKt e) && (nextTile e m).isNone))
  let s := if wants then
      match s.absorb j k 1 with
      | none => s
      | some (r, s) => s.onStage k (fun y => { y with m := { y.m with bShadow := y.m.bShadow ++ r.payload } })
    else s
  s.onStage k (fun y =>
    if y.m.bCur.isNone && decide (need ≤ y.m.bShadow.length) then
      { y with m := { y.m with bCur := some (y.m.bShadow.take need), bShadow := y.m.bShadow.drop need } }
    else y)

/-- The A row of this step: at hand, or complete on IN0. -/
def State.loadA (s : State) (j : Job) (k : Nat) (e : List Byte) : Option Line × State :=
  let x := s.stage k
  let m := x.m
  let kn := mKAt e m.kt
  let pr := slicePairs.getD m.pair (0, 0)
  if mAFromLs e then (some (aFromLs j e x.store (if mSlice e then pr.1 else 0) (512 * m.rt + m.row) (mKt e * m.kt) kn), s)
  else
    match s.absorb j k 0 with
    | none => (none, s)
    | some (r, s) =>
      let bs := m.aPart ++ r.payload
      if aRowBytes e kn ≤ bs.length then
        (some (aFromIn e bs kn), s.onStage k (fun y => { y with m := { y.m with aPart := [] } }))
      else (none, s.onStage k (fun y => { y with m := { y.m with aPart := bs } }))

/-- One A row through the B tile: every column's accumulator takes the K tile. -/
def mRow (j : Job) (e : List Byte) (x : Stage) (a : Line) : List (Nat × Flags) :=
  let m := x.m
  let cols := mColsAt e m.nt
  let kn := mKAt e m.kt
  let pr := slicePairs.getD m.pair (0, 0)
  (List.range cols).map (fun c =>
    let b := match m.bCur with
      | some bs => bFromIn e bs cols c kn
      | none => bFromLs j e x.store (if mSlice e then pr.2 else 0) (512 * m.nt + c) (mKt e * m.kt) kn
    accTile (mFmtA e) (mFmtB e) (Tbl.getD m.tile (512 * m.row + c) 0) a b)

/-- The row counted, and after the last row of the row tile the next K tile, or the tile finished. -/
def afterRow (e : List Byte) (m : MState) : MState :=
  if m.row + 1 < mRowsAt e m.rt then { m with row := m.row + 1 }
  else
    let m := { m with row := 0, bCur := none }
    if !mSlice e ∧ m.kt + 1 < ceilDiv (mK e) (mKt e) then { m with kt := m.kt + 1 }
    else toDrain e { m with kt := if mSlice e then m.kt else 0, full := true }

/-- One step of an M-stage's operation. PASS_ROWS changes neither the values nor their order, so nothing looks at it here (assumption 70). -/
def State.mStep (s : State) (j : Job) (k : Nat) : State :=
  let e := j.p.ent j.i
  let s := s.onStage k (fun x => { x with m := toDrain e x.m })
  let m := (s.stage k).m
  if m.computed || m.full then s
  else
    let s := if m.started then s else s.startTile j k e
    if !(s.stage k).m.started then s
    else
      let s := if mBFromIn1 e then s.loadB j k e else s
      if mBFromIn1 e && (s.stage k).m.bCur.isNone then s
      else
        match s.loadA j k e with
        | (none, s) => s
        | (some a, s) =>
          let out := mRow j e (s.stage k) a
          let s := s.onStage k (fun x =>
            let t := setRow x.m.tile x.m.row (out.map (·.1))
            { x with m := afterRow e { x.m with tile := t } })
          let s := s.bumpStage k 0 (rowSteps (mFmtA e))
          s.raise j.pl k j.b.epoch (out.foldl (fun f r => f.or r.2) Flags.none)

/-- GEMM (03: R82 to R85). -/
def execGemm (st : Nat) (ls : LsRead) (s : State) : Out := s.stageStep st 0 0x10 ls (fun j s => s.mStep j st)

/-- GEMM_SLICE (03: R90; 02: R56). -/
def execGemmSlice (st : Nat) (ls : LsRead) (s : State) : Out := s.stageStep st 0 0x11 ls (fun j s => s.mStep j st)

/-- A value leaves its accumulator in FMT_OUT (03: R89; 02: R41). -/
def drainCode (e : List Byte) (c : Nat) : Nat × Flags :=
  match mFmtOut e with
  | .bf16 => Fmt.encode .bf16 (mSatFinite e) (Fmt.decode .fp32 c)
  | .fp16 => Fmt.encode .fp16 (mSatFinite e) (Fmt.decode .fp32 c)
  | _ => (c, Flags.none)

/-- ACCUMULATOR_DRAIN (03: R89, R592; 05: R156): one row of the draining tile, or with DRAIN_T one column, to OUT0 or to the local store. A
drain to the store waits while the batch runs ahead. -/
def execAccumulatorDrain (st : Nat) (s : State) : Out :=
  match s.job st with
  | none => .next s
  | some j =>
    let e := j.p.ent j.i
    let x := s.stage st
    if stTypeOf e ≠ 0 then .next s
    else
      match x.m.drain with
      | none => .next s
      | some (rt, nt, line) =>
        let rows := mRowsAt e rt
        let cols := mColsAt e nt
        let t := mDrainT e
        let n := if t then rows else cols
        let lines := if t then cols else rows
        let out := (List.range n).map (fun q => drainCode e (Tbl.getD x.m.drainTile (if t then 512 * q + line else 512 * line + q) 0))
        let w := (mFmtOut e).width
        let bytes := pack w (out.map (·.1))
        let r := 512 * rt + (if t then 0 else line)
        let c := 512 * nt + (if t then line else 0)
        let addr := j.p.lsOff j.i j.b (field e 0x2C 4) + w / 8 * (if t then c * mRows e + r else r * mN e + c)
        let room := if mDrainLs e then j.p.isHead j.b.epoch else canEmit j.p j.i 0 1
        if !room then .next s
        else
          let s := if mDrainLs e then s.setStage st { x with store := Store.writeN x.store addr bytes }
            else if (streamsFrom j.p.arm j.i 0).isEmpty then s
            else s.emitRec j st 0 (mRowSeg e && nt + 1 == ceilDiv (mN e) 512) bytes
          let s := s.raise j.pl st j.b.epoch (out.foldl (fun f q => f.or q.2) Flags.none)
          let s := s.onStage st (fun y =>
            let m := if line + 1 < lines then { y.m with drain := some (rt, nt, line + 1) } else { y.m with drain := none, drainTile := [] }
            { y with m := toDrain e m })
          .next (s.settle st)

end Sys2Proof.Machine
end

