-- ==== Sys2Proof/Machine/Requests.lean ====
section
/-!
DEFINITION. Memory requests of the package's units at their entry hub, and the rows of the atomics table (07: R203, R212, R213; 08: R238 to R246,
R257).
-/
namespace Sys2Proof.Machine

open Sys2Proof

/-! ### Requests of units at their entry hub -/

/-- Does the hub still take requests of the unit's die (07: R225)? -/
def State.unitUp (s : State) (unit : Nat) : Bool := (s.die (unit / 128)).life == .up

/-- TYPE of a request's packet, and bytes of its payload (07: R212). -/
def Ask.typ : Ask → Nat
  | .rd _ => 2
  | .wr _ | .part _ => 3
  | .atomic _ _ => 4
  | .hint => 5

def Ask.payload : Ask → List Byte
  | .rd _ | .hint => []
  | .wr d | .part d => d
  | .atomic _ p => p

/-- A request of a unit whose die is not fenced. It crosses its die's link, whose far end discards it and fences the die if its LEN is outside its type's
range (07: R213). -/
def State.unitRequest (s : State) (q : UnitReq) (k : Ask) : State :=
  match s.takeHub (fun p => p.typ == k.typ && p.src == q.src && p.tag == q.tag && p.specific % 2 ^ 56 == q.addr) with
  | none => s
  | some s =>
    if !s.unitUp q.src then s
    else if fenceable (q.src / 128) && !pktOk k.typ k.payload.length then s.hubError (q.src / 128)
    else s.request q k

/-- MEM_RD. -/
def execMemRd (q : UnitReq) (rlenM1 : Nat) (s : State) : Out := .next (s.unitRequest q (.rd (rlenM1 + 1)))

/-- MEM_WR. -/
def execMemWr (q : UnitReq) (data : List Byte) (s : State) : Out := .next (s.unitRequest q (.wr data))

/-- ATOMIC_REQUEST. -/
def execAtomicRequest (q : UnitReq) (op : Nat) (payload : List Byte) (s : State) : Out := .next (s.unitRequest q (.atomic op payload))

/-- HINT. -/
def execHint (q : UnitReq) (s : State) : Out := .next (s.unitRequest q .hint)

/-! ### The atomics table (08: R257), one row each -/

def execAddI32 (q : UnitReq) (payload : List Byte) (s : State) : Out := .next (s.unitRequest q (.atomic 0x01 payload))
def execAddI64 (q : UnitReq) (payload : List Byte) (s : State) : Out := .next (s.unitRequest q (.atomic 0x02 payload))
def execAddF32 (q : UnitReq) (payload : List Byte) (s : State) : Out := .next (s.unitRequest q (.atomic 0x03 payload))
def execAddF64 (q : UnitReq) (payload : List Byte) (s : State) : Out := .next (s.unitRequest q (.atomic 0x04 payload))
def execMinI32 (q : UnitReq) (payload : List Byte) (s : State) : Out := .next (s.unitRequest q (.atomic 0x05 payload))
def execMaxI32 (q : UnitReq) (payload : List Byte) (s : State) : Out := .next (s.unitRequest q (.atomic 0x06 payload))
def execMinI64 (q : UnitReq) (payload : List Byte) (s : State) : Out := .next (s.unitRequest q (.atomic 0x07 payload))
def execMaxI64 (q : UnitReq) (payload : List Byte) (s : State) : Out := .next (s.unitRequest q (.atomic 0x08 payload))
def execMinF32 (q : UnitReq) (payload : List Byte) (s : State) : Out := .next (s.unitRequest q (.atomic 0x09 payload))
def execMaxF32 (q : UnitReq) (payload : List Byte) (s : State) : Out := .next (s.unitRequest q (.atomic 0x0A payload))
def execAnd64 (q : UnitReq) (payload : List Byte) (s : State) : Out := .next (s.unitRequest q (.atomic 0x0B payload))
def execOr64 (q : UnitReq) (payload : List Byte) (s : State) : Out := .next (s.unitRequest q (.atomic 0x0C payload))
def execXor64 (q : UnitReq) (payload : List Byte) (s : State) : Out := .next (s.unitRequest q (.atomic 0x0D payload))
def execSwap32 (q : UnitReq) (payload : List Byte) (s : State) : Out := .next (s.unitRequest q (.atomic 0x0E payload))
def execSwap64 (q : UnitReq) (payload : List Byte) (s : State) : Out := .next (s.unitRequest q (.atomic 0x0F payload))
def execCas32 (q : UnitReq) (payload : List Byte) (s : State) : Out := .next (s.unitRequest q (.atomic 0x10 payload))
def execCas64 (q : UnitReq) (payload : List Byte) (s : State) : Out := .next (s.unitRequest q (.atomic 0x11 payload))
def execCas128 (q : UnitReq) (payload : List Byte) (s : State) : Out := .next (s.unitRequest q (.atomic 0x12 payload))

end Sys2Proof.Machine
end

