-- ==== Sys2Proof/Machine/Special.lean ====
section
/-!
DEFINITION. The special functions of 02: R61: a correctly rounded FP32 reference by fixed-point evaluation with 256 fraction bits, and the
values the error table admits.
-/
namespace Sys2Proof.Machine

open Sys2Proof

/-- ln 2 and 2 / sqrt(pi) with 256 fraction bits. -/
def ln2Fix : Nat := 80260960185991308862233904206310070533990667611589946606122867505419956976172
def twoOverSqrtPi : Nat := 130657381209852114387528029350014196574164286124850014242073919076264802271586

/-- m * 2^e with 256 fraction bits, signed. -/
def fixOf (neg : Bool) (m : Nat) (e : Int) : Int :=
  let v : Int := scaleRne m (e + 256)
  if neg then -v else v

/-- Product of two fixed-point numbers. -/
def fixMul (a b : Int) : Int := a * b / 2 ^ 256

/-- A fixed-point number as an exact value, scaled by 2^k. -/
def fixVal (a k : Int) : Fp := .fin (decide (a < 0)) a.natAbs (k - 256)

/-- Sum of the Taylor series of exp from term `n` on: `t` is the term at hand. -/
def expSeries (r : Int) : Nat → Nat → Int → Int
  | 0, _, _ => 0
  | fuel + 1, n, t => t + expSeries r fuel (n + 1) (fixMul t r / (n + 1))

/-- exp of a finite value, correct to far more bits than FP32 holds. -/
def expFin (neg : Bool) (m : Nat) (e : Int) : Fp :=
  if m = 0 then .fin false 1 0
  else if 9 ≤ (m.log2 : Int) + e then (if neg then .fin false 1 (-1000) else .fin false 1 1000)
  else
    let x := fixOf neg m e
    let k := x / ln2Fix
    fixVal (expSeries (x - k * ln2Fix) 80 0 (2 ^ 256)) k

/-- exp(x) as an exact value. -/
def expFp : Fp → Fp
  | .nan => .nan
  | .inf neg => if neg then .fin false 0 0 else .inf false
  | .fin neg m e => expFin neg m e

/-- Sum of z^(2n+1) / (2n+1) from the term at hand on. -/
def atanhSeries (z2 : Int) : Nat → Nat → Int → Int
  | 0, _, _ => 0
  | fuel + 1, n, t => t / (2 * n + 1) + atanhSeries z2 fuel (n + 1) (fixMul t z2)

/-- ln of m * 2^e, m not zero: the mantissa is taken in [3/4, 3/2). -/
def logFin (m : Nat) (e : Int) : Fp :=
  let l : Int := m.log2
  let up := decide (3 * 2 ^ m.log2 ≤ 2 * m)
  let k : Int := l + e + (if up then 1 else 0)
  let f : Int := scaleRne m (256 - l - (if up then 1 else 0))
  let z := (f - 2 ^ 256) * 2 ^ 256 / (f + 2 ^ 256)
  fixVal (2 * atanhSeries (fixMul z z) 70 0 z + k * ln2Fix) 0

/-- A quotient of two positive numbers to 300 bits past the point, the last bit telling whether a remainder is left. -/
def quotFp (neg : Bool) (a b : Nat) (k : Int) : Fp :=
  let n := a * 2 ^ 300
  .fin neg (2 * (n / b) + b2n (n % b != 0)) (k - 301)

/-- Integer square root, bit by bit from bit `n - 1` down. -/
def isqrt (v : Nat) : Nat → Nat → Nat
  | 0, r => r
  | n + 1, r => if (r + 2 ^ n) * (r + 2 ^ n) ≤ v then isqrt v n (r + 2 ^ n) else isqrt v n r

/-- 1 / sqrt(m * 2^e), m not zero. -/
def rsqrtFin (m : Nat) (e : Int) : Fp :=
  let odd := e % 2
  let m := m * 2 ^ odd.toNat
  let v := 2 ^ 400 / m
  let r := isqrt v 201 0
  .fin false (2 * r + b2n (r * r * m != 2 ^ 400)) (-(e - odd) / 2 - 201)

/-- Numerator and denominator of a positive exact value's x / (1 + x), and of (x - 1) / (x + 1), over one scale. -/
def overOnePlus (m : Nat) (e : Int) : Nat × Nat :=
  if 0 ≤ e then (m * 2 ^ e.toNat, m * 2 ^ e.toNat + 1) else (m, m + 2 ^ (-e).toNat)

/-- The reference for 1 less than any FP32 number short of it. -/
def nearOne (neg : Bool) : Fp := .fin neg (2 ^ 64 - 1) (-64)

/-- sigmoid of a finite value. -/
def sigmoidFin (neg : Bool) (m : Nat) (e : Int) : Fp :=
  match expFin neg m e with
  | .fin _ a k =>
    if 300 ≤ (a.log2 : Int) + k then nearOne false
    else if (a.log2 : Int) + k ≤ -300 then .fin false a k
    else
      let q := overOnePlus a k
      quotFp false q.1 q.2 0
  | v => v

/-- tanh of a finite value. -/
def tanhFin (neg : Bool) (m : Nat) (e : Int) : Fp :=
  if m = 0 then .fin neg 0 0
  else if 5 ≤ (m.log2 : Int) + e then nearOne neg
  else
    match expFin false m (e + 1) with
    | .fin _ a k =>
      let q := overOnePlus a k
      quotFp neg (2 * q.1 - q.2) q.2 0
    | v => v

/-- Sum of the series of erf: `t` is x^(2n+1) / n! with its sign. -/
def erfSeries (x2 : Int) : Nat → Nat → Int → Int
  | 0, _, _ => 0
  | fuel + 1, n, t => t / (2 * n + 1) + erfSeries x2 fuel (n + 1) (-(fixMul t x2) / (n + 1))

/-- erf of a finite value. -/
def erfFin (neg : Bool) (m : Nat) (e : Int) : Fp :=
  if m = 0 then .fin neg 0 0
  else if 2 ≤ (m.log2 : Int) + e then nearOne neg
  else
    let x := fixOf false m e
    let y := fixMul twoOverSqrtPi (erfSeries (fixMul x x) 160 0 x)
    .fin neg y.natAbs (-256)

/-- The functions of 02: R61, by their S-stage opcodes (04: R122). -/
def refFp (op : Nat) : Fp → Fp × Bool
  | .nan => (.nan, false)
  | .inf neg =>
    match op with
    | 0x40 => (expFp (.inf neg), false)
    | 0x41 => (.fin false (b2n !neg) 0, false)
    | 0x42 => (.fin neg 1 0, false)
    | 0x43 => (.fin neg 0 0, false)
    | 0x44 => if neg then (.nan, true) else (.fin false 0 0, false)
    | 0x45 => if neg then (.nan, true) else (.inf false, false)
    | _ => (.fin neg 1 0, false)
  | .fin neg m e =>
    match op with
    | 0x40 => (expFin neg m e, false)
    | 0x41 => (sigmoidFin neg m e, false)
    | 0x42 => (tanhFin neg m e, false)
    | 0x43 => if m = 0 then (.inf neg, false) else (quotFp neg 1 m (-e), false)
    | 0x44 => if m = 0 then (.inf neg, false) else if neg then (.nan, true) else (rsqrtFin m e, false)
    | 0x45 => if m = 0 then (.inf true, false) else if neg then (.nan, true) else (logFin m e, false)
    | _ => (erfFin neg m e, false)

/-- Largest error in ulps (02: R61). -/
def maxUlp (op : Nat) : Nat := match op with
  | 0x40 => 2 | 0x41 => 3 | 0x42 => 3 | 0x43 => 1 | 0x44 => 2 | 0x45 => 2 | _ => 4

/-- Is FP32 code `c` within `n` ulps of FP32 code `r`, both finite? One ulp of a subnormal is 2^-149 (02: R61). -/
def withinUlp (n r c : Nat) : Bool :=
  match Fmt.decode .fp32 r, Fmt.decode .fp32 c with
  | .fin s m e, .fin t q f =>
    let d := (Fp.add (.fin t q f) (.fin (!s) m e)).1.abs
    let top := (m.log2 : Int) + e
    !Fp.lt (.fin false n (if top < -126 then -149 else top - 23)) d
  | _, _ => false

/-- One special function of an exact argument, as an FP32 code with its flags. Inside the error bound the value is free: `free` offers a
code (assumption 8). Results the table names are exact. -/
def special (op free : Nat) (v : Fp) : Nat × Flags :=
  let q := refFp op v
  let r := roundResult .fp32 false q
  let c := free % 2 ^ 32
  match v with
  | .fin _ _ _ => (if withinUlp (maxUlp op) r.1 c then c else r.1, r.2)
  | _ => r

end Sys2Proof.Machine
end

