-- ==== Sys2Proof/Machine/SStage.lean ====
section
/-!
DEFINITION. Special-function stages (03: R106 to R110; 02: R61 to R63; 04: R122). Output waits in the stage until it has credit
(03: R78). What the spec does not fix of blocks, lists and records is assumption 26.
-/
namespace Sys2Proof.Machine

open Sys2Proof

/-! ### Parameters (04: R122) -/

def sPre (e : List Byte) : Bool := bit 0 (stFlags e)
def sFmtIn (e : List Byte) : Fmt := fmtD (field e 8 1)
def sFmtOut (e : List Byte) : Fmt := fmtD (field e 9 1)
def sIdIn1 (e : List Byte) : Bool := field e 0xA 1 == 1
def sNList (e : List Byte) : Nat := field e 0xB 1
def sLb (e : List Byte) : Nat := field e 0x14 2
def sK (e : List Byte) : Nat := field e 0x16 2
def sNSeg (e : List Byte) : Nat := max 1 (field e 0x18 4)
def sIdBase (e : List Byte) : Nat := field e 0x20 8

/-- FP32 from an exact value, with its flags. -/
def toFp32 (v : Fp) : Nat × Flags := roundResult .fp32 false (v, false)

/-- The stage's inputs in FP32: widened exactly, and pre-scaled by a fused multiply-add with one rounding (03: R106, R107). -/
def sInputs (e : List Byte) (bs : List Byte) : List (Nat × Flags) :=
  (unpack (sFmtIn e).width bs).map (fun c =>
    let x := (toFp32 ((sFmtIn e).decode c)).1
    if sPre e then fFma .fp32 (field e 0xC 4) x (field e 0x10 4) else (x, Flags.none))

/-- Every flag of a list of results. -/
def flagsOf (rs : List (Nat × Flags)) : Flags := rs.foldl (fun acc r => acc.or r.2) Flags.none

/-- FP32 results in the output format. -/
def sOut (e : List Byte) (cs : List Nat) : List Byte × Flags :=
  let rs := cs.map (fun c => (sFmtOut e).encode false (Fmt.decode .fp32 c))
  (pack (sFmtOut e).width (rs.map (·.1)), flagsOf rs)

/-! ### Steps -/

/-- What a piece of work leaves: buffers, output, flags raised and elements worked on. -/
structure SWork where
  st : SState
  out : List (Nat × Bool × List Byte) := []    -- port, SEG_END, payload
  flags : Flags := Flags.none
  count : Nat := 0
  deriving DecidableEq, Repr

/-- Output put behind what waits. -/
def SWork.put (w : SWork) (port : Nat) (segEnd : Bool) (bs : List Byte) : SWork := { w with out := w.out ++ [(port, segEnd, bs)] }

/-- Flags added. -/
def SWork.raise (w : SWork) (f : Flags) : SWork := { w with flags := w.flags.or f }

/-- One stage command, with nothing waiting to be sent: a record of IN0, an identifier record, or what is left at the batch's end.
`take` works on a record's bytes and SEG_END, with the producer's place; `flush` on the batch's end. -/
def State.sStep (s : State) (k op : Nat) (ls : LsRead) (rate : List Byte → Nat) (take : Job → Nat → SState → Nat → Bool → List Byte → SWork)
    (flush : Job → Nat → SState → SWork) : Out :=
  s.stageStep k 3 op ls (fun j s =>
    let x := s.stage k
    let e := j.p.ent j.i
    let done := fun (s : State) (w : SWork) =>
      let s := ({ s with free := s.free + 1 }).onStage k (fun y => { y with s := w.st })
      let s := (s.bumpStage k 0 (max 1 ((w.count + rate e - 1) / rate e))).raise j.pl k j.b.epoch w.flags
      s.emitRecs k (w.out.flatMap (fun o => outRecs e o.1 o.2.1 o.2.2))
    let need := match dataOf j x 0 with
      | some f => (unpack (sFmtIn e).width f.2.2.payload).length
      | none => 0
    match dataOf j x 0, dataOf j x 1 with
    | none, some g =>
      if atMark j.p x j.i .batchEnd then s
      else (s.takeRec j k 1 g).onStage k (fun y => { y with s := { y.s with ids := y.s.ids ++ unpack 64 g.2.2.payload } })
    | some f, some g =>
      if x.s.ids.length < need then
        (s.takeRec j k 1 g).onStage k (fun y => { y with s := { y.s with ids := y.s.ids ++ unpack 64 g.2.2.payload } })
      else done (s.takeRec j k 0 f) (take j s.free x.s f.1 f.2.2.segEnd f.2.2.payload)
    | some f, none =>
      let idsEnded := !(connected j.p.arm j.i).contains 1 ||
        ((frontOf j.p x j.i 1).map (fun g => g.2.2.typ == .batchEnd)).getD false
      if need ≤ x.s.ids.length ∨ idsEnded then done (s.takeRec j k 0 f) (take j s.free x.s f.1 f.2.2.segEnd f.2.2.payload) else s
    | none, none =>
      if atMark j.p x j.i .batchEnd && !workDone j.p x j.i j.b.epoch then done s (flush j s.free x.s) else s)

/-! ### Functions (03: R106; 02: R61) -/

/-- A function of every element of a record. -/
def sFunction (op : Nat) (j : Job) (free : Nat) (st : SState) (_ : Nat) (segEnd : Bool) (bs : List Byte) : SWork :=
  let e := j.p.ent j.i
  let xs := sInputs e bs
  let ys := (List.range xs.length).map (fun n => special op (Config.freeNat free n) (Fmt.decode .fp32 (xs.getD n (0, Flags.none)).1))
  let o := sOut e (ys.map (·.1))
  ({ st := st, flags := ((flagsOf xs).or (flagsOf ys)).or o.2, count := xs.length } : SWork).put 0 segEnd o.1

/-- Nothing is left of a batch of a function. -/
def sNoFlush (_ : Job) (_ : Nat) (_ : SState) : SWork := { st := {} }

def execExp (st : Nat) (ls : LsRead) (s : State) : Out := s.sStep st 0x40 ls (fun _ => 512) (sFunction 0x40) sNoFlush
def execSigmoid (st : Nat) (ls : LsRead) (s : State) : Out := s.sStep st 0x41 ls (fun _ => 512) (sFunction 0x41) sNoFlush
def execTanh (st : Nat) (ls : LsRead) (s : State) : Out := s.sStep st 0x42 ls (fun _ => 512) (sFunction 0x42) sNoFlush
def execRecip (st : Nat) (ls : LsRead) (s : State) : Out := s.sStep st 0x43 ls (fun _ => 512) (sFunction 0x43) sNoFlush
def execRsqrt (st : Nat) (ls : LsRead) (s : State) : Out := s.sStep st 0x44 ls (fun _ => 512) (sFunction 0x44) sNoFlush
def execLog (st : Nat) (ls : LsRead) (s : State) : Out := s.sStep st 0x45 ls (fun _ => 256) (sFunction 0x45) sNoFlush
def execErf (st : Nat) (ls : LsRead) (s : State) : Out := s.sStep st 0x46 ls (fun _ => 256) (sFunction 0x46) sNoFlush

/-! ### Blocks (03: R108) -/

/-- Values joined to the block, each full block closed by `close`; at a SEG_END record the block closes as it stands, and an empty such
record ends the segment of the block just closed, or else is an empty block. -/
def sBlocks (e : List Byte) (close : Bool → SWork → SWork) (lateEnd : SWork → SWork) (segEnd : Bool) : List (Nat × Nat) → SWork → SWork
  | [], w =>
    if !segEnd then w
    else if !w.st.block.isEmpty then close true w
    else if 0 < w.st.blockIdx ∧ Tbl.has w.st.segs ((w.st.blockIdx - 1) % sNSeg e) then lateEnd w
    else close true w
  | v :: vs, w =>
    let w := { w with st := { w.st with block := w.st.block ++ [v] } }
    if w.st.block.length < sLb e then sBlocks e close lateEnd segEnd vs w
    else if vs.isEmpty then close segEnd w
    else sBlocks e close lateEnd segEnd vs (close false w)

/-- exp of the difference of two FP32 codes (02: R62), taken exactly, without a rounding of its own (assumption 70). -/
def expDiff (free a b : Nat) : Nat × Flags :=
  let d := Fp.add (Fmt.decode .fp32 a) (Fmt.decode .fp32 b).neg
  let r := special 0x40 free d.1
  (r.1, r.2.or { Flags.none with nanProduced := d.2 })

/-- FP32 one. -/
def fpOne : Nat := 0x3F800000

/-- One input into the running maximum and sum (02: R62). -/
def softUpdate (free : Nat) (q : SSeg) (x : Nat) : SSeg × Flags :=
  let nan : Nat := FloatFmt.nanCode ⟨8, 23, 127, .ieee⟩
  if Fmt.isNan .fp32 x || Fmt.isNan .fp32 q.m then ({ q with m := nan, s := nan }, Flags.none)
  else if Fp.lt (Fmt.decode .fp32 q.m) (Fmt.decode .fp32 x) then
    let g := expDiff free q.m x
    let r := fFma .fp32 q.s g.1 fpOne
    ({ q with m := x, s := r.1 }, g.2.or r.2)
  else
    let g := expDiff free x q.m
    let r := fAdd .fp32 q.s g.1
    ({ q with s := r.1 }, g.2.or r.2)

/-- Every input of a block, with a free number for each. -/
def softFold (free : Nat) : Nat → List Nat → SSeg × Flags → SSeg × Flags
  | _, [], q => q
  | n, x :: xs, q =>
    let r := softUpdate (Config.freeNat free (3 * n)) q.1 x
    softFold free (n + 1) xs (r.1, q.2.or r.2)

/-- A softmax block closed (03: R108): values on OUT0, correction and sum on OUT1. -/
def softClose (e : List Byte) (free : Nat) (segEnd : Bool) (w : SWork) : SWork :=
  let seg := w.st.blockIdx % sNSeg e
  let free := Config.freeNat free w.st.blockIdx
  let q0 := Tbl.getD w.st.segs seg {}
  let vs := w.st.block.map (·.1)
  let q := softFold free 0 vs (q0, Flags.none)
  let ys := (List.range vs.length).map (fun n => expDiff (Config.freeNat free (3 * n + 1)) (vs.getD n 0) q.1.m)
  let c := if q0.m = q.1.m then (fpOne, Flags.none) else expDiff (Config.freeNat free 2) q0.m q.1.m
  let o := sOut e (ys.map (·.1))
  let segs := if segEnd then Tbl.erase w.st.segs seg else Tbl.set w.st.segs seg q.1
  let st := { w.st with segs := segs, block := [], blockIdx := w.st.blockIdx + 1 }
  (({ w with st := st }).raise ((q.2.or (flagsOf ys)).or (c.2.or o.2))).put 0 segEnd o.1 |>.put 1 segEnd (leBytes 4 c.1 ++ leBytes 4 q.1.s)

/-- A softmax segment ended by an empty record after its block. -/
def softLate (e : List Byte) (w : SWork) : SWork :=
  let seg := (w.st.blockIdx - 1) % sNSeg e
  (({ w with st := { w.st with segs := Tbl.erase w.st.segs seg } }).put 0 true []).put 1 true []

/-- SOFTMAX_ASSIST on one record. -/
def softTake (j : Job) (free : Nat) (st : SState) (_ : Nat) (segEnd : Bool) (bs : List Byte) : SWork :=
  let e := j.p.ent j.i
  let xs := sInputs e bs
  sBlocks e (softClose e free) (softLate e) segEnd (xs.map (fun x => (x.1, 0))) { st := st, flags := flagsOf xs, count := xs.length }

/-- What is left of a batch: a part of a block goes out as a block without segment end, and running segments are forgotten. -/
def softFlush (j : Job) (free : Nat) (st : SState) : SWork :=
  let w : SWork := { st := st }
  let w := if st.block.isEmpty then w else softClose (j.p.ent j.i) free false w
  { w with st := { w.st with segs := [] } }

/-- SOFTMAX_ASSIST (03: R108). -/
def execSoftmaxAssist (st : Nat) (ls : LsRead) (s : State) : Out := s.sStep st 0x48 ls (fun _ => 512) softTake softFlush

/-! ### Ranking (02: R63; 03: R109, R110) -/

/-- Does FP32 code `a` rank above `b`? A NaN ranks below every number. -/
def ranksAbove (a b : Nat) : Bool :=
  match Fmt.decode .fp32 a, Fmt.decode .fp32 b with
  | .nan, _ => false
  | _, .nan => true
  | va, vb => Fp.lt vb va

/-- An entry put in its place behind every entry not ranked below it; with `byId` equal values rank by identifier. -/
def rankIn (byId : Bool) (v : Nat × Nat) : List (Nat × Nat) → List (Nat × Nat)
  | [] => [v]
  | q :: qs =>
    let equal := !ranksAbove v.1 q.1 && !ranksAbove q.1 v.1
    if ranksAbove v.1 q.1 || (byId && equal && decide (v.2 < q.2)) then v :: q :: qs else q :: rankIn byId v qs

/-- The identifier of an empty place. -/
def noId : Nat := 2 ^ 64 - 1

/-- Exactly k entries sent, best first, empty places NaN (03: R109). -/
def SWork.putBest (w : SWork) (e : List Byte) (best : List (Nat × Nat)) : SWork :=
  let nan : Nat := FloatFmt.nanCode ⟨8, 23, 127, .ieee⟩
  let es := (best ++ List.replicate (sK e - best.length) (nan, noId)).take (sK e)
  let o := sOut e (es.map (·.1))
  ((w.raise o.2).put 0 true o.1).put 1 true (pack 64 (es.map (·.2)))

/-- A block of a top-k joined to its segment, which is emitted where it ends. -/
def topkClose (e : List Byte) (segEnd : Bool) (w : SWork) : SWork :=
  let seg := w.st.blockIdx % sNSeg e
  let q0 := Tbl.getD w.st.segs seg {}
  let q := w.st.block.foldl (fun (q : SSeg) v =>
    let id := if sIdIn1 e then v.2 else (sIdBase e + q.pos % 2 ^ 32) % 2 ^ 64
    { q with pos := q.pos + 1, best := (rankIn false (v.1, id) q.best).take (sK e) }) q0
  let segs := if segEnd then Tbl.erase w.st.segs seg else Tbl.set w.st.segs seg q
  let w := { w with st := { w.st with segs := segs, block := [], blockIdx := w.st.blockIdx + 1 } }
  if segEnd then w.putBest e q.best else w

/-- A top-k segment ended by an empty record after its block. -/
def topkLate (e : List Byte) (w : SWork) : SWork :=
  let seg := (w.st.blockIdx - 1) % sNSeg e
  let best := (Tbl.getD w.st.segs seg {}).best
  ({ w with st := { w.st with segs := Tbl.erase w.st.segs seg } }).putBest e best

/-- Identifiers for `n` values: those taken from IN1, a free number where there are not enough. -/
def sIds (free n : Nat) (ids : List Nat) : List Nat := (List.range n).map (fun t => ids.getD t (Config.freeNat free t % 2 ^ 64))

/-- TOPK on one record. -/
def topkTake (j : Job) (free : Nat) (st : SState) (_ : Nat) (segEnd : Bool) (bs : List Byte) : SWork :=
  let e := j.p.ent j.i
  let xs := sInputs e bs
  let n := xs.length
  sBlocks e (topkClose e) (topkLate e) segEnd ((xs.map (·.1)).zip (sIds free n st.ids))
    { st := { st with ids := st.ids.drop n }, flags := flagsOf xs, count := n }

/-- What is left of a batch: open segments are emitted in their order. -/
def topkFlush (j : Job) (_ : Nat) (st : SState) : SWork :=
  let e := j.p.ent j.i
  let w : SWork := { st := st }
  let w := if st.block.isEmpty then w else topkClose e false w
  let open_ := Tbl.vals w.st.segs
  open_.foldl (fun acc q => acc.putBest e q.best) { w with st := { w.st with segs := [], ids := [] } }

/-- TOPK (03: R109). -/
def execTopk (st : Nat) (ls : LsRead) (s : State) : Out :=
  s.sStep st 0x49 ls (fun e => if sK e ≤ 64 then 256 else 128) topkTake topkFlush

/-- The group of a producer's n-th list: each of `prods` producers sends NLIST / prods lists of each group, groups interleaved by NSEG. -/
def mergeGroup (e : List Byte) (prods n : Nat) : Nat :=
  let per := max 1 (sNList e / max 1 prods)
  n / (sNSeg e * per) * sNSeg e + n % sNSeg e

/-- TOPK_MERGE on one record of a list; a list's last record carries SEG_END. -/
def mergeTake (j : Job) (free : Nat) (st : SState) (ix : Nat) (segEnd : Bool) (bs : List Byte) : SWork :=
  let e := j.p.ent j.i
  let xs := (unpack (sFmtIn e).width bs).map (fun c => (toFp32 ((sFmtIn e).decode c)).1)
  let n := xs.length
  let cur := Tbl.getD st.cur ix [] ++ xs.zip (sIds free n st.ids)
  let st := { st with ids := st.ids.drop n }
  if !segEnd then { st := { st with cur := Tbl.set st.cur ix cur }, count := n }
  else
    let no := Tbl.getD st.listNo ix 0
    let g := mergeGroup e (producers j.p.arm j.i 0).length no
    let have_ := Tbl.getD st.lists g (0, [])
    let best := (cur.foldl (fun acc v => rankIn true v acc) have_.2).take (sK e)
    let st := { st with cur := Tbl.erase st.cur ix, listNo := Tbl.set st.listNo ix (no + 1) }
    if have_.1 + 1 < sNList e then { st := { st with lists := Tbl.set st.lists g (have_.1 + 1, best) }, count := n }
    else ({ st := { st with lists := Tbl.erase st.lists g }, count := n } : SWork).putBest e best

/-- What is left of a batch: groups that lack lists are emitted as they stand. -/
def mergeFlush (j : Job) (_ : Nat) (st : SState) : SWork :=
  let e := j.p.ent j.i
  let rest := (Tbl.vals st.cur).flatMap id
  let groups := Tbl.vals st.lists
  let w : SWork := { st := { st with cur := [], lists := [], ids := [] } }
  let w := groups.foldl (fun acc g => acc.putBest e g.2) w
  if rest.isEmpty then w else w.putBest e ((rest.foldl (fun acc v => rankIn true v acc) []).take (sK e))

/-- TOPK_MERGE (03: R110). -/
def execTopkMerge (st : Nat) (ls : LsRead) (s : State) : Out := s.sStep st 0x4A ls (fun _ => 128) mergeTake mergeFlush

end Sys2Proof.Machine
end

