-- ==== Sys2Proof/Machine/VStage.lean ====
section
/-!
DEFINITION. Vector stages: runs of the program, each instruction's elements, and the commands that execute the instruction at hand
(03: R91 to R96; 04: R123, R124; 02: R41 to R44, R55, R57, R60; 05: R153 to R157). A value the spec does not state is free.
-/
namespace Sys2Proof.Machine

open Sys2Proof

/-! ### Runs (04: R123, R124) -/

/-- Data inputs of a V-stage that are connected. -/
def vData (p : Pipe) (i : Nat) : List Nat := (connected p.arm i).filter (fun q => q < 2)

/-- Does the instruction execute in the run under way? -/
def vExecutes (x : Stage) (i : List Byte) : Bool :=
  if x.v.atEnd then vIFlag i 4
  else
    let segEnd := (x.v.run0.map (·.segEnd)).getD false
    !vIFlag i 4 && (!vIFlag i 3 || (segEnd && (x.v.seg + 1) % 2 ^ field i 0xF 1 == 0))

/-- The next instruction at or after `n` that executes; the program's length where none does. -/
def vNext (code : List (List Byte)) (x : Stage) (n : Nat) : Nat :=
  n + ((code.drop n).takeWhile (fun i => !vExecutes x i)).length

/-- The end of a run: a segment counted, the BATCH_END_ONLY pass noted. -/
def endRun (v : VState) : VState :=
  let seg := (v.run0.map (·.segEnd)).getD false
  { v with inRun := false, run0 := none, run1 := none, run2 := none, ip := 0, atEnd := false, ended := v.ended || v.atEnd
           seg := v.seg + b2n seg, acc := if seg then [] else v.acc, line := if seg then [] else v.line }

/-- The run moved on to its next instruction, or ended after the last. -/
def vMove (code : List (List Byte)) (x : Stage) (n : Nat) : Stage :=
  let m := vNext code x n
  if code.length ≤ m then { x with v := endRun x.v } else { x with v := { x.v with ip := m } }

/-- Store positions at the start of a batch: kept for a squash, and begun again with each invocation and repetition (assumption 22). -/
def vBatch (b : Batch) (v : VState) : VState :=
  if v.snaps.any (fun t => t.1 = b.epoch) then v
  else
    let pos := if v.posKey = some (b.inv, b.rep) then v.pos else (0, 0)
    { v with pos := pos, posKey := some (b.inv, b.rep), snaps := (v.snaps ++ [(b.epoch, pos)]).reverse.take 8 |>.reverse }

/-- A run begun where none is under way: a record from every connected data input, the pass after BATCH_END, a record of IN2 where that is the
only input, or, with a token to spend, the one run of a batch without input (assumption 18). Inputs that disagree about the batch's end
are a fault. -/
def State.beginRun (s : State) (j : Job) (k : Nat) : State :=
  let x := s.stage k
  let code := vCode j.p.arm (j.p.ent j.i)
  let last := vHasFlag j.p.arm (j.p.ent j.i) 4 && !x.v.ended
  let ports := vData j.p j.i
  let offers := ports.map (fun q => dataOf j x q)
  let start := fun (s : State) (v : VState → VState) => s.onStage k (fun y => vMove code { y with v := v { (vBatch j.b y.v) with inRun := true, ip := 0 } } 0)
  let ends := fun (q : Nat) => ((frontOf j.p x j.i q).map (fun f => f.2.2.typ == .batchEnd)).getD false
  let token := match tokenOf j.p.arm j.i with
    | none => true
    | some t => decide (65536 ≤ (j.p.src t).level)
  if x.v.inRun then s
  else if (connected j.p.arm j.i).isEmpty then
    if x.v.ran then (if last then start s (fun v => { v with atEnd := true }) else s)
    else if token then start s (fun v => { v with ran := true }) else s
  else if atMark j.p x j.i .batchEnd then (if last then start s (fun v => { v with atEnd := true }) else s)
  else if ports.isEmpty then
    match dataOf j x 2 with
    | none => s
    | some f => start (s.takeRec j k 2 f) (fun v => { v with run2 := some (f.1, f.2.2) })
  else if offers.all Option.isSome then
    let s := (ports.zip offers).foldl (fun acc q => match q.2 with
      | some f => acc.takeRec j k q.1 f
      | none => acc) s
    let rec_ := fun (q : Nat) => ((ports.zip offers).find? (fun z => z.1 == q)).bind (fun z => z.2.map (fun f => f.2.2))
    start s (fun v => { v with run0 := rec_ 0, run1 := rec_ 1 })
  else if ports.any ends && ((offers.any Option.isSome) || (ports.all ends && (dataOf j x 2).isSome)) then s.stageFault k 4
  else s

/-- Does the instruction take an index record: SCATTER, or a source that names IN2 (04: R123, R124)? -/
def vNames2 (i : List Byte) : Bool := vOpc i == 0x31 || [4, 6, 8].any (fun o => vKind i o == 3)

/-- The run's index record taken for its first instruction that names IN2; the pass after BATCH_END has none. None where it has to wait, or where
IN2 has ended. -/
def State.takeIn2 (s : State) (j : Job) (k : Nat) (i : List Byte) (go : State → State) : State :=
  let x := s.stage k
  if !vNames2 i || x.v.run2.isSome || x.v.atEnd then go s
  else
    match dataOf j x 2, frontOf j.p x j.i 2 with
    | some f, _ => go ((s.takeRec j k 2 f).onStage k (fun y => { y with v := { y.v with run2 := some (f.1, f.2.2) } }))
    | none, some f => if f.2.2.typ = .batchEnd then s.stageFault k 4 else s
    | none, none => s

/-! ### Elements -/

/-- The scalar integer formats of vector arithmetic (02: R60). -/
def vIntFmt (f : Fmt) : Bool := f == .int8 || f == .int32 || f == .int64

/-- The scalar floating formats of vector arithmetic (02: R60). -/
def vFloatFmt (f : Fmt) : Bool := f == .fp32 || f == .fp64

/-- An exact integer result: wrapped, or under SATURATING clamped with the flag (02: R60). -/
def intResult (w : Nat) (sat : Bool) (v : Int) : Nat × Flags :=
  if sat && (decide (v > 2 ^ (w - 1) - 1) || decide (v < -(2 ^ (w - 1) : Int))) then
    (if v < 0 then 2 ^ (w - 1) else 2 ^ (w - 1) - 1, { Flags.none with saturation := true })
  else (ofSigned w v, Flags.none)

/-- Minimum or maximum; with a NaN, or two zeros of unlike sign, the spec states no result and the value is free (assumption 11). -/
def vMinMax (f : Fmt) (max : Bool) (a b free : Nat) : Nat :=
  if vIntFmt f then iMinMax f.width max a b
  else
    let va := f.decode a
    let vb := f.decode b
    if va == .nan || vb == .nan then free % 2 ^ f.width
    else if va.isZero && vb.isZero then (if free % 2 = 0 then a else b)
    else if Fp.lt va vb == max then b else a

/-- A comparison; with a NaN the spec states no result (assumption 11). -/
def vCompare (f : Fmt) (opc a b free : Nat) : Bool :=
  let va := f.decode a
  let vb := f.decode b
  if va == .nan || vb == .nan then free % 2 == 1
  else match opc with
    | 0x09 => Fp.eq va vb
    | 0x0A => Fp.lt va vb
    | _ => !Fp.lt vb va

/-- One element of an instruction in its source format. `free` supplies what the spec leaves unstated. -/
def vElem (f : Fmt) (opc : Nat) (sat : Bool) (free a b c : Nat) : Nat × Flags :=
  let w := f.width
  let sa := toSigned w a
  let sb := toSigned w b
  let unstated : Nat × Flags := (free % 2 ^ w, Flags.none)
  let same : Nat → Nat × Flags := fun v => (v, Flags.none)
  match opc with
  | 0x01 => if vIntFmt f then intResult w sat (sa + sb) else if vFloatFmt f then fAdd f a b else unstated
  | 0x02 => if vIntFmt f then intResult w sat (sa - sb) else if vFloatFmt f then fSub f a b else unstated
  | 0x03 => if vIntFmt f then intResult w sat (sa * sb) else if vFloatFmt f then fMul f a b else unstated
  | 0x04 => if vFloatFmt f then fFma f a b c else unstated
  | 0x05 => if vIntFmt f || vFloatFmt f then same (vMinMax f false a b free) else unstated
  | 0x06 => if vIntFmt f || vFloatFmt f then same (vMinMax f true a b free) else unstated
  | 0x07 => if vIntFmt f then intResult w sat sa.natAbs else if vFloatFmt f then f.encode false (f.decode a).abs else unstated
  | 0x08 => if vIntFmt f then intResult w sat (-sa) else if vFloatFmt f then f.encode false (f.decode a).neg else unstated
  | 0x0C => same (if b = 0 then c else a)
  | 0x10 => if vIntFmt f then same (Nat.land a b) else unstated
  | 0x11 => if vIntFmt f then same (Nat.lor a b) else unstated
  | 0x12 => if vIntFmt f then same (Nat.xor a b) else unstated
  | 0x13 => if vIntFmt f ∧ b < w then intResult w sat (sa * 2 ^ b) else unstated
  | 0x14 => if vIntFmt f ∧ b < w then same (ofSigned w (sa / 2 ^ b)) else unstated
  | 0x15 => if vIntFmt f ∧ b < w then same (a / 2 ^ b) else unstated
  | 0x1A => if vFloatFmt f then fMul f a b else unstated
  | _ => if vFloatFmt f then fAdd f a b else unstated

/-- A result in the destination format: as it is, or converted (assumption 21); a NaN leaves in its canonical form (02: R34). -/
def vReFmt (fi fo : Fmt) (sat : Bool) (free : Nat) (r : Nat × Flags) : Nat × Flags :=
  if fi = fo then (fo.canon r.1, r.2)
  else if fi.isMx || fo.isMx then (free % 2 ^ fo.width, r.2)
  else
    let q := fo.encode sat (fi.decode r.1)
    (q.1, r.2.or q.2)

/-- Formats of an instruction. -/
def vFi (i : List Byte) : Fmt := fmtD (field i 1 1 % 16)
def vFo (i : List Byte) : Fmt := fmtD (field i 1 1 / 16)

/-- An operand's code at a place; absent operands read 0. -/
def codeAt (o : Option (List Nat)) (n : Nat) : Nat := (o.getD []).getD n 0

/-- Elements an instruction works on: VLEN, or as many as the shortest operand named holds. -/
def vCount (i : List Byte) (os : List (Option (List Nat))) : Nat :=
  os.foldl (fun n o => match o with
    | none => n
    | some cs => min n cs.length) (vLen i)

/-- Every element of an elementwise instruction, and the flags raised: those of elements that the mask shuts out too (assumption 70). -/
def vMap (x : Stage) (i : List Byte) (opc free : Nat) : List Nat × Flags :=
  let f := vFi i
  let a := vSource x i 4 f
  let b := vSource x i 6 f
  let c := vSource x i 8 f
  let scalar := opc == 0x1A || opc == 0x1B
  let n := vCount i (if scalar then [a] else [a, b, c])
  let fo := vFo i
  let rs := (List.range n).map (fun t =>
    let u := Config.freeNat free t
    if opc = 0x09 ∨ opc = 0x0A ∨ opc = 0x0B then
      (if vCompare f opc (codeAt a t) (codeAt b t) u then 2 ^ fo.width - 1 else 0, Flags.none)
    else vReFmt f fo (vIFlag i 0) u (vElem f opc (vIFlag i 1) u (codeAt a t) (codeAt b (if scalar then 0 else t)) (codeAt c t)))
  (rs.map (·.1), rs.foldl (fun acc r => acc.or r.2) Flags.none)

/-! ### Writing a result -/

/-- Does the run under way end a segment? Records of the pass after BATCH_END end one too (assumption 21). -/
def vSegEnd (x : Stage) : Bool := x.v.atEnd || (x.v.run0.map (·.segEnd)).getD false

/-- Rows that a write of `n` bits from a bit of the destination row touches. -/
def vRows (x : Stage) (i : List Byte) (lo n : Nat) : List Nat :=
  if vKind i 2 = 0 ∧ 0 < n then
    (List.range ((lo % 32768 + n + 32767) / 32768)).map (fun q => (vOperandRow i 2 x.v.seg + lo / 32768 + q) % 1024)
  else []

/-- Work that writes these rows: done once they are saved, where a run-ahead epoch has undo rows for them, else the stage stops for its commit
(05: R155). -/
def State.vSaved (s : State) (j : Job) (k : Nat) (rows : List Nat) (go : State → State) : State :=
  let x := s.stage k
  let e := j.b.epoch
  let head := j.p.isHead e
  if undoFits x head e rows then go (s.setStage k (rows.foldl (fun y r => saveUndo y head e r) x))
  else s.setStage k { x with v := { x.v with undoWait := some e } }

/-- Bits put where DST names: in rows of the store from a bit on under the mask, or on an output port. -/
def State.vPut (s : State) (j : Job) (k : Nat) (i : List Byte) (lo n : Nat) (bs : List Byte) : State :=
  let x := s.stage k
  match vKind i 2 with
  | 0 => s.setStage k (writeRow x (vMask x i) (vOperandRow i 2 x.v.seg) lo n bs)
  | 6 => s.emitAll j k 0 (vSegEnd x) bs
  | 7 => s.emitAll j k 1 (vSegEnd x) bs
  | _ => s

/-- The instruction at hand counted as executed: handshakes, flags, and the run moved on. -/
def State.vDone (s : State) (j : Job) (k : Nat) (hs : Nat) (f : Flags) : State :=
  let code := vCode j.p.arm (j.p.ent j.i)
  let s := (s.bumpStage k 0 hs).raise j.pl k j.b.epoch f
  s.onStage k (fun x => if x.v.inRun then vMove code x (x.v.ip + 1) else x)

/-- Handshakes of `n` elements at a rate. -/
def vSteps (n rate : Nat) : Nat := max 1 ((n + rate - 1) / rate)

/-- Elements per handshake (03: R92). -/
def vRate (f : Fmt) : Nat := match f with
  | .fp64 => 64
  | .int8 => 4096
  | .int64 => 256
  | _ => 1024

/-- The stage's program brought to an instruction of the command's operation, and that executed. -/
def State.vStep (s : State) (st opc : Nat) (ls : LsRead) (go : Job → List Byte → State → State) : Out :=
  s.stageStep st 1 0x20 ls (fun j s =>
    let s := s.beginRun j st
    match s.job st with
    | none => s
    | some j =>
      let x := s.stage st
      let i := vInstr j.p.arm (j.p.ent j.i) x.v.ip
      let both := [4, 6, 8].any (fun o => [1, 4, 5].contains (vKind i o)) && [4, 6, 8].any (fun o => vKind i o == 2)
      if !x.v.inRun || vOpc i != opc || (x.v.waitHeld && !j.p.isHead j.b.epoch) then s
      else
        let go := s.takeIn2 j st i (go j i)
        match both, x.v.run0, x.v.run1 with
        | true, some r0, some r1 => if r0.payload.length ≠ r1.payload.length ∨ r0.segEnd ≠ r1.segEnd then s.stageFault st 4 else go
        | _, _, _ => go)

/-- A result put in its place, counted, and the run moved on. -/
def State.vWrite (s : State) (j : Job) (k : Nat) (i : List Byte) (lo n : Nat) (bs : List Byte) (hs : Nat) (f : Flags) : State :=
  s.vSaved j k (vRows (s.stage k) i lo n) (fun s => (s.vPut j k i lo n bs).vDone j k hs f)

/-- An elementwise instruction. -/
def State.vEach (s : State) (j : Job) (k : Nat) (i : List Byte) (opc : Nat) : State :=
  let r := vMap (s.stage k) i opc s.free
  let w := (vFo i).width
  ({ s with free := s.free + 1 }).vWrite j k i 0 (w * r.1.length) (pack w r.1) (vSteps r.1.length (vRate (vFi i))) r.2

/-- ADD, SUB, MUL (03: R92; 02: R60). -/
def execAdd (st : Nat) (ls : LsRead) (s : State) : Out := s.vStep st 0x01 ls (fun j i s => s.vEach j st i 0x01)
def execSub (st : Nat) (ls : LsRead) (s : State) : Out := s.vStep st 0x02 ls (fun j i s => s.vEach j st i 0x02)
def execMul (st : Nat) (ls : LsRead) (s : State) : Out := s.vStep st 0x03 ls (fun j i s => s.vEach j st i 0x03)

/-- FMA with one rounding (04: R123). -/
def execFma (st : Nat) (ls : LsRead) (s : State) : Out := s.vStep st 0x04 ls (fun j i s => s.vEach j st i 0x04)

/-- MIN, MAX. -/
def execMin (st : Nat) (ls : LsRead) (s : State) : Out := s.vStep st 0x05 ls (fun j i s => s.vEach j st i 0x05)
def execMax (st : Nat) (ls : LsRead) (s : State) : Out := s.vStep st 0x06 ls (fun j i s => s.vEach j st i 0x06)

/-- ABS, NEG. -/
def execAbs (st : Nat) (ls : LsRead) (s : State) : Out := s.vStep st 0x07 ls (fun j i s => s.vEach j st i 0x07)
def execNeg (st : Nat) (ls : LsRead) (s : State) : Out := s.vStep st 0x08 ls (fun j i s => s.vEach j st i 0x08)

/-- CMP_EQ, CMP_LT, CMP_LE: all ones or zero. -/
def execCmpEq (st : Nat) (ls : LsRead) (s : State) : Out := s.vStep st 0x09 ls (fun j i s => s.vEach j st i 0x09)
def execCmpLt (st : Nat) (ls : LsRead) (s : State) : Out := s.vStep st 0x0A ls (fun j i s => s.vEach j st i 0x0A)
def execCmpLe (st : Nat) (ls : LsRead) (s : State) : Out := s.vStep st 0x0B ls (fun j i s => s.vEach j st i 0x0B)

/-- SELECT: SRCA where the mask value SRCB is not zero, the alternative SRCC elsewhere (assumption 21). -/
def execSelect (st : Nat) (ls : LsRead) (s : State) : Out := s.vStep st 0x0C ls (fun j i s => s.vEach j st i 0x0C)

/-- AND, OR, XOR. -/
def execAnd (st : Nat) (ls : LsRead) (s : State) : Out := s.vStep st 0x10 ls (fun j i s => s.vEach j st i 0x10)
def execOr (st : Nat) (ls : LsRead) (s : State) : Out := s.vStep st 0x11 ls (fun j i s => s.vEach j st i 0x11)
def execXor (st : Nat) (ls : LsRead) (s : State) : Out := s.vStep st 0x12 ls (fun j i s => s.vEach j st i 0x12)

/-- SHL, SHR arithmetic, SHR logical. -/
def execShl (st : Nat) (ls : LsRead) (s : State) : Out := s.vStep st 0x13 ls (fun j i s => s.vEach j st i 0x13)
def execShrArithmetic (st : Nat) (ls : LsRead) (s : State) : Out := s.vStep st 0x14 ls (fun j i s => s.vEach j st i 0x14)
def execShrLogical (st : Nat) (ls : LsRead) (s : State) : Out := s.vStep st 0x15 ls (fun j i s => s.vEach j st i 0x15)

/-- ROW_SCALE, ROW_BIAS: the scalar is element 0 of SRCB (assumption 21). -/
def execRowScale (st : Nat) (ls : LsRead) (s : State) : Out := s.vStep st 0x1A ls (fun j i s => s.vEach j st i 0x1A)
def execRowBias (st : Nat) (ls : LsRead) (s : State) : Out := s.vStep st 0x1B ls (fun j i s => s.vEach j st i 0x1B)

/-! ### Conversions (02: R41 to R44) -/

/-- Exact values of a source operand, MX elements under the shared scales that follow them. -/
def vValues (x : Stage) (i : List Byte) : List Fp :=
  let f := vFi i
  let cs := (vSource x i 4 f).getD []
  if f.isMx then
    let sc := vScales x i 4 f cs.length ((cs.length + 31) / 32)
    (List.range cs.length).map (fun n => mxValue f (sc.getD (n / 32) 0) (cs.getD n 0))
  else cs.map f.decode

/-- CVT (02: R41, R42). -/
def execCvt (st : Nat) (ls : LsRead) (s : State) : Out :=
  s.vStep st 0x18 ls (fun j i s =>
    let x := s.stage st
    let rs := (vValues x i).map ((vFo i).encode (vIFlag i 0))
    let w := (vFo i).width
    let rate := if vFi i == .fp64 || vFo i == .fp64 then 64 else 1024
    s.vWrite j st i 0 (w * rs.length) (pack w (rs.map (·.1))) (vSteps rs.length rate) (rs.foldl (fun acc r => acc.or r.2) Flags.none))

/-- Consecutive blocks of a list. -/
def blocksIn {α : Type} (n : Nat) : Nat → List α → List (List α)
  | 0, _ => []
  | k + 1, xs => if xs.isEmpty then [] else xs.take n :: blocksIn n k (xs.drop n)

/-- CVT_MX (02: R43, R44; 03: R92): elements, then one scale a block; SPARSE16 makes a block of 16 kept values (03: R94). -/
def execCvtMx (st : Nat) (ls : LsRead) (s : State) : Out :=
  s.vStep st 0x19 ls (fun j i s =>
    let x := s.stage st
    let vs := vValues x i
    let rs := (blocksIn (if vIFlag i 2 then 16 else 32) vs.length vs).map (toMx (vFo i))
    let bs := pack (vFo i).width (rs.flatMap (fun r => r.1.elems)) ++ rs.map (fun r => BitVec.ofNat 8 r.1.scale)
    s.vWrite j st i 0 (8 * bs.length) bs (vSteps vs.length 1024) (rs.foldl (fun acc r => acc.or r.2) Flags.none))

/-! ### Reductions (03: R93; 04: R124) -/

/-- Adjacent pairs combined; an odd element passes up. -/
def pairUp (op : Nat → Nat → Nat × Flags) : List Nat → List Nat × Flags
  | a :: b :: cs =>
    let r := op a b
    let q := pairUp op cs
    (r.1 :: q.1, r.2.or q.2)
  | cs => (cs, Flags.none)

/-- The tree over a row: at most `n` levels. -/
def reduceTree (op : Nat → Nat → Nat × Flags) : Nat → List Nat → List Nat × Flags
  | 0, cs => (cs, Flags.none)
  | n + 1, cs =>
    if cs.length ≤ 1 then (cs, Flags.none)
    else
      let r := pairUp op cs
      let q := reduceTree op n r.1
      (q.1, r.2.or q.2)

/-- How two elements combine. -/
def reduceOp (f : Fmt) (opc free : Nat) (a b : Nat) : Nat × Flags :=
  match opc with
  | 0x20 => vElem f 0x01 false free a b 0
  | 0x21 => vElem f 0x06 false free a b 0
  | _ => vElem f 0x05 false free a b 0

/-- A reduction: the row's tree, combined with the segment's running result, written at the segment's end. The sum of no element is 0; the
maximum or minimum of none is not stated, and free. -/
def State.vReduce (s : State) (j : Job) (k : Nat) (i : List Byte) (opc : Nat) : State :=
  let x := s.stage k
  let f := vFi i
  let cs := (vSource x i 4 f).getD []
  let u := Config.freeNat s.free 0
  let op := reduceOp f opc u
  let row := reduceTree op 16 cs
  let run := Tbl.get? x.v.acc x.v.ip
  let r : Option Nat × Flags := match run, row.1 with
    | some a, c :: _ => let q := op a c; (some q.1, row.2.or q.2)
    | none, c :: _ => (some c, row.2)
    | a, [] => (a, row.2)
  let ends := vSegEnd x || (x.v.run0.isNone && !x.v.atEnd)
  let empty := if opc = 0x20 then 0 else u % 2 ^ f.width
  let out := vReFmt f (vFo i) (vIFlag i 0) u (r.1.getD empty, Flags.none)
  let w := (vFo i).width
  if !ends then
    ((s.onStage k (fun y => { y with v := { y.v with acc := match r.1 with
      | some a => Tbl.set y.v.acc y.v.ip a
      | none => y.v.acc } })).vDone j k (vSteps cs.length 1024) r.2)
  else
    ({ s with free := s.free + 1 }).vWrite j k i (if vKind i 2 = 0 then (x.v.seg % vLen i) * w else 0) w (pack w [out.1])
      (vSteps cs.length 1024) (r.2.or out.2)

def execReduceAdd (st : Nat) (ls : LsRead) (s : State) : Out := s.vStep st 0x20 ls (fun j i s => s.vReduce j st i 0x20)
def execReduceMax (st : Nat) (ls : LsRead) (s : State) : Out := s.vStep st 0x21 ls (fun j i s => s.vReduce j st i 0x21)
def execReduceMin (st : Nat) (ls : LsRead) (s : State) : Out := s.vStep st 0x22 ls (fun j i s => s.vReduce j st i 0x22)

/-! ### PRUNE24 (03: R94) -/

/-- Is code `b` of larger magnitude than `a`? A NaN is larger than every number. -/
def biggerMag (f : Fmt) (a b : Nat) : Bool :=
  match (f.decode a).abs, (f.decode b).abs with
  | .nan, _ => false
  | _, .nan => true
  | va, vb => Fp.lt va vb

/-- Place of the largest of four but one, the lower place on a tie. -/
def largestBut (f : Fmt) (g : List Nat) (but : Option Nat) : Nat :=
  ((List.range 4).filter (fun n => some n != but)).foldl (fun best n =>
    if some best = but then n else if biggerMag f (g.getD best 0) (g.getD n 0) then n else best) 0

/-- The two places kept of a group, in order. -/
def keptPair (f : Fmt) (g : List Nat) : Nat × Nat :=
  let a := largestBut f g none
  let b := largestBut f g (some a)
  (min a b, max a b)

/-- PRUNE24 (03: R94): kept values in order, then the metadata nibbles (assumption 21). -/
def execPrune24 (st : Nat) (ls : LsRead) (s : State) : Out :=
  s.vStep st 0x28 ls (fun j i s =>
    let x := s.stage st
    let f := vFi i
    let cs := (vSource x i 4 f).getD []
    let gs := (blocksIn 4 cs.length cs).map (fun g => (g, keptPair f g))
    let bs := pack f.width (gs.flatMap (fun q => [f.canon (q.1.getD q.2.1 0), f.canon (q.1.getD q.2.2 0)])) ++
      pack 4 (gs.map (fun q => q.2.1 + 4 * q.2.2))
    s.vWrite j st i 0 (8 * bs.length) bs (vSteps cs.length 1024) Flags.none)

/-! ### STORE and SCATTER (03: R96; 05: R153, R154) -/

/-- A run of bytes inside one block as requests: one of 4 bytes or more, or where it is shorter one for each word that it touches, whose byte mask
names its bytes. -/
def shortPieces (a : Nat) (bs : List Byte) : List (Nat × List Byte) :=
  if 4 ≤ bs.length ∨ a % 4 + bs.length ≤ 4 then [(a, bs)] else [(a, bs.take (4 - a % 4)), (a + (4 - a % 4), bs.drop (4 - a % 4))]

/-- A run of bytes cut at 256-byte blocks: address and bytes (03: R96). -/
def storePieces (a : Nat) (bs : List Byte) : List (Nat × List Byte) :=
  (blocksOf a bs.length).flatMap (fun blk =>
    let lo := max a (blk * 256)
    shortPieces lo (slice bs (lo - a) (min (a + bs.length) (blk * 256 + 256) - lo)))

/-- Bytes written from an address on, without those whose lane the mask shuts out: every run of bytes let through, in order. -/
def maskedRuns (mask : Nat → Bool) (a lane0 : Nat) : Nat → List Byte → List (Nat × List Byte)
  | 0, _ => []
  | fuel + 1, bs =>
    let off := ((List.range bs.length).takeWhile (fun n => !mask ((lane0 + n) / 4))).length
    let run := (((List.range bs.length).drop off).takeWhile (fun n => mask ((lane0 + n) / 4))).length
    if run = 0 then []
    else storePieces (a + off) (slice bs off run) ++ maskedRuns mask (a + off + run) (lane0 + off + run) fuel (bs.drop (off + run))

/-- The requests of an instruction sent, or held where the batch runs ahead; with the buffer full the stage stops, the requests that fit
placed (05: R153, R154). An address of 2^56 or more is a fault. -/
def State.vStores (s : State) (j : Job) (k region : Nat) (ps : List (Nat × List Byte)) (after : State → State) : State :=
  let d := stDie k
  let held := Tbl.getD s.held d []
  let left := ps.drop (s.stage k).v.placed
  let room := left.take (32768 - held.length)
  let new := room.map (fun q => ({ stage := k, epoch := j.b.epoch, pipe := j.pl, region := region, addr := q.1, data := q.2
                                   mask := q.2.map (fun _ => true) } : HeldStore))
  let done := fun (s : State) => after (s.onStage k (fun x => { x with v := { x.v with placed := 0, waitHeld := false } }))
  if ps.any (fun q => decide (2 ^ 56 ≤ q.1)) then s.stageFault k 3
  else if j.p.isHead j.b.epoch then done (left.foldl (fun acc q => acc.sendStore j.pl k j.b.epoch q.1 q.2) s)
  else
    let s := { s with held := Tbl.set s.held d (held ++ new) }
    if room.length = left.length then done s
    else s.onStage k (fun x => { x with v := { x.v with placed := x.v.placed + room.length, waitHeld := true } })

/-- STORE (03: R96): the elements go behind the last byte the descriptor wrote; those the mask shuts out are passed over (assumption 21). -/
def execStore (st : Nat) (ls : LsRead) (s : State) : Out :=
  s.vStep st 0x30 ls (fun j i s =>
    let x := s.stage st
    let d := vIFlag i 5
    let sd := vStore (j.p.ent j.i) d
    let bs := pack (vFi i).width ((vSource x i 4 (vFi i)).getD [])
    let at_ := if d then x.v.pos.2 else x.v.pos.1
    s.vStores j st sd.1 (maskedRuns (vMask x i) (j.p.base j.b sd.1 + sd.2.1 + at_) 0 (bs.length + 1) bs) (fun s =>
      let s := s.onStage st (fun y =>
        let pos := if d then (y.v.pos.1, at_ + bs.length) else (at_ + bs.length, y.v.pos.2)
        { y with v := { y.v with pos := pos } })
      s.vDone j st (vSteps bs.length 2048) Flags.none))

/-- SCATTER (03: R96, R98, R99): the run's index record gives the places; the data is shared out among them evenly (assumption 21). The store
descriptor gives one stride, so that a PAIR32 entry takes it for i and 0 for j (assumption 70). -/
def execScatter (st : Nat) (ls : LsRead) (s : State) : Out :=
  s.vStep st 0x31 ls (fun j i s =>
    let x := s.stage st
    let e := j.p.ent j.i
    let sd := vStore e (vIFlag i 5)
    let fm := field e 0xE 1
    let w := (vFi i).width
    let cs := (vSource x i 4 (vFi i)).getD []
    let es := entriesOf fm sd.2.2 0 512 (recBytes (x.v.run2.map (·.2)))
    let n := max 1 (cs.length / max 1 es.length)
    let base := j.p.base j.b sd.1 + sd.2.1
    let ps := (List.range es.length).flatMap (fun t => match es.getD t none with
      | none => []
      | some place =>
        let bs := pack w ((cs.drop (n * t)).take n)
        maskedRuns (vMask x i) (entryAddr fm base place) (w * n * t / 8) (bs.length + 1) bs)
    let far := es.any (fun q => (q.map (fun place => decide (2 ^ 56 ≤ entryAddr fm base place))).getD false)
    if far then s.stageFault st 3
    else
      s.vStores j st sd.1 ps (fun s =>
        (s.bumpStage st 13 (es.filter Option.isNone).length).vDone j st (vSteps es.length 16) Flags.none))

/-! ### Slice mode (02: R55, R57, R59; 03: R95) -/

/-- Exponent that marks a line with a NaN or an infinity (assumption 25). -/
def sliceBad : Nat := 0x8000

/-- What SLICE_SPLIT makes of a line: seven digit planes, one byte an element, and the exponent in two bytes (02: R55, R59; assumption 25). -/
def sliceParts (codes : List Nat) : List (List Byte) × Flags :=
  let vs := codes.map (Fmt.decode .fp64)
  let bad := vs.any (fun v => match v with
    | .fin _ _ _ => false
    | _ => true)
  let e := sliceExp vs
  let ds := vs.map (fun v => if bad then List.replicate 7 0 else sliceDigits (sliceInt e v))
  ((List.range 7).map (fun d => ds.map (fun l => BitVec.ofNat 8 (ofSigned 8 (l.getD d 0)))) ++ [leBytes 2 (if bad then sliceBad else ofSigned 16 e)],
    { Flags.none with nanProduced := bad })

/-- SLICE_SPLIT (02: R55, R59): the elements of a segment make a line, split where the segment ends: the planes one behind the other in the
destination row and those after it, each from a row of its own, and the exponent in the row behind them; or on an output one after
the other (assumption 25). A line with a NaN or an infinity raises NaN-produced here, and again in every term of SLICE_ACC (assumption 70). -/
def execSliceSplit (st : Nat) (ls : LsRead) (s : State) : Out :=
  s.vStep st 0x38 ls (fun j i s =>
    let x := s.stage st
    let new := (vSource x i 4 .fp64).getD []
    let line := Tbl.getD x.v.line x.v.ip [] ++ new
    let ends := vSegEnd x || (x.v.run0.isNone && !x.v.atEnd)
    let hs := 2 * vSteps new.length 64
    if !ends then (s.onStage st (fun y => { y with v := { y.v with line := Tbl.set y.v.line y.v.ip line } })).vDone j st hs Flags.none
    else
      let parts := sliceParts line
      let r := (line.length + 4095) / 4096
      let lo := fun (d : Nat) => 32768 * (max 1 r * d)
      let bytes := fun (d : Nat) => (parts.1.getD d []).length
      if vKind i 2 = 0 then
        s.vSaved j st ((List.range 8).flatMap (fun d => vRows x i (lo d) (8 * bytes d))) (fun s =>
          ((List.range 8).foldl (fun acc d =>
            (List.range ((bytes d + 4095) / 4096)).foldl (fun acc q =>
              let y := acc.stage st
              let part := slice (parts.1.getD d []) (4096 * q) (min 4096 (bytes d - 4096 * q))
              acc.setStage st (writeRow y (vMask y i) ((vOperandRow i 2 x.v.seg + max 1 r * d + q) % 1024) 0 (8 * part.length) part)) acc) s).vDone
            j st hs parts.2)
      else
        ((List.range 8).foldl (fun acc d => acc.vPut j st i 0 0 (parts.1.getD d [])) s).vDone j st hs parts.2)

/-- Where a record of a GEMM_SLICE stream belongs: row tile, column tile, whether it opens the tile, digit pair, row (03: R90, R592). -/
def slicePlace (e : List Byte) : List (Nat × Nat) → Nat → Nat × Nat × Bool × (Nat × Nat) × Nat
  | [], n => (0, 0, n < 512, slicePairs.getD (n / 512 % 28) (0, 0), n % 512)
  | (rt, nt) :: rest, n =>
    let rows := min 512 (mRows e - 512 * rt)
    let size := (mK e + 511) / 512 * 28 * rows
    if n < size then (rt, nt, decide (n < rows), slicePairs.getD (n / rows % 28) (0, 0), n % rows) else slicePlace e rest (n - size)

/-- Tiles of a GEMM_SLICE in order; none where the producer is no such stage. -/
def sliceTiles (e : List Byte) : List (Nat × Nat) :=
  if stTypeOf e = 0 ∧ mSlice e then
    (List.range ((mRows e + 511) / 512)).flatMap (fun rt => (List.range ((mN e + 511) / 512)).map (fun nt => (rt, nt)))
  else []

/-- The tile's 512 rows from the rows of C0, or zero, under the mask. -/
def sliceOpen (m : Store) (mask : Nat → Bool) (row : Nat) (c0 : Option Nat) : Store :=
  (List.range 512).foldl (fun acc q =>
    let bs := match c0 with
      | some c => Store.readN m (4096 * ((c + q) % 1024)) 4096
      | none => List.replicate 4096 0
    rowWritten acc mask ((row + q) % 1024) 0 32768 bs) m

/-- SLICE_ACC (03: R95; 02: R57, R59): one row of INT32 terms added to the FP64 tile that stands in the destination row and the 511 after it. With
its first term the tile is loaded, from C0, which is the SRCB row and those after it, or with zero; the exponents are at EXP_LS, rows first
(assumption 25). A term of a bad line gives a NaN and raises NaN-produced (assumption 70). -/
def execSliceAcc (st : Nat) (ls : LsRead) (s : State) : Out :=
  s.vStep st 0x39 ls (fun j i s =>
    let x := s.stage st
    let prod := (streamsInto j.p.arm j.i (if vKind i 4 = 2 then 1 else 0)).head?
    let e := (prod.map (fun q => j.p.ent (strSrc j.p.arm q))).getD []
    let pl := slicePlace e (sliceTiles e) x.v.sliceTerm
    let rt := pl.1
    let nt := pl.2.1
    let pair := pl.2.2.2.1
    let row := pl.2.2.2.2
    let first := pl.2.2.1 && row == 0
    let ts := (vSource x i 4 .int32).getD []
    let rows := if (sliceTiles e).isEmpty then 512 else mRows e
    let exps := j.p.lsOff j.i j.b (field (j.p.ent j.i) 0x2C 4)
    let top := vOperandRow i 2 x.v.seg
    let r := (top + row) % 1024
    let c0 := if vKind i 6 = 0 then some (vOperandRow i 6 x.v.seg) else none
    let sr := (lsElems x.store exps 16 (512 * rt + row) 1).getD 0 0
    let sc := fun (c : Nat) => (lsElems x.store (exps + 2 * rows) 16 (512 * nt + c) 1).getD 0 0
    s.vSaved j st (if vKind i 2 ≠ 0 then [] else if first then (List.range 512).map (fun q => (top + q) % 1024) else [r]) (fun s =>
      let y := s.stage st
      let m := if first then sliceOpen y.store (vMask x i) top c0 else y.store
      let old := lsElems m (4096 * r) 64 0 ts.length
      let rs := (List.range ts.length).map (fun c =>
        if sr = sliceBad ∨ sc c = sliceBad then (Fmt.fp64.float?.map FloatFmt.nanCode |>.getD 0, { Flags.none with nanProduced := true })
        else sliceTerm (old.getD c 0) (toSigned 32 (ts.getD c 0)) pair.1 pair.2 (toSigned 16 sr) (toSigned 16 (sc c)))
      let m := rowWritten m (vMask x i) r 0 (64 * rs.length) (pack 64 (rs.map (·.1)))
      (s.setStage st { y with store := if vKind i 2 = 0 then m else y.store, v := { y.v with sliceTerm := y.v.sliceTerm + 1 } }).vDone j st
        (vSteps ts.length 512) (rs.foldl (fun acc q => acc.or q.2) Flags.none)))

/-- CONTROL (04: R124, R136; 05: R157): element 0 of SRCA, given by CONTROL_STAGE to the home sequencer, or held while the batch runs ahead. In
another stage the word goes nowhere. -/
def execControl (st : Nat) (ls : LsRead) (s : State) : Out :=
  s.vStep st 0x3F ls (fun j i s =>
    let w := codeAt (vSource (s.stage st) i 4 (vFi i)) 0 % 2 ^ 32
    let e := j.b.epoch
    let s := s.onPipe j.pl (fun p =>
      if armControl p.arm ≠ j.i then p
      else if p.isHead e then p.mapInv j.b.inv (fun v => { v with control := w, controlIn := true })
      else { p with held := p.held.filter (fun h => h.1 ≠ e) ++ [(e, w)] })
    s.vDone j st 1 Flags.none)

end Sys2Proof.Machine
end

