-- ==== Sys2Proof/Machine/Dispatch.lean ====
section
/-!
DEFINITION. The dispatcher: one arm for each command of the table.
-/
namespace Sys2Proof.Machine

open Sys2Proof

def exec (i : Instr) (s : State) : Host.Outcome State Fault Refusal :=
  match i with
  | .powerOn => Sys2Proof.Machine.execPowerOn s
  | .resetNFall => Sys2Proof.Machine.execResetNFall s
  | .resetNRise inp => Sys2Proof.Machine.execResetNRise inp s
  | .railRegulationTimeout rail => Sys2Proof.Machine.execRailRegulationTimeout rail s
  | .subordinateHeartbeatTimeout die => Sys2Proof.Machine.execSubordinateHeartbeatTimeout die s
  | .deviceReady => Sys2Proof.Machine.execDeviceReady s
  | .i3cEntdaa addr => Sys2Proof.Machine.execI3cEntdaa addr s
  | .i3cSetdasa static dyn => Sys2Proof.Machine.execI3cSetdasa static dyn s
  | .i3cGetstatus => Sys2Proof.Machine.execI3cGetstatus s
  | .setEndpointId eid => Sys2Proof.Machine.execSetEndpointId eid s
  | .getEndpointId => Sys2Proof.Machine.execGetEndpointId s
  | .getMctpVersionSupport msgType => Sys2Proof.Machine.execGetMctpVersionSupport msgType s
  | .getMessageTypeSupport => Sys2Proof.Machine.execGetMessageTypeSupport s
  | .sidebandMessage body => Sys2Proof.Machine.execSidebandMessage body s
  | .jtagTapReset => Sys2Proof.Machine.execJtagTapReset s
  | .bypass => Sys2Proof.Machine.execBypass s
  | .idcode => Sys2Proof.Machine.execIdcode s
  | .samplePreload lands load => Sys2Proof.Machine.execSamplePreload lands load s
  | .extest => Sys2Proof.Machine.execExtest s
  | .clamp => Sys2Proof.Machine.execClamp s
  | .highz => Sys2Proof.Machine.execHighz s
  | .ethFrameRx f => Sys2Proof.Machine.execEthFrameRx f s
  | .pfcXoff prio => Sys2Proof.Machine.execPfcXoff prio s
  | .pfcXon prio => Sys2Proof.Machine.execPfcXon prio s
  | .neighbourDiscovery target => Sys2Proof.Machine.execNeighbourDiscovery target s
  | .icmpEcho v6 payload => Sys2Proof.Machine.execIcmpEcho v6 payload s
  | .arpRequest target => Sys2Proof.Machine.execArpRequest target s
  | .open1 f rand => Sys2Proof.Machine.execOpen1 f rand s
  | .open3 f => Sys2Proof.Machine.execOpen3 f s
  | .halfOpenExpiry session => Sys2Proof.Machine.execHalfOpenExpiry session s
  | .command f => Sys2Proof.Machine.execCommand f s
  | .ack f => Sys2Proof.Machine.execAck f s
  | .bulk f => Sys2Proof.Machine.execBulk f s
  | .close f => Sys2Proof.Machine.execClose f s
  | .helmFrameSend session => Sys2Proof.Machine.execHelmFrameSend session s
  | .helmRetransmitTimeout session => Sys2Proof.Machine.execHelmRetransmitTimeout session s
  | .helmAckDelayExpiry session => Sys2Proof.Machine.execHelmAckDelayExpiry session s
  | .helmKeepaliveAck session => Sys2Proof.Machine.execHelmKeepaliveAck session s
  | .helmSessionTimeout session => Sys2Proof.Machine.execHelmSessionTimeout session s
  | .queryCaps mb seq body => Sys2Proof.Machine.execQueryCaps mb seq body s
  | .deviceState mb seq body => Sys2Proof.Machine.execDeviceState mb seq body s
  | .telemetryRead mb seq body => Sys2Proof.Machine.execTelemetryRead mb seq body s
  | .logbookRead mb seq body => Sys2Proof.Machine.execLogbookRead mb seq body s
  | .logbookClear mb seq body => Sys2Proof.Machine.execLogbookClear mb seq body s
  | .subscribe mb seq body => Sys2Proof.Machine.execSubscribe mb seq body s
  | .hostPortConfig mb seq body => Sys2Proof.Machine.execHostPortConfig mb seq body s
  | .powerBudgetSet mb seq body => Sys2Proof.Machine.execPowerBudgetSet mb seq body s
  | .powerBudgetGet mb seq body => Sys2Proof.Machine.execPowerBudgetGet mb seq body s
  | .partitionCreate mb seq body => Sys2Proof.Machine.execPartitionCreate mb seq body s
  | .partitionSet mb seq body => Sys2Proof.Machine.execPartitionSet mb seq body s
  | .partitionRemove mb seq body => Sys2Proof.Machine.execPartitionRemove mb seq body s
  | .partitionQuery mb seq body => Sys2Proof.Machine.execPartitionQuery mb seq body s
  | .windowSet mb seq body => Sys2Proof.Machine.execWindowSet mb seq body s
  | .windowRead mb seq body => Sys2Proof.Machine.execWindowRead mb seq body s
  | .keySlotSet mb seq body => Sys2Proof.Machine.execKeySlotSet mb seq body s
  | .keySlotRead mb seq body => Sys2Proof.Machine.execKeySlotRead mb seq body s
  | .tagMembers mb seq body => Sys2Proof.Machine.execTagMembers mb seq body s
  | .tagMembersRead mb seq body => Sys2Proof.Machine.execTagMembersRead mb seq body s
  | .pipelineLoad mb seq body => Sys2Proof.Machine.execPipelineLoad mb seq body s
  | .pipelineInvoke mb seq body => Sys2Proof.Machine.execPipelineInvoke mb seq body s
  | .pipelineStopDrain mb seq body => Sys2Proof.Machine.execPipelineStopDrain mb seq body s
  | .pipelineStopAbort mb seq body => Sys2Proof.Machine.execPipelineStopAbort mb seq body s
  | .pipelineQuery mb seq body => Sys2Proof.Machine.execPipelineQuery mb seq body s
  | .pipelineRelease mb seq body => Sys2Proof.Machine.execPipelineRelease mb seq body s
  | .memoryRead mb seq body => Sys2Proof.Machine.execMemoryRead mb seq body s
  | .memoryWrite mb seq body => Sys2Proof.Machine.execMemoryWrite mb seq body s
  | .hbmRepair mb seq body => Sys2Proof.Machine.execHbmRepair mb seq body s
  | .hardRepairRowDone stack => Sys2Proof.Machine.execHardRepairRowDone stack s
  | .tenderStart mb seq body => Sys2Proof.Machine.execTenderStart mb seq body s
  | .tenderPause mb seq body => Sys2Proof.Machine.execTenderPause mb seq body s
  | .tenderResume mb seq body => Sys2Proof.Machine.execTenderResume mb seq body s
  | .tenderAbort mb seq body => Sys2Proof.Machine.execTenderAbort mb seq body s
  | .tenderWeight mb seq body => Sys2Proof.Machine.execTenderWeight mb seq body s
  | .tenderRateCap mb seq body => Sys2Proof.Machine.execTenderRateCap mb seq body s
  | .tenderReset mb seq body => Sys2Proof.Machine.execTenderReset mb seq body s
  | .tenderQuery mb seq body => Sys2Proof.Machine.execTenderQuery mb seq body s
  | .tenderAssign mb seq body => Sys2Proof.Machine.execTenderAssign mb seq body s
  | .bulkOpen mb seq body => Sys2Proof.Machine.execBulkOpen mb seq body s
  | .bulkClose mb seq body => Sys2Proof.Machine.execBulkClose mb seq body s
  | .fabricJoin mb seq body => Sys2Proof.Machine.execFabricJoin mb seq body s
  | .routeWrite mb seq body => Sys2Proof.Machine.execRouteWrite mb seq body s
  | .routeRead mb seq body => Sys2Proof.Machine.execRouteRead mb seq body s
  | .waypointAdvance mb seq body => Sys2Proof.Machine.execWaypointAdvance mb seq body s
  | .waypointRead mb seq body => Sys2Proof.Machine.execWaypointRead mb seq body s
  | .regionFix mb seq body => Sys2Proof.Machine.execRegionFix mb seq body s
  | .regionUnfix mb seq body => Sys2Proof.Machine.execRegionUnfix mb seq body s
  | .regionList mb seq body => Sys2Proof.Machine.execRegionList mb seq body s
  | .collectiveStart mb seq body => Sys2Proof.Machine.execCollectiveStart mb seq body s
  | .beaconRepoint mb seq body => Sys2Proof.Machine.execBeaconRepoint mb seq body s
  | .beaconLaneReturn mb seq body => Sys2Proof.Machine.execBeaconLaneReturn mb seq body s
  | .beaconLaneRetire mb seq body => Sys2Proof.Machine.execBeaconLaneRetire mb seq body s
  | .maquetteSet mb seq body => Sys2Proof.Machine.execMaquetteSet mb seq body s
  | .maquetteRead mb seq body => Sys2Proof.Machine.execMaquetteRead mb seq body s
  | .maquetteDiscard mb seq body => Sys2Proof.Machine.execMaquetteDiscard mb seq body s
  | .castCommit mb seq body draws => Sys2Proof.Machine.execCastCommit mb seq body draws s
  | .castCommitArm mb seq body => Sys2Proof.Machine.execCastCommitArm mb seq body s
  | .castCommitDisarm mb seq body => Sys2Proof.Machine.execCastCommitDisarm mb seq body s
  | .castReturn mb seq body => Sys2Proof.Machine.execCastReturn mb seq body s
  | .updateStage mb seq body => Sys2Proof.Machine.execUpdateStage mb seq body s
  | .updateArmNextStart mb seq body => Sys2Proof.Machine.execUpdateArmNextStart mb seq body s
  | .updateArmWaypoint mb seq body => Sys2Proof.Machine.execUpdateArmWaypoint mb seq body s
  | .updateDisarm mb seq body => Sys2Proof.Machine.execUpdateDisarm mb seq body s
  | .updateStatus mb seq body => Sys2Proof.Machine.execUpdateStatus mb seq body s
  | .attest mb seq body => Sys2Proof.Machine.execAttest mb seq body s
  | .unlockChallenge mb seq body rand => Sys2Proof.Machine.execUnlockChallenge mb seq body rand s
  | .unlockResponsePassword mb seq body => Sys2Proof.Machine.execUnlockResponsePassword mb seq body s
  | .unlockResponseSm2 mb seq body => Sys2Proof.Machine.execUnlockResponseSm2 mb seq body s
  | .lock mb seq body => Sys2Proof.Machine.execLock mb seq body s
  | .serviceRead mb seq body => Sys2Proof.Machine.execServiceRead mb seq body s
  | .serviceWrite mb seq body => Sys2Proof.Machine.execServiceWrite mb seq body s
  | .twinState mb seq body => Sys2Proof.Machine.execTwinState mb seq body s
  | .twinResync mb seq body => Sys2Proof.Machine.execTwinResync mb seq body s
  | .dieReset mb seq body => Sys2Proof.Machine.execDieReset mb seq body s
  | .registerWrite addr width value => Sys2Proof.Machine.execRegisterWrite addr width value s
  | .counterLowRead addr => Sys2Proof.Machine.execCounterLowRead addr s
  | .chCtrlPauseWrite plinth chan v => Sys2Proof.Machine.execChCtrlPauseWrite plinth chan v s
  | .chCtrlAbortWrite plinth chan => Sys2Proof.Machine.execChCtrlAbortWrite plinth chan s
  | .chCtrlWeightWrite plinth chan w => Sys2Proof.Machine.execChCtrlWeightWrite plinth chan w s
  | .rateCapWrite plinth chan v => Sys2Proof.Machine.execRateCapWrite plinth chan v s
  | .snapIndex index => Sys2Proof.Machine.execSnapIndex index s
  | .record pl stream epoch segEnd payload => Sys2Proof.Machine.execRecord pl stream epoch segEnd payload s
  | .streamCredit pl stream count => Sys2Proof.Machine.execStreamCredit pl stream count s
  | .batchEnd pl stream epoch => Sys2Proof.Machine.execBatchEnd pl stream epoch s
  | .gapMark pl stream epoch => Sys2Proof.Machine.execGapMark pl stream epoch s
  | .gemm st ls => Sys2Proof.Machine.execGemm st ls s
  | .gemmSlice st ls => Sys2Proof.Machine.execGemmSlice st ls s
  | .accumulatorDrain st => Sys2Proof.Machine.execAccumulatorDrain st s
  | .add st ls => Sys2Proof.Machine.execAdd st ls s
  | .sub st ls => Sys2Proof.Machine.execSub st ls s
  | .mul st ls => Sys2Proof.Machine.execMul st ls s
  | .fma st ls => Sys2Proof.Machine.execFma st ls s
  | .min st ls => Sys2Proof.Machine.execMin st ls s
  | .max st ls => Sys2Proof.Machine.execMax st ls s
  | .abs st ls => Sys2Proof.Machine.execAbs st ls s
  | .neg st ls => Sys2Proof.Machine.execNeg st ls s
  | .cmpEq st ls => Sys2Proof.Machine.execCmpEq st ls s
  | .cmpLt st ls => Sys2Proof.Machine.execCmpLt st ls s
  | .cmpLe st ls => Sys2Proof.Machine.execCmpLe st ls s
  | .select st ls => Sys2Proof.Machine.execSelect st ls s
  | .and st ls => Sys2Proof.Machine.execAnd st ls s
  | .or st ls => Sys2Proof.Machine.execOr st ls s
  | .xor st ls => Sys2Proof.Machine.execXor st ls s
  | .shl st ls => Sys2Proof.Machine.execShl st ls s
  | .shrArithmetic st ls => Sys2Proof.Machine.execShrArithmetic st ls s
  | .shrLogical st ls => Sys2Proof.Machine.execShrLogical st ls s
  | .cvt st ls => Sys2Proof.Machine.execCvt st ls s
  | .cvtMx st ls => Sys2Proof.Machine.execCvtMx st ls s
  | .rowScale st ls => Sys2Proof.Machine.execRowScale st ls s
  | .rowBias st ls => Sys2Proof.Machine.execRowBias st ls s
  | .reduceAdd st ls => Sys2Proof.Machine.execReduceAdd st ls s
  | .reduceMax st ls => Sys2Proof.Machine.execReduceMax st ls s
  | .reduceMin st ls => Sys2Proof.Machine.execReduceMin st ls s
  | .prune24 st ls => Sys2Proof.Machine.execPrune24 st ls s
  | .store st ls => Sys2Proof.Machine.execStore st ls s
  | .scatter st ls => Sys2Proof.Machine.execScatter st ls s
  | .sliceSplit st ls => Sys2Proof.Machine.execSliceSplit st ls s
  | .sliceAcc st ls => Sys2Proof.Machine.execSliceAcc st ls s
  | .control st ls => Sys2Proof.Machine.execControl st ls s
  | .load st ls => Sys2Proof.Machine.execLoad st ls s
  | .gatherRows st ls => Sys2Proof.Machine.execGatherRows st ls s
  | .gatherElem st ls => Sys2Proof.Machine.execGatherElem st ls s
  | .csrWalk st ls => Sys2Proof.Machine.execCsrWalk st ls s
  | .prefetch st ls => Sys2Proof.Machine.execPrefetch st ls s
  | .atomic st ls => Sys2Proof.Machine.execAtomic st ls s
  | .gatherResponse st tag status data => Sys2Proof.Machine.execGatherResponse st tag status data s
  | .exp st ls => Sys2Proof.Machine.execExp st ls s
  | .sigmoid st ls => Sys2Proof.Machine.execSigmoid st ls s
  | .tanh st ls => Sys2Proof.Machine.execTanh st ls s
  | .recip st ls => Sys2Proof.Machine.execRecip st ls s
  | .rsqrt st ls => Sys2Proof.Machine.execRsqrt st ls s
  | .log st ls => Sys2Proof.Machine.execLog st ls s
  | .erf st ls => Sys2Proof.Machine.execErf st ls s
  | .softmaxAssist st ls => Sys2Proof.Machine.execSoftmaxAssist st ls s
  | .topk st ls => Sys2Proof.Machine.execTopk st ls s
  | .topkMerge st ls => Sys2Proof.Machine.execTopkMerge st ls s
  | .scrubWalkerVisit st word ls => Sys2Proof.Machine.execScrubWalkerVisit st word ls s
  | .stageZeroingDone st => Sys2Proof.Machine.execStageZeroingDone st s
  | .stageTestDone st pass => Sys2Proof.Machine.execStageTestDone st pass s
  | .stageTestIntervalExpiry st => Sys2Proof.Machine.execStageTestIntervalExpiry st s
  | .tokenBucketRefill pl src => Sys2Proof.Machine.execTokenBucketRefill pl src s
  | .batchAdmission pl => Sys2Proof.Machine.execBatchAdmission pl s
  | .feedRecord pl src status data => Sys2Proof.Machine.execFeedRecord pl src status data s
  | .channelGrant plinth feed => Sys2Proof.Machine.execChannelGrant plinth feed s
  | .loadComplete pl chan status data => Sys2Proof.Machine.execLoadComplete pl chan status data s
  | .repetitionEnd pl => Sys2Proof.Machine.execRepetitionEnd pl s
  | .invocationComplete pl => Sys2Proof.Machine.execInvocationComplete pl s
  | .gapOpen pl => Sys2Proof.Machine.execGapOpen pl s
  | .gapHoldExpiry pl => Sys2Proof.Machine.execGapHoldExpiry pl s
  | .gapRelease pl beacon => Sys2Proof.Machine.execGapRelease pl beacon s
  | .drainTimeoutExpiry pl => Sys2Proof.Machine.execDrainTimeoutExpiry pl s
  | .epochCommit pl => Sys2Proof.Machine.execEpochCommit pl s
  | .epochSquash pl cause => Sys2Proof.Machine.execEpochSquash pl cause s
  | .batchReadmission pl => Sys2Proof.Machine.execBatchReadmission pl s
  | .heldStoreResume st => Sys2Proof.Machine.execHeldStoreResume st s
  | .hbmRead r e1 e2 len => Sys2Proof.Machine.execHbmRead r e1 e2 len s
  | .hbmStore r data e1 e2 => Sys2Proof.Machine.execHbmStore r data e1 e2 s
  | .repairLogWrite => Sys2Proof.Machine.execRepairLogWrite s
  | .scrubStep stack pc bank row e1 e2 inner => Sys2Proof.Machine.execScrubStep stack pc bank row e1 e2 inner s
  | .stackSensorRead stack reading => Sys2Proof.Machine.execStackSensorRead stack reading s
  | .skewWindowEnd plinth => Sys2Proof.Machine.execSkewWindowEnd plinth s
  | .relayDone plinth => Sys2Proof.Machine.execRelayDone plinth s
  | .pdIdleExpiry stack => Sys2Proof.Machine.execPdIdleExpiry stack s
  | .srIdleExpiry stack => Sys2Proof.Machine.execSrIdleExpiry stack s
  | .flitRx link flit => Sys2Proof.Machine.execFlitRx link flit s
  | .linkAckTimer link => Sys2Proof.Machine.execLinkAckTimer link s
  | .linkBackstopExpiry link => Sys2Proof.Machine.execLinkBackstopExpiry link s
  | .laneLossOfLock link lane bundles => Sys2Proof.Machine.execLaneLossOfLock link lane bundles s
  | .linkRetrainDone link hardLane peerWord => Sys2Proof.Machine.execLinkRetrainDone link hardLane peerWord s
  | .linkCredit link counts => Sys2Proof.Machine.execLinkCredit link counts s
  | .memRd q rlenM1 => Sys2Proof.Machine.execMemRd q rlenM1 s
  | .memWr q data => Sys2Proof.Machine.execMemWr q data s
  | .atomicRequest q op payload => Sys2Proof.Machine.execAtomicRequest q op payload s
  | .hint q => Sys2Proof.Machine.execHint q s
  | .completion unit tag status data => Sys2Proof.Machine.execCompletion unit tag status data s
  | .controlMessage dst opcode payload => Sys2Proof.Machine.execControlMessage dst opcode payload s
  | .svcRd src dst tag addr => Sys2Proof.Machine.execSvcRd src dst tag addr s
  | .svcWr src dst tag addr data => Sys2Proof.Machine.execSvcWr src dst tag addr data s
  | .event src code ref data => Sys2Proof.Machine.execEvent src code ref data s
  | .cap link word => Sys2Proof.Machine.execCap link word s
  | .profile link word atSeq => Sys2Proof.Machine.execProfile link word atSeq s
  | .heartbeatTimeout die => Sys2Proof.Machine.execHeartbeatTimeout die s
  | .dieFence die cause => Sys2Proof.Machine.execDieFence die cause s
  | .dieReadmission die ok retiredRings => Sys2Proof.Machine.execDieReadmission die ok retiredRings s
  | .rd q => Sys2Proof.Machine.execRd q s
  | .wr q payload => Sys2Proof.Machine.execWr q payload s
  | .fabricAtomic q payload => Sys2Proof.Machine.execFabricAtomic q payload s
  | .fabricHint q => Sys2Proof.Machine.execFabricHint q s
  | .fabricCompletion reqId status data => Sys2Proof.Machine.execFabricCompletion reqId status data s
  | .mirrorWr q payload => Sys2Proof.Machine.execMirrorWr q payload s
  | .mirrorAck reqId => Sys2Proof.Machine.execMirrorAck reqId s
  | .addI32 q payload => Sys2Proof.Machine.execAddI32 q payload s
  | .addI64 q payload => Sys2Proof.Machine.execAddI64 q payload s
  | .addF32 q payload => Sys2Proof.Machine.execAddF32 q payload s
  | .addF64 q payload => Sys2Proof.Machine.execAddF64 q payload s
  | .minI32 q payload => Sys2Proof.Machine.execMinI32 q payload s
  | .maxI32 q payload => Sys2Proof.Machine.execMaxI32 q payload s
  | .minI64 q payload => Sys2Proof.Machine.execMinI64 q payload s
  | .maxI64 q payload => Sys2Proof.Machine.execMaxI64 q payload s
  | .minF32 q payload => Sys2Proof.Machine.execMinF32 q payload s
  | .maxF32 q payload => Sys2Proof.Machine.execMaxF32 q payload s
  | .and64 q payload => Sys2Proof.Machine.execAnd64 q payload s
  | .or64 q payload => Sys2Proof.Machine.execOr64 q payload s
  | .xor64 q payload => Sys2Proof.Machine.execXor64 q payload s
  | .swap32 q payload => Sys2Proof.Machine.execSwap32 q payload s
  | .swap64 q payload => Sys2Proof.Machine.execSwap64 q payload s
  | .cas32 q payload => Sys2Proof.Machine.execCas32 q payload s
  | .cas64 q payload => Sys2Proof.Machine.execCas64 q payload s
  | .cas128 q payload => Sys2Proof.Machine.execCas128 q payload s
  | .leaseSweep plinth => Sys2Proof.Machine.execLeaseSweep plinth s
  | .waypointStoresDrained tag => Sys2Proof.Machine.execWaypointStoresDrained tag s
  | .arrive tag child => Sys2Proof.Machine.execArrive tag child s
  | .waypointCommit tag value seeds draws => Sys2Proof.Machine.execWaypointCommit tag value seeds draws s
  | .waypointAbort tag missing => Sys2Proof.Machine.execWaypointAbort tag missing s
  | .rootWaypointTimeout tag => Sys2Proof.Machine.execRootWaypointTimeout tag s
  | .memberWaypointTimeout tag => Sys2Proof.Machine.execMemberWaypointTimeout tag s
  | .waypointReportRequest tag asker => Sys2Proof.Machine.execWaypointReportRequest tag asker s
  | .waypointReport tag value missing seeds draws => Sys2Proof.Machine.execWaypointReport tag value missing seeds draws s
  | .fix tag node base length asker => Sys2Proof.Machine.execFix tag node base length asker s
  | .unfixInvalidate tag node base length asker => Sys2Proof.Machine.execUnfixInvalidate tag node base length asker s
  | .unfixRelease tag node base length asker => Sys2Proof.Machine.execUnfixRelease tag node base length asker s
  | .collData collId member data => Sys2Proof.Machine.execCollData collId member data s
  | .collectivePhaseDone collId status => Sys2Proof.Machine.execCollectivePhaseDone collId status s
  | .collTimeoutExpiry collId => Sys2Proof.Machine.execCollTimeoutExpiry collId s
  | .resyncDone => Sys2Proof.Machine.execResyncDone s
  | .heaterLoopStep beacon ring monitor => Sys2Proof.Machine.execHeaterLoopStep beacon ring monitor s
  | .feedForwardNotice beacon rate => Sys2Proof.Machine.execFeedForwardNotice beacon rate s
  | .exsarHeartbeatMiss beacon => Sys2Proof.Machine.execExsarHeartbeatMiss beacon s
  | .exsarHeartbeat beacon => Sys2Proof.Machine.execExsarHeartbeat beacon s
  | .heartbeatAutonomyTimeout beacon => Sys2Proof.Machine.execHeartbeatAutonomyTimeout beacon s
  | .matrixFit beacon bank => Sys2Proof.Machine.execMatrixFit beacon bank s
  | .matrixFitDone beacon bank residual entries => Sys2Proof.Machine.execMatrixFitDone beacon bank residual entries s
  | .sight beacon ring => Sys2Proof.Machine.execSight beacon ring s
  | .sightDone beacon ring peak code => Sys2Proof.Machine.execSightDone beacon ring peak code s
  | .gapNotice beacon pl hold => Sys2Proof.Machine.execGapNotice beacon pl hold s
  | .idleWindowExpiry beacon port => Sys2Proof.Machine.execIdleWindowExpiry beacon port s
  | .forcedSight beacon ring => Sys2Proof.Machine.execForcedSight beacon ring s
  | .laneBerEvaluation beacon line long => Sys2Proof.Machine.execLaneBerEvaluation beacon line long s
  | .codewordRx beacon line header errors payload => Sys2Proof.Machine.execCodewordRx beacon line header errors payload s
  | .silentLaneTimeout beacon line mislocked => Sys2Proof.Machine.execSilentLaneTimeout beacon line mislocked s
  | .repoint beacon step => Sys2Proof.Machine.execRepoint beacon step s
  | .linkLanes beacon port side mask => Sys2Proof.Machine.execLinkLanes beacon port side mask s
  | .cmisFlagPoll beacon flags lost dark => Sys2Proof.Machine.execCmisFlagPoll beacon flags lost dark s
  | .lsmInterrupt beacon flags lost dark => Sys2Proof.Machine.execLsmInterrupt beacon flags lost dark s
  | .laserModuleTimeout beacon => Sys2Proof.Machine.execLaserModuleTimeout beacon s
  | .fabricFlitRx beacon port flit => Sys2Proof.Machine.execFabricFlitRx beacon port flit s
  | .fabricAckTimer beacon port => Sys2Proof.Machine.execFabricAckTimer beacon port s
  | .replayTimerExpiry beacon port => Sys2Proof.Machine.execReplayTimerExpiry beacon port s
  | .spillMove beacon port count => Sys2Proof.Machine.execSpillMove beacon port count s
  | .linkHello beacon port h => Sys2Proof.Machine.execLinkHello beacon port h s
  | .linkAck beacon port session ackSeq flags echo => Sys2Proof.Machine.execLinkAck beacon port session ackSeq flags echo s
  | .fabricLinkCredit beacon port session granted => Sys2Proof.Machine.execFabricLinkCredit beacon port session granted s
  | .creditReportTimer beacon port => Sys2Proof.Machine.execCreditReportTimer beacon port s
  | .routeFail cause hop word => Sys2Proof.Machine.execRouteFail cause hop word s
  | .routeFailHoldExpiry word => Sys2Proof.Machine.execRouteFailHoldExpiry word s
  | .channelBringup beacon port lanes sender => Sys2Proof.Machine.execChannelBringup beacon port lanes sender s
  | .lockLossTimeout beacon port => Sys2Proof.Machine.execLockLossTimeout beacon port s
  | .poolStallExpiry beacon port => Sys2Proof.Machine.execPoolStallExpiry beacon port s
  | .completionTimeoutExpiry reqId => Sys2Proof.Machine.execCompletionTimeoutExpiry reqId s
  | .hallRepointRelease beacon => Sys2Proof.Machine.execHallRepointRelease beacon s
  | .descriptorStart plinth chan => Sys2Proof.Machine.execDescriptorStart plinth chan s
  | .tenderReadCompletion plinth chan tag status data => Sys2Proof.Machine.execTenderReadCompletion plinth chan tag status data s
  | .tenderStoreCompletion plinth chan tag status => Sys2Proof.Machine.execTenderStoreCompletion plinth chan tag status s
  | .descriptorEnd plinth chan => Sys2Proof.Machine.execDescriptorEnd plinth chan s
  | .requestLineAssert plinth line data => Sys2Proof.Machine.execRequestLineAssert plinth line data s
  | .channelPaused plinth chan => Sys2Proof.Machine.execChannelPaused plinth chan s
  | .pausePwrTimeout plinth chan => Sys2Proof.Machine.execPausePwrTimeout plinth chan s
  | .sensorSample die samples => Sys2Proof.Machine.execSensorSample die samples s
  | .rateMonitorEvaluation die tj => Sys2Proof.Machine.execRateMonitorEvaluation die tj s
  | .voltageLoopStep die => Sys2Proof.Machine.execVoltageLoopStep die s
  | .budgetExchange reports => Sys2Proof.Machine.execBudgetExchange reports s
  | .powerEstimate die watts => Sys2Proof.Machine.execPowerEstimate die watts s
  | .budgetTimeout die => Sys2Proof.Machine.execBudgetTimeout die s
  | .railTelemetryRead rail reading => Sys2Proof.Machine.execRailTelemetryRead rail reading s
  | .smbalert rail status => Sys2Proof.Machine.execSmbalert rail status s
  | .shutdownTrip die tj exsarRuns => Sys2Proof.Machine.execShutdownTrip die tj exsarRuns s
  | .domainIdleExpiry die dom => Sys2Proof.Machine.execDomainIdleExpiry die dom s
  | .powerShed => Sys2Proof.Machine.execPowerShed s
  | .domainWake die dom => Sys2Proof.Machine.execDomainWake die dom s
  | .fuseProgram => Sys2Proof.Machine.execFuseProgram s
  | .serviceCoreHung plinth => Sys2Proof.Machine.execServiceCoreHung plinth s
  | .coreHeartbeatMiss coreB => Sys2Proof.Machine.execCoreHeartbeatMiss coreB s
  | .coreFailover gapUs => Sys2Proof.Machine.execCoreFailover gapUs s
  | .coreRestart pass => Sys2Proof.Machine.execCoreRestart pass s
  | .binnacleLost coreB => Sys2Proof.Machine.execBinnacleLost coreB s
  | .failureStop cause exsarRuns => Sys2Proof.Machine.execFailureStop cause exsarRuns s
  | .plinthReferenceLoss plinth => Sys2Proof.Machine.execPlinthReferenceLoss plinth s
  | .unlockLifetimeExpiry => Sys2Proof.Machine.execUnlockLifetimeExpiry s
  | .powerOff => Sys2Proof.Machine.execPowerOff s
  | .ethernetLinkLoss => Sys2Proof.Machine.execEthernetLinkLoss s
  | .ethernetLinkUp => Sys2Proof.Machine.execEthernetLinkUp s
  | .refresh stack => Sys2Proof.Machine.execRefresh stack s
  | .softRepairDone stack blocks => Sys2Proof.Machine.execSoftRepairDone stack blocks s
  | .phyLinkFailure stack => Sys2Proof.Machine.execPhyLinkFailure stack s
  | .bundleSleep link bundle => Sys2Proof.Machine.execBundleSleep link bundle s
  | .membershipRequestRetry tag => Sys2Proof.Machine.execMembershipRequestRetry tag s
  | .fixAck tag member phase => Sys2Proof.Machine.execFixAck tag member phase s
  | .regionFixTimeout tag => Sys2Proof.Machine.execRegionFixTimeout tag s
  | .norProgramDone => Sys2Proof.Machine.execNorProgramDone s

end Sys2Proof.Machine
end

