-- ==== Sys2Proof/Machine/Tick.lean ====
section
/-!
DEFINITION. What one period of the 156.25 MHz reference does when no command waits: reference counts and the counters of reference periods
(03: R114; 05: R172; 06: R199; 09: R311; 10: R346; 11: R373; 15: R473). Everything else the spec times is a row of the table
(assumption 2).
-/
namespace Sys2Proof.Machine

open Sys2Proof

/-- Does the reference run: the plinths' rails up and RESET_N high (14: R425, R426)? -/
def State.clockRuns (s : State) : Bool := s.pins.aux && s.pins.mainRails && s.pins.resetN

/-- Does a die count: powered, and not fenced or retired? Compute dies and beacons have Exsar's rails (14: R425). -/
def State.dieRuns (s : State) (d : Nat) : Bool := (s.die d).life == .up && (s.pins.exsarRails || (decide (12 ≤ d) && decide (d < 16)))

/-- One period of a die's reference count, and its own counters (03: R114; 15: R473). -/
def State.tickDie (s : State) (d : Nat) : State :=
  if !s.dieRuns d then s
  else
    let x := s.die d
    let s := s.setDie d { x with refCount := addMod 64 x.refCount 1 }
    let s := if d < 12 ∧ x.fThermal < factorOne then s.bumpDie d 0 1 else s
    if d < 12 ∧ x.fPower < factorOne then s.bumpDie d 1 1 else s

/-! ### Stages (03: R114) -/

/-- Does an input port the stage reads offer a record of the batch it takes up? -/
def Job.fed (j : Job) (x : Stage) : Bool := (connected j.p.arm j.i).any (fun port => (dataOf j x port).isSome)

/-- Does an output port lack credit for one record? -/
def Job.blocked (j : Job) : Bool := (outPorts j.p.arm j.i).any (fun port => !hasCredit j.p j.i port 1)

/-- Is index intake stopped by a full window: entries to come, and 4,096 slots in use (03: R100)? -/
def Job.windowFull (j : Job) (x : Stage) : Bool :=
  match windowFor j x.g with
  | none => false
  | some w => decide (4096 ≤ slotsOf x.g w) && (j.fed x || x.g.items.any (fun t => t.window = w && !t.todo.isEmpty))

/-- Does a pass wait for a B tile from IN1 (03: R84)? -/
def Job.waitsB (j : Job) (x : Stage) : Bool :=
  mBFromIn1 (j.p.ent j.i) && x.m.started && x.m.bCur.isNone && !x.m.computed && !x.m.full

/-- One period of a stage: 3 BUSY_REF, 4 STARVED_REF, 5 BLOCKED_REF, 7 BLOAD_WAIT_REF, 12 WINDOW_FULL_REF. -/
def State.tickStage (s : State) (k : Nat) : State :=
  match s.boundAt k with
  | none => s
  | some (_, i, p) =>
    let x := s.stage k
    let job := s.job k
    let fed := ((if stType k = 2 then s.intake k else job).map (fun j => j.fed x)).getD false
    let s1 := if job.isSome then s.bumpStage k 3 1 else s
    let s2 := if x.st == .running && s.running k && !(connected p.arm i).isEmpty && !fed then s1.bumpStage k 4 1 else s1
    let s3 := if (job.map Job.blocked).getD false then s2.bumpStage k 5 1 else s2
    let s4 := if stType k = 0 ∧ (job.map (fun j => j.waitsB x)).getD false then s3.bumpStage k 7 1 else s3
    if stType k = 2 ∧ ((s.intake k).map (fun j => j.windowFull x)).getD false then s4.bumpStage k 12 1 else s4

/-! ### Pipelines (05: R172) -/

/-- Does a V-stage of the pipeline wait for an undo row (05: R155)? -/
def State.undoStall (s : State) (p : Pipe) : Bool :=
  p.stgs.any (fun k => ((s.job k).map (fun j => (s.stage k).v.undoWait == some j.b.epoch && !j.p.isHead j.b.epoch)).getD false)

/-- Does a read or load of a run-ahead batch wait for its epoch to become the head (05: R151)? -/
def State.readGated (s : State) (p : Pipe) : Bool :=
  p.stgs.any (fun k => (s.stage k).g.reqs.any (fun r => !r.issued && r.op.isNone && !r.discard)) ||
    (List.range (armNLoad p.arm)).any (fun l => ldWhen p.arm l == 2 && !regRunAhead p.arm (ldRegion p.arm l) &&
      p.batches.any (fun b => !p.isHead b.epoch && !p.loadsDone.contains (l, b.epoch)))

/-- Does a load or FEED source of the pipeline wait for a channel (04: R129)? -/
def State.chanWaits (s : State) (pl : Nat) : Bool := (Tbl.vals s.chanQueue).any (fun q => q.any (fun r => r.pipe == pl))

/-- One period of a pipeline: 8 HELD_STALL_REF, 9 UNDO_STALL_REF, 10 GATED_READ_REF, 11 CHANNEL_WAIT_REF. -/
def State.tickPipe (s : State) (pl : Nat) : State :=
  match s.pipe? pl with
  | none => s
  | some p =>
    let s1 := if p.stgs.any (fun k => (s.stage k).v.waitHeld && ((s.job k).map (fun j => !j.p.isHead j.b.epoch)).getD false) then s.bumpPipe pl 8 1 else s
    let s2 := if s.undoStall p then s1.bumpPipe pl 9 1 else s1
    let s3 := if s.readGated p then s2.bumpPipe pl 10 1 else s2
    if s.chanWaits pl then s3.bumpPipe pl 11 1 else s3

/-! ### Stacks, tenders, beacons -/

/-- One period of a stack in band 3 (06: R187, R199). -/
def State.tickStack (s : State) (k : Nat) : State := if (s.stack k).band = 3 then s.bumpStack k 3 1 else s

/-- One period of a plinth's tender with no buffer slot free (11: R373). -/
def State.tickTender (s : State) (p : Nat) : State :=
  if 4096 ≤ s.slotsUsed p then { s with tenders := Tbl.upd s.tenders p {} (fun t => { t with bufFull := satAdd 64 t.bufFull 1 }) } else s

/-- One period of the withdrawn lines of a beacon (09: R311). -/
def State.tickLines (s : State) (b : Nat) : State :=
  if !s.dieRuns (16 + b) then s
  else
    let e := s.beacon b
    s.setBeacon b { e with lanes := e.lanes.map (fun (l : Nat × Lane) =>
      if l.2.st = .withdrawn then (l.1, { l.2 with counters := bumpTbl l.2.counters 4 64 1 }) else l) }

/-- One period of a sending port whose oldest waiting packet lacks credit (10: R331, R346). -/
def State.tickPort (s : State) (i : Nat) : State :=
  let b := i / 16
  let q := i % 16
  let e := s.tx b q
  if s.portUp b q && (e.waiting.head?.map (fun u => decide (e.avail u.pkt.tc < u.charge))).getD false then s.bumpTx b q 3 1 else s

/-- One reference period. -/
def tick (s : State) : State :=
  if !s.clockRuns then s
  else
    let s := (List.range 24).foldl State.tickDie s
    let s := (Tbl.keys s.stages).foldl State.tickStage s
    let s := (Tbl.keys s.pipes).foldl State.tickPipe s
    let s := (Tbl.keys s.hbmStacks).foldl State.tickStack s
    let s := (List.range 4).foldl State.tickTender s
    let s := (List.range 8).foldl State.tickLines s
    (Tbl.keys s.txEnds).foldl State.tickPort s

end Sys2Proof.Machine
end

