-- ==== Sys2Proof/Safety.lean ====
section
/-!
DEFINITION. What counts as a safe state, and the terms the claims are stated with: the memory's invariant, when a mailbox takes a
command, and what an answered command leaves.
-/
namespace Sys2Proof.Machine

open Sys2Proof

/-- The package's memory and every local store keep the canonical form. -/
def State.memOk (s : State) : Prop := Memory.wf s.mem.cells = true ∧ ∀ p ∈ s.stages, Memory.wf p.2.store.cells = true

/-- The mailbox takes a command of this CMD_SEQ and body now: Exsar serves the port, its partition exists, nothing runs in it, and the
command is the first that waits in it, as the frame or message that carried it left it (00: R3; 12: R382, R386). -/
def State.takes (s : State) (mb seq : Nat) (body : List Byte) : Prop :=
  s.helmOn = true ∧ s.partExists (mbPartition mb) = true ∧ (s.mbox mb).running = none ∧
    ∃ cs, (s.mbox mb).queue = { seq := seq, body := body } :: cs

/-- The state in which the mailbox runs the command it has taken (12: R386). -/
def State.taken (s : State) (mb seq : Nat) (body : List Byte) : State :=
  s.setMbox mb { s.mbox mb with running := some seq, runCode := field body 0 2, queue := (s.mbox mb).queue.tail }

/-- A command of the Ethernet port that its mailbox takes while the device is READY or TEST: `h` is CODE and its reserved bytes, `p` the
payload (13: R397, R399). -/
def State.serves (s : State) (mb seq : Nat) (h p : List Byte) : Prop :=
  h.length = 4 ∧ s.isReady = true ∧ mb ≠ sbKey ∧ s.takes mb seq (h ++ p)

/-- The same from a mailbox of PT0 (13: R401). -/
def State.serves0 (s : State) (mb seq : Nat) (h p : List Byte) : Prop := s.serves mb seq h p ∧ mbPartition mb = 0

/-- The mailbox is free again and its outbound queue holds the response's frames, one after the other (12: R379, R386, R387). -/
def State.answered (t : State) (mb code status seq : Nat) (payload : List Byte) : Prop :=
  respFrames mb code status seq (t.framePayload mb) (payload.length + 1) payload <:+: (t.mbox mb).out ∧ (t.mbox mb).running = none

/-- `t` is `u` but for the queues of one mailbox. -/
def State.onlyMailbox (u t : State) (mb : Nat) : Prop :=
  t = { u with helm := { u.helm with mailboxes := t.helm.mailboxes } } ∧ (∀ k, k ≠ mb → t.mbox k = u.mbox k) ∧
    (t.mbox mb).mask = (u.mbox mb).mask ∧ (t.mbox mb).promised = (u.mbox mb).promised ∧ (t.mbox mb).lost = (u.mbox mb).lost

/-- Nothing waits for memory, for a route or for requests under way. -/
def State.noneWait (s : State) : Prop :=
  s.relayWait = [] ∧ s.fab.mirrorWait = [] ∧ s.fab.colls = [] ∧ s.helm.memOps = [] ∧ s.helm.winWaits = []

/-- The pipeline of an identifier is this one, and commands of the mailbox may name it (04: R117; 13: R401). -/
def State.names (s : State) (mb seq pl : Nat) (q : Pipe) : Prop :=
  s.pipe? pl = some q ∧ mayName (mb, seq) q.partition = true ∧ q.loadWait = none

/-- A run of bytes inside one block of the package's own memory, which nothing keeps busy: no re-lay, no repair, no older request, no poison, no
twin that has to follow (06: R173, R176, R184, R189, R190, R194; 08: R272). -/
def State.plainRun (s : State) (a n : Nat) : Prop :=
  1 ≤ n ∧ a % 256 + n ≤ 256 ∧ a + n ≤ 2 ^ 56 ∧ s.isLocal a = true ∧ s.memBusy (localOf a) = false ∧ s.isPoison (localOf a) = false ∧
    (s.fab.twin = .none ∨ s.fab.twin = .solo ∨ s.isMirrored (localOf a) n = false)

/-- No host channel of the plinth has a descriptor that moves data. -/
def State.quiet (s : State) (plinth : Nat) : Prop := ∀ x ∈ s.chans, x.1 / 64 = plinth → x.1 % 64 < 48 → x.2.moves = false

/-- No other host channel of the plinth has a descriptor that moves data. -/
def State.restOf (s : State) (plinth k : Nat) : Prop :=
  ∀ x ∈ s.chans, x.1 / 64 = plinth → x.1 % 64 < 48 → x.1 ≠ k → x.2.moves = false

/-- The stage works on this batch, or takes it up where it is a G-stage, and its entry is of this TYPE and opcode; nothing of its waits to be sent, and
every output port has credit (03: R68, R78, R82, R91, R98, R100, R107). -/
def State.works (s : State) (k : Nat) (j : Job) (typ opcode : Nat) : Prop :=
  (if typ = 2 then s.intake k else s.job k) = some j ∧ stTypeOf (j.p.ent j.i) = typ ∧ stOpcode (j.p.ent j.i) = opcode ∧
    j.clear (s.stage k) = true

/-- Does a V instruction read both inputs of the run (04: R123)? -/
def vReadsBoth (i : List Byte) : Bool :=
  [4, 6, 8].any (fun o => [1, 4, 5].contains (vKind i o)) && [4, 6, 8].any (fun o => vKind i o == 2)

/-- A V-stage in the middle of a run stands at this instruction of this operation; where it reads both inputs, their records agree (04: R123,
R124). -/
def State.vAt (s : State) (k : Nat) (j : Job) (i : List Byte) (opc : Nat) : Prop :=
  s.works k j 1 0x20 ∧ (s.stage k).v.inRun = true ∧ ((s.stage k).v.waitHeld = false ∨ j.p.isHead j.b.epoch = true) ∧
    (vNames2 i = true → (s.stage k).v.run2.isSome = true ∨ (s.stage k).v.atEnd = true) ∧
    vInstr j.p.arm (j.p.ent j.i) (s.stage k).v.ip = i ∧ vOpc i = opc ∧
    ∀ r0 r1, vReadsBoth i = true → (s.stage k).v.run0 = some r0 → (s.stage k).v.run1 = some r1 → r0.payload.length = r1.payload.length ∧ r0.segEnd = r1.segEnd

/-- Nothing of the other stages, the other pipelines and memory has changed. -/
def State.stageOnly (s t : State) (k pl : Nat) : Prop :=
  (∀ q, q ≠ k → t.stage q = s.stage q) ∧ (∀ q, q ≠ pl → t.pipe? q = s.pipe? q) ∧ t.mem = s.mem

/-- DATA records of an epoch that carry these bytes, SEG_END on the last (03: R77). -/
def recsOf (w epoch : Nat) (segEnd : Bool) (bs : List Byte) : List Rec :=
  let ps := cutRecs w (bs.length + 1) bs
  (List.range ps.length).map (fun n => { typ := .data, segEnd := segEnd && n + 1 == ps.length, epoch := epoch, payload := ps.getD n [] })

/-- A stream's sender has put these records on it, in order, and after them only markers (03: R80; 04: R134). -/
def State.sentOn (s t : State) (pl q : Nat) (rs : List Rec) : Prop :=
  ∃ p p', s.pipe? pl = some p ∧ t.pipe? pl = some p' ∧ ∃ ms, (p'.str q).wire = (p.str q).wire ++ rs ++ ms ∧ ∀ m ∈ ms, m.typ ≠ .data

/-- Every stream of an output port of the stage has these bytes on it. -/
def State.sentAll (s t : State) (j : Job) (port : Nat) (segEnd : Bool) (bs : List Byte) : Prop :=
  ∀ q ∈ streamsFrom j.p.arm j.i port,
    s.sentOn t j.pl q (recsOf (portWidth ((outKind (stTypeOf (j.p.ent j.i)) port).getD false)) j.b.epoch segEnd bs)

/-- The run goes on at the next instruction that executes, or has ended after the last (04: R123). -/
def State.runMoved (s t : State) (k : Nat) (j : Job) : Prop :=
  let code := vCode j.p.arm (j.p.ent j.i)
  let n := vNext code (s.stage k) ((s.stage k).v.ip + 1)
  (n < code.length → (t.stage k).v.ip = n ∧ (t.stage k).v.inRun = true) ∧ (code.length ≤ n → (t.stage k).v.inRun = false)

/-- The instruction may put `n` bits of its result, from a bit of the destination on, where DST names: the rows that it writes are saved or need not be,
or the output port has credit for all of it (03: R78; 05: R155). -/
def vRoom (j : Job) (x : Stage) (i : List Byte) (lo n : Nat) : Prop :=
  (vKind i 2 = 0 → undoFits x (j.p.isHead j.b.epoch) j.b.epoch (vRows x i lo n) = true) ∧
    ∀ port, port < 2 → vKind i 2 = 6 + port → canEmit j.p j.i port (recsFor 2048 ((n + 7) / 8)) = true

/-- `n` bits are stored from a bit of the row that DST names on, under the mask, or sent where it names an output (03: R91; 04: R123). -/
def State.vPlaced (s t : State) (k : Nat) (j : Job) (i : List Byte) (lo n : Nat) (bs : List Byte) : Prop :=
  let x := s.stage k
  (t.stage k).store = (if vKind i 2 = 0 then rowWritten x.store (vMask x i) (vOperandRow i 2 x.v.seg) lo n bs else x.store) ∧
  (vKind i 2 = 6 → s.sentAll t j 0 (vSegEnd x) bs) ∧ (vKind i 2 = 7 → s.sentAll t j 1 (vSegEnd x) bs)

/-- The A row an M-stage's step works on is at hand: in the local store, or whole on IN0 with the part taken before it (03: R84, R87). -/
def State.aRowIs (s : State) (k : Nat) (j : Job) (a : Line) : Prop :=
  let e := j.p.ent j.i
  let x := s.stage k
  let kn := mKAt e x.m.kt
  if mAFromLs e then
    a = aFromLs j e x.store (if mSlice e then (slicePairs.getD x.m.pair (0, 0)).1 else 0) (512 * x.m.rt + x.m.row) (mKt e * x.m.kt) kn
  else ∃ f, dataOf j x 0 = some f ∧ aRowBytes e kn ≤ (x.m.aPart ++ f.2.2.payload).length ∧ a = aFromIn e (x.m.aPart ++ f.2.2.payload) kn

/-- The B tile of the step is at hand: in the local store, or in the cells with nothing on IN1 (03: R84, R86). -/
def State.bTileIs (s : State) (k : Nat) (j : Job) : Prop :=
  if mBFromIn1 (j.p.ent j.i) then (s.stage k).m.bCur.isSome = true ∧ dataOf j (s.stage k) 1 = none else (s.stage k).m.bCur = none

/-- An S-stage works, and a record stands on IN0 with the identifiers it needs, or none to come (03: R106, R109). -/
def State.sAt (s : State) (k : Nat) (j : Job) (op : Nat) (f : Nat × Nat × Rec) : Prop :=
  s.works k j 3 op ∧ dataOf j (s.stage k) 0 = some f ∧ dataOf j (s.stage k) 1 = none ∧
    ((unpack (sFmtIn (j.p.ent j.i)).width f.2.2.payload).length ≤ (s.stage k).s.ids.length ∨ (connected j.p.arm j.i).contains 1 = false)

/-- An output of a stage has credit for these bytes. -/
def Job.roomFor (j : Job) (port : Nat) (bs : List Byte) : Prop :=
  canEmit j.p j.i port (recsFor (portWidth ((outKind (stTypeOf (j.p.ent j.i)) port).getD false)) bs.length) = true

/-- No atomic or read of the epoch waits in a G-stage to be issued (05: R155, R161). -/
def State.gIssued (s : State) (p : Pipe) (e : Nat) : Prop :=
  ∀ k ∈ p.stgs, ∀ r ∈ (s.stage k).g.reqs, r.epoch = e → r.issued = true ∨ r.discard = true ∨ r.leader ≠ none

/-- The held stores of a stage for an epoch, in the order it executed them (05: R154). -/
def State.heldOf (s : State) (pl k e : Nat) : List HeldStore :=
  (Tbl.getD s.held (stDie k) []).filter (fun h => decide (h.pipe = pl ∧ h.stage = k ∧ h.epoch = e))

/-- A mailbox's outbound queue ends with a completion record of this code and these bytes (12: R387, R388). -/
def State.completed (t : State) (mb code source : Nat) (data : List Byte) : Prop :=
  ∃ ref lost, { kind := .completion, body := eventRecord code 0 0 source ref lost data } ∈ (t.mbox mb).out

/-- One packet more stands in the queues: in the one of its class, from its sender's place to its unit's. -/
def State.handed (s t : State) (p : HubPkt) : Prop := t.hubQ = (s.toUnit p).hubQ

/-- A completion as the hub hands it to a unit, from the unit that answers, in the request's partition (07: R212). -/
def completionPkt (src pt unit tag status : Nat) (data : List Byte) : HubPkt :=
  { typ := 6, tc := 2, partition := pt, src := src, dst := unit, tag := tag, specific := status, payload := data }

/-- A request of a unit in service, none of its packets waiting at its hub. -/
def State.fromUnit (s : State) (q : UnitReq) : Prop :=
  s.unitUp q.src = true ∧ q.src ≠ exsarUnit ∧ ∀ x ∈ s.hubOut, x.src ≠ q.src

/-- A request of another package finds its block free: nothing there keeps it waiting (06: R176, R177, R189, R190, R194). -/
def State.atHome (s : State) (q : FabReq) : Prop := s.memBusy (localOf q.addr) = false

/-- An answer to another package's request leaves its home after the memory's part, which is `u`: the stacks, the poison marks and the packets delivered have
changed, and the bytes of memory as `u` has them. -/
def State.repliedFrom (s t u : State) (q : FabReq) (status : Nat) (data : List Byte) : Prop :=
  u = { s with hbmStacks := u.hbmStacks, skew := u.skew, poison := u.poison, mem := u.mem, atomicUnits := u.atomicUnits, fab := { s.fab with arrived := u.fab.arrived } } ∧
    t = u.reply (homePlinth (localOf q.addr)) q.srcNode q.hallTag q.srcUnit q.reqId status data

/-- A command of a mailbox still waits for its answer (12: R386). -/
def State.awaits (s : State) (w : Waiter) : Prop := (s.mbox w.1).running = some w.2

/-- The state but for what waits at the home hubs among the delivered packets, from which a row may have taken its own. -/
def State.arrivedFrom (s u : State) : Prop := u = { s with fab := { s.fab with arrived := u.fab.arrived } }

/-- The regions of a tag after a commit: those armed before the advance are in effect (08: R253, R276). -/
def regionsAfter (rs : List Region) : List Region :=
  rs.map (fun r => if r.st = .armed then (if r.afterNext then { r with afterNext := false } else { r with st := .inEffect }) else r)

/-- The rows of the commands that wait for READY: the row, its CODE, and where a CODE has several rows the payload's offset and value that name this one
(13: R399 and the command tables; two rows with operands of their own, CAST_COMMIT and UNLOCK_CHALLENGE, stand apart). -/
def readyRows : List ((Nat → Nat → List Byte → Instr) × Nat × Option (Nat × Nat)) :=
  [
    (.logbookClear, 0x0005, none), (.hostPortConfig, 0x0007, none), (.powerBudgetSet, 0x0008, none),
    (.powerBudgetGet, 0x0009, none), (.partitionCreate, 0x0010, none), (.partitionSet, 0x0011, none),
    (.partitionRemove, 0x0012, none), (.partitionQuery, 0x0013, none), (.windowSet, 0x0014, none), (.windowRead, 0x0015, none),
    (.keySlotSet, 0x0016, none), (.keySlotRead, 0x0017, none), (.tagMembers, 0x0018, none), (.tagMembersRead, 0x0019, none),
    (.pipelineLoad, 0x0020, none), (.pipelineInvoke, 0x0021, none), (.pipelineStopDrain, 0x0022, some (1, 0)),
    (.pipelineStopAbort, 0x0022, some (1, 1)), (.pipelineQuery, 0x0023, none), (.pipelineRelease, 0x0024, none),
    (.memoryRead, 0x0028, none), (.memoryWrite, 0x0029, none), (.hbmRepair, 0x002A, none), (.tenderStart, 0x0030, none),
    (.tenderPause, 0x0031, some (2, 0)), (.tenderResume, 0x0031, some (2, 1)), (.tenderAbort, 0x0031, some (2, 2)),
    (.tenderWeight, 0x0031, some (2, 3)), (.tenderRateCap, 0x0031, some (2, 4)), (.tenderReset, 0x0032, none),
    (.tenderQuery, 0x0033, none), (.tenderAssign, 0x0034, none)] ++
  [
    (.bulkOpen, 0x0035, none), (.bulkClose, 0x0036, none), (.fabricJoin, 0x0040, none), (.routeWrite, 0x0041, none),
    (.routeRead, 0x0042, none), (.waypointAdvance, 0x0043, none), (.waypointRead, 0x0044, none), (.regionFix, 0x0045, none),
    (.regionUnfix, 0x0046, none), (.regionList, 0x0047, none), (.collectiveStart, 0x0048, none), (.beaconRepoint, 0x0049, none),
    (.beaconLaneReturn, 0x004A, some (4, 0)), (.beaconLaneRetire, 0x004A, some (4, 1)), (.maquetteSet, 0x0050, none),
    (.maquetteRead, 0x0051, none), (.maquetteDiscard, 0x0052, none), (.castCommitArm, 0x0053, some (0, 1)),
    (.castCommitDisarm, 0x0053, some (0, 2)), (.castReturn, 0x0054, none), (.updateStage, 0x0055, none),
    (.updateArmNextStart, 0x0056, some (0, 0)), (.updateArmWaypoint, 0x0056, some (0, 1)), (.updateDisarm, 0x0056, some (0, 2)),
    (.updateStatus, 0x0057, none), (.unlockResponsePassword, 0x0062, some (0, 0)), (.unlockResponseSm2, 0x0062, some (0, 1)),
    (.lock, 0x0063, none), (.serviceRead, 0x0064, none), (.serviceWrite, 0x0065, none), (.twinState, 0x0070, none),
    (.twinResync, 0x0071, none), (.dieReset, 0x0072, none)]

/-- The six commands that do not (13: R399). -/
def earlyRows : List ((Nat → Nat → List Byte → Instr) × Nat) :=
  [(.queryCaps, 0x0001), (.deviceState, 0x0002), (.logbookRead, 0x0004), (.subscribe, 0x0006), (.attest, 0x0060), (.telemetryRead, 0x0003)]

/-- The codes that partitions other than PT0 may issue, for objects of their own (13: R401 and the command tables). -/
def ownerCodes : List Nat :=
  [0x0009, 0x0013, 0x0015, 0x0017, 0x0019, 0x0020, 0x0021, 0x0022, 0x0023, 0x0024, 0x0028, 0x0029, 0x0030, 0x0031, 0x0032, 0x0033, 0x0035, 0x0036, 0x0043, 0x0044, 0x0045, 0x0046, 0x0047, 0x0048, 0x0057]

/-- THERMTRIP_N stays low with the latch set, and FAILSTOP_N in failure stop (15: R458; 16: R494). -/
def State.stopPinsLow (s : State) : Prop :=
  (s.pins.shutdownLatch = true → s.pins.thermtripN = false) ∧ (s.boot.dev = .failureStop → s.pins.failstopN = false)

/-- The logbook holds a report of this code and source made at this count (16: R485). -/
def State.logged (t : State) (code source ref : Nat) : Prop :=
  ∃ e ∈ t.log.entries, e.code = code ∧ e.source = source ∧ e.refLast = ref

end Sys2Proof.Machine
end

