-- ==== Sys2Proof/Certificates/Slice0/Obligations.lean ====
section
/-!
DEFINITION. The statements for the provers. Each says what commands of the block do under hypotheses on the state and the operands alone; the
listing with the rules they rest on is OBLIGATIONS.json.
-/


open Sys2Proof Sys2Proof.Machine

/-! ### The queue of commands -/

/-- The model's own queue (its form is asked of a block, not the spec's): a step takes the command at the front and is that command's effect on
the state with the queue's rest; with nothing waiting the reference clock moves one period (assumption 2). -/
def Obligations.StepRunsTheFrontCommand : Prop :=
  (∀ (c : Instr) (cs : List Instr) (s : State), step { s with pending := c :: cs } = exec c { s with pending := cs }) ∧
    ∀ s : State, s.pending = [] → step s = .next (tick s)

/-! ### Helm: the device, its settings and its security -/

/-- 12: R403 and R462; 13: R420; 16: R487; 18: R529. Commands that read the device are answered OK with the bytes their rules lay out and
change nothing but the mailbox's queues.

12: R387, R389, R393; 15: R462; 16: R487. The commands that change the device's own settings: the mask of a mailbox, the package budget
(over the sideband), the logbook, the host port. -/
def Obligations.DeviceCommandsAnswer : Prop :=
  (∀ (s : State) (mb seq : Nat) (h p : List Byte), s.serves mb seq h p →
    (p = [] → ∃ t, exec (.queryCaps mb seq (h ++ p)) s = .next t ∧ s.onlyMailbox t mb ∧
      t.answered mb 0x0001 0 seq (leBytes 2 0xB000 ++ leBytes 4 s.firmware ++ leBytes 6 Config.macAddress ++ leBytes 4 0 ++
        (List.range 24).flatMap (fun d => leBytes 1 (Config.dieRevision d)) ++ leBytes 2 24 ++ linkList.flatMap s.linkRecord)) ∧
    (p = [] → ∃ t, exec (.deviceState mb seq (h ++ p)) s = .next t ∧ s.onlyMailbox t mb ∧
      t.answered mb 0x0002 0 seq (leBytes 1 s.boot.dev.code ++ leBytes 1 (b2n s.boot.activeB) ++ leBytes 1 (b2n s.boot.standbyOk) ++
        leBytes 1 s.fab.twin.code ++ leBytes 2 (s.fab.node.getD 0xFFFF) ++ leBytes 2 0 ++ leBytes 4 s.nor.cast.number ++
        leBytes 6 s.hallWaypoint ++ leBytes 2 0)) ∧
    (p.length = 4 → 1 ≤ field p 2 2 → field p 2 2 ≤ 128 → ∃ t, exec (.logbookRead mb seq (h ++ p)) s = .next t ∧ s.onlyMailbox t mb ∧
      ∃ es : List LogEntry, es <:+: s.log.entries ∧ es.length ≤ field p 2 2 ∧
        (∀ e ∈ s.log.entries.head?, s.log.entries.any (fun x => x.index == field p 0 2) = false → es.head? = some e) ∧
        t.answered mb 0x0004 0 seq (leBytes 4 s.log.lost ++ leBytes 2 ((es.head?.map (fun e => e.index)).getD s.log.next) ++
          leBytes 2 es.length ++ es.flatMap LogEntry.bytes)) ∧
    (p = [] → ∃ t, exec (.powerBudgetGet mb seq (h ++ p)) s = .next t ∧ s.onlyMailbox t mb ∧
      t.answered mb 0x0009 0 seq (leBytes 4 s.power.budget ++ leBytes 4 s.power.measured)) ∧
    (p = [] → ∃ t, exec (.updateStatus mb seq (h ++ p)) s = .next t ∧ s.onlyMailbox t mb ∧
      ∃ ver v, t.answered mb 0x0057 0 seq (leBytes 1 (b2n s.boot.bankB) ++ leBytes 4 s.firmware ++ leBytes 1 (b2n (!s.boot.bankB)) ++
          leBytes 4 ver ++ leBytes 1 s.armCode ++ leBytes 6 v) ∧
        (∀ x, s.upd.updArm = some x → v = x) ∧ (s.nor.record.state (!s.boot.bankB) = .empty → ver = 0)) ∧
    (mbPartition mb = 0 → p.length = 4 → field p 0 1 = 1 →
      ∃ t, exec (.maquetteRead mb seq (h ++ p)) s = .next t ∧ s.onlyMailbox t mb ∧
        t.answered mb 0x0051 0 seq (leBytes 4 s.nor.cast.number ++ castKeys.flatMap (fun k => s.readItem k (s.nor.cast.value k)))) ∧
    (p.length = 32 → ∃ t, exec (.attest mb seq (h ++ p)) s = .next t ∧ s.onlyMailbox t mb ∧
      if s.nor.fuses.lifecycle = 2 then t.answered mb 0x0060 0xA seq []
      else t.answered mb 0x0060 0 seq (s.reportBody p ++ padTo 64 (Config.signAk s.akMeasures (s.reportBody p))))) ∧
  ((∀ (s : State) (mb seq : Nat) (h p : List Byte), s.serves mb seq h p → p.length = 12 → mayName (mb, seq) (field p 1 1) = true →
    s.partExists (field p 1 1) = true → (field p 1 1 ≠ 0 → field p 4 8 % 2 ^ 12 < 16) →
    (field p 0 1 ≤ 7 → ∃ t, exec (.subscribe mb seq (h ++ p)) s = .next t ∧
      t.answered mb 0x0006 0 seq (leBytes 8 (s.mbox (8 * field p 1 1 + field p 0 1)).mask) ∧
      (t.mbox (8 * field p 1 1 + field p 0 1)).mask = field p 4 8 % 2 ^ 12 ∧
      ∀ k, k ≠ 8 * field p 1 1 + field p 0 1 → (t.mbox k).mask = (s.mbox k).mask) ∧
    (field p 0 1 = 0xFF → field p 1 1 = 0 → mbPartition mb = 0 → Nat.land (field p 4 8 % 2 ^ 12) 0x6C0 = field p 4 8 % 2 ^ 12 →
      ∃ t, exec (.subscribe mb seq (h ++ p)) s = .next t ∧ t.answered mb 0x0006 0 seq (leBytes 8 (s.mbox sbKey).mask) ∧
      (t.mbox sbKey).mask = field p 4 8 % 2 ^ 12 ∧ ∀ k, k ≠ sbKey → (t.mbox k).mask = (s.mbox k).mask)) ∧
  (∀ (s : State) (seq : Nat) (h p : List Byte), h.length = 4 → s.isReady = true → s.takes sbKey seq (h ++ p) → p.length = 4 →
    (1800 ≤ field p 0 4 ∧ field p 0 4 ≤ 7500 → ∃ t, exec (.powerBudgetSet sbKey seq (h ++ p)) s = .next t ∧
      t.answered sbKey 0x0008 0 seq (leBytes 4 (field p 0 4)) ∧
      { s with power := { s.power with budget := field p 0 4 } }.onlyMailbox t sbKey) ∧
    (field p 0 4 < 1800 ∨ 7500 < field p 0 4 → ∃ t, exec (.powerBudgetSet sbKey seq (h ++ p)) s = .next t ∧
      t.answered sbKey 0x0008 1 seq (leBytes 4 0) ∧ s.onlyMailbox t sbKey)) ∧
  (∀ (s : State) (mb seq : Nat) (h : List Byte), s.serves0 mb seq h [] →
    ∃ t, exec (.logbookClear mb seq (h ++ [])) s = .next t ∧
      t.answered mb 0x0005 0 seq (leBytes 2 s.log.entries.length ++ leBytes 2 0) ∧ t.log.lost = 0 ∧
      ∃ e, t.log.entries = [e] ∧ e.code = 0x0114 ∧ e.pinned = true ∧ e.index = s.log.next ∧
        e.data = padTo 64 (leBytes 2 s.log.entries.length ++ leBytes 4 s.log.lost)) ∧
  (∀ (s : State) (mb seq : Nat) (h p : List Byte), s.serves0 mb seq h p → field p 0 2 ≤ 0x1FF →
    p.length = 4 + 16 * (setBits 16 0 (field p 0 2)).length →
    (field p 0 2 = 0 → ∃ t, exec (.hostPortConfig mb seq (h ++ p)) s = .next t ∧ t.answered mb 0x0007 0 seq s.nor.hostCfg.answer ∧
      s.onlyMailbox t mb) ∧
    (∀ c, field p 0 2 ≠ 0 → s.norRange = true → putSettings (setBits 16 0 (field p 0 2)) 4 p s.nor.hostCfg = .inl c →
      ∃ t, exec (.hostPortConfig mb seq (h ++ p)) s = .next t ∧ t.nor.hostCfg = c ∧ t.answered mb 0x0007 0 seq c.answer) ∧
    (s.norRange = true → field p 0 2 = 2 ^ 7 → 100 ≤ field p 4 16 → field p 4 16 ≤ 100000 →
      ∃ t, exec (.hostPortConfig mb seq (h ++ p)) s = .next t ∧ t.nor.hostCfg = { s.nor.hostCfg with rto := field p 4 16 } ∧
        t.answered mb 0x0007 0 seq { s.nor.hostCfg with rto := field p 4 16 }.answer)))

/-- 17: R517 to R522. A challenge, its two kinds of response and the ways a level closes. A response consumes its challenge whether it
succeeds or not. -/
def Obligations.UnlockAndLock : Prop :=
  (∀ (s : State) (mb seq : Nat) (h p rand : List Byte), s.serves0 mb seq h p → p.length = 4 →
    (field p 0 1 = 1 ∨ field p 0 1 = 0 ∧ s.setting 0x00070001 ≠ 0 ∧ s.nor.unlockFails < 10 →
      ∃ t, exec (.unlockChallenge mb seq (h ++ p) rand) s = .next t ∧ t.answered mb 0x0061 0 seq (padTo 32 rand) ∧
        { s with sec := { s.sec with challenge := some (padTo 32 rand, field p 0 1, s.sessionOf mb, s.now0) } }.onlyMailbox t mb) ∧
    (field p 0 1 = 0 → s.setting 0x00070001 = 0 ∨ 10 ≤ s.nor.unlockFails →
      ∃ t, exec (.unlockChallenge mb seq (h ++ p) rand) s = .next t ∧ t.answered mb 0x0061 6 seq [] ∧ s.onlyMailbox t mb)) ∧
  (∀ (s : State) (mb seq : Nat) (h p c : List Byte), s.serves0 mb seq h p → p.length = 40 → field p 0 1 = 0 → field p 4 1 = 1 →
    s.norRange = true → s.validChallenge (s.sessionOf mb) 0 = some c →
    ∃ t, exec (.unlockResponsePassword mb seq (h ++ p)) s = .next t ∧ t.sec.challenge = none ∧
      if slice p 8 32 = Config.hmacSm3 (leBytes 32 (s.setting 0x00070001)) (c ++ deviceId ++ leBytes 1 1 ++ leBytes 4 (s.sessionOf mb)) then
        t.answered mb 0x0062 0 seq (leBytes 1 1 ++ leBytes 3 0) ∧ t.sec.level = 1 ∧ t.sec.levelSession = some (s.sessionOf mb) ∧
          t.nor.unlockFails = 0 ∧ t.sec.unlocks = satAdd 32 s.sec.unlocks 1
      else t.answered mb 0x0062 0xA seq [] ∧ t.sec.level = s.sec.level ∧ t.nor.unlockFails = s.nor.unlockFails + 1) ∧
  (∀ (s : State) (mb seq : Nat) (h p c : List Byte), s.serves0 mb seq h p → p.length = 136 → field p 0 1 = 1 →
    field p 5 1 ≤ 1 → (field p 4 1 = 1 ∨ field p 4 1 = 2 ∧ field p 5 1 = 1) → s.validChallenge (s.sessionOf mb) 1 = some c →
    ∃ t, exec (.unlockResponseSm2 mb seq (h ++ p)) s = .next t ∧ t.sec.challenge = none ∧
      if s.unlockKeyOk (field p 5 1) (slice p 8 64) && Config.sm2Verify (slice p 8 64)
          (c ++ deviceId ++ leBytes 1 (field p 4 1) ++ leBytes 1 (field p 5 1) ++ leBytes 4 (s.sessionOf mb)) (slice p 72 64) then
        t.answered mb 0x0062 0 seq (leBytes 1 (field p 4 1) ++ leBytes 3 0) ∧ t.sec.level = field p 4 1 ∧ t.nor.unlockFails = 0 ∧
          t.sec.unlocks = satAdd 32 s.sec.unlocks 1
      else t.answered mb 0x0062 0xA seq [] ∧ t.sec.level = s.sec.level ∧ t.nor.unlockFails = s.nor.unlockFails) ∧
  (∀ (s : State) (mb seq : Nat) (h p : List Byte), s.serves0 mb seq h p →
    (p.length = 40 → field p 0 1 = 0 → s.validChallenge (s.sessionOf mb) 0 = none →
      ∃ t, exec (.unlockResponsePassword mb seq (h ++ p)) s = .next t ∧ t.answered mb 0x0062 0xA seq [] ∧ s.onlyMailbox t mb) ∧
    (p.length = 136 → field p 0 1 = 1 → s.validChallenge (s.sessionOf mb) 1 = none →
      ∃ t, exec (.unlockResponseSm2 mb seq (h ++ p)) s = .next t ∧ t.answered mb 0x0062 0xA seq [] ∧ s.onlyMailbox t mb)) ∧
  (∀ (s : State) (mb seq : Nat) (h : List Byte), s.serves0 mb seq h [] →
    ∃ t, exec (.lock mb seq (h ++ [])) s = .next t ∧ t.sec.level = 0 ∧ t.answered mb 0x0063 0 seq []) ∧
  (∀ s : State, s.boot.dev = .failureStop → exec .unlockLifetimeExpiry s = .next s) ∧
  (∀ s : State, s.boot.dev ≠ .failureStop → ∃ t, exec .unlockLifetimeExpiry s = .next t ∧ t.sec.level = 0 ∧ t.sec.mr = s.sec.mr ∧ t.sec.unlocks = s.sec.unlocks ∧
    (s.sec.level = 0 → t = s) ∧
    (s.sec.level ≠ 0 → t = ({ s with sec := { s.sec with level := 0, levelSession := none, levelRef := 0 } }).post 0x005A exsarUnit []))

/-- 18: R534 to R538. The maquette and the cast commands.

18: R528 to R530; 15: R461. Staging goes on 4 KiB at a time, arms are set, replaced and removed. -/
def Obligations.CastAndUpdateCommandsChange : Prop :=
  ((∀ (s : State) (mb seq v : Nat) (h : List Byte), s.serves0 mb seq h (leBytes 2 1 ++ leBytes 2 0 ++ itemBytes 0x00010001 4 v) →
    s.upd.relay = none → 1 ≤ v → v ≤ 168 →
    (Tbl.set s.upd.maquette 0x00010001 v).length ≤ 256 → s.maquetteBytes (Tbl.set s.upd.maquette 0x00010001 v) ≤ 65536 →
    ∃ t, exec (.maquetteSet mb seq (h ++ (leBytes 2 1 ++ leBytes 2 0 ++ itemBytes 0x00010001 4 v))) s = .next t ∧
      t.answered mb 0x0050 0 seq [] ∧
      { s with upd := { s.upd with maquette := Tbl.set s.upd.maquette 0x00010001 v } }.onlyMailbox t mb) ∧
  (∀ (s : State) (mb seq : Nat) (h p : List Byte) (m : Tbl Nat), s.serves0 mb seq h p → s.upd.relay = none → 4 ≤ p.length →
    s.parseItems (field p 0 2) 4 p s.upd.maquette = .ok m → m.length ≤ 256 → s.maquetteBytes m ≤ 65536 →
    ∃ t, exec (.maquetteSet mb seq (h ++ p)) s = .next t ∧ t.answered mb 0x0050 0 seq [] ∧
      { s with upd := { s.upd with maquette := m } }.onlyMailbox t mb) ∧
  (∀ (s : State) (mb seq : Nat) (h p : List Byte), s.serves0 mb seq h p → s.upd.relay = none →
    (p = [] → ∃ t, exec (.maquetteDiscard mb seq (h ++ p)) s = .next t ∧ t.answered mb 0x0052 0 seq [] ∧
      { s with upd := { s.upd with maquette := [] } }.onlyMailbox t mb) ∧
    (∀ draws : List (List Nat), p.length = 8 → field p 0 1 = 0 → asksReseed s.upd.maquette = false →
      s.castRefusal (s.builtCast s.upd.maquette) false = none →
      ∃ t, exec (.castCommit mb seq (h ++ p) draws) s = .next t ∧ t.nor.cast = s.builtCast s.upd.maquette ∧
        t.nor.prev = some s.nor.cast ∧ t.upd.maquette = [] ∧
        t.answered mb 0x0053 0 seq (leBytes 4 (addMod 32 s.nor.cast.number 1))) ∧
    (∀ (draws : List (List Nat)) (key : List Nat), p.length = 8 → field p 0 1 = 0 → asksReseed s.upd.maquette = true → drawKey draws = some key →
      s.castRefusal (s.builtCast s.upd.maquette) true = none →
      ∃ t, exec (.castCommit mb seq (h ++ p) draws) s = .next t ∧ t.nor.cast = s.nor.cast ∧ t.upd.maquette = [] ∧ (t.mbox mb).running = some seq ∧
        ∃ r, t.upd.relay = some r ∧ r.newKey = key ∧ r.plinths = [0, 1, 2, 3] ∧ r.cast = s.builtCast s.upd.maquette ∧ r.waiter = some (mb, seq)) ∧
    (p.length = 8 → field p 0 1 = 1 → s.upd.castArm = none → s.canArm (field p 2 6) = true →
      ∃ t, exec (.castCommitArm mb seq (h ++ p)) s = .next t ∧ t.answered mb 0x0053 0 seq (leBytes 4 s.nor.cast.number) ∧
        { s with upd := { s.upd with
          castArm := some { ret := false, v := field p 2 6, items := s.upd.maquette } } }.onlyMailbox t mb) ∧
    (p.length = 8 → field p 0 1 = 1 → s.upd.castArm ≠ none →
      ∃ t, exec (.castCommitArm mb seq (h ++ p)) s = .next t ∧ t.answered mb 0x0053 2 seq [] ∧ s.onlyMailbox t mb) ∧
    (p.length = 8 → field p 0 1 = 2 → ∃ t, exec (.castCommitDisarm mb seq (h ++ p)) s = .next t ∧
      t.answered mb 0x0053 0 seq (leBytes 4 s.nor.cast.number) ∧ { s with upd := { s.upd with castArm := none } }.onlyMailbox t mb) ∧
    (∀ c : Cast, p.length = 8 → field p 0 1 = 0 → s.nor.prev = some c → s.castRefusal c false = none →
      ∃ t, exec (.castReturn mb seq (h ++ p)) s = .next t ∧ t.nor.cast = { c with number := addMod 32 s.nor.cast.number 1 } ∧
        t.nor.prev = some s.nor.cast ∧ t.upd.maquette = s.upd.maquette ∧ t.boot.key = s.boot.key ∧
        t.answered mb 0x0054 0 seq (leBytes 4 (addMod 32 s.nor.cast.number 1))) ∧
    (p.length = 8 → field p 0 1 = 0 → s.nor.prev = none →
      ∃ t, exec (.castReturn mb seq (h ++ p)) s = .next t ∧ t.answered mb 0x0054 8 seq [] ∧ s.onlyMailbox t mb))) ∧
  ((∀ (s : State) (mb seq : Nat) (h p : List Byte), s.serves0 mb seq h p → s.upd.staging = none →
    (p.length = 8 → field p 0 1 = 0 → s.armable = true → s.norRange = true →
      ∃ t, exec (.updateArmNextStart mb seq (h ++ p)) s = .next t ∧ t.answered mb 0x0056 0 seq [] ∧ t.upd.updArm = none ∧
        t.nor.record = { s.nor.record with
          pending := some (!s.boot.bankB), tries := 0, armV := 0, generation := satAdd 64 s.nor.record.generation 1 }) ∧
    (p.length = 8 → field p 0 1 = 0 → s.armable = true → s.norRange = false →
      ∃ t, exec (.updateArmNextStart mb seq (h ++ p)) s = .next t ∧ t.answered mb 0x0056 5 seq [] ∧ s.onlyMailbox t mb) ∧
    (p.length = 8 → field p 0 1 = 1 → s.armable = true → s.canArm (field p 2 6) = true → s.nor.record.pending = none →
      ∃ t, exec (.updateArmWaypoint mb seq (h ++ p)) s = .next t ∧ t.answered mb 0x0056 0 seq [] ∧
        t.upd.updArm = some (field p 2 6) ∧ t.nor.record = s.nor.record) ∧
    (p.length = 8 → field p 0 1 = 2 → s.norRange = true →
      ∃ t, exec (.updateDisarm mb seq (h ++ p)) s = .next t ∧ t.answered mb 0x0056 0 seq [] ∧ t.upd.updArm = none ∧
        t.nor.record.pending = none)) ∧
  (∀ (s : State) (mb seq : Nat) (h p : List Byte), s.serves0 mb seq h p → p.length = 16 → s.norRange = true → s.upd.staging = none →
    s.armCode = 0 → s.runBusy (localOf (field p 0 8)) (field p 8 4) = false → 0 < field p 8 4 → s.isLocal (field p 0 8) = true →
    localOf (field p 0 8) + field p 8 4 ≤ 2 ^ 42 → s.spillHit (field p 0 8) (field p 8 4) = false →
    (s.isPoison (localOf (field p 0 8)) = true → ∃ t, exec (.updateStage mb seq (h ++ p)) s = .next t ∧ t.nor = s.nor ∧ t.mem = s.mem ∧
      t.answered mb 0x0055 0xF seq (leBytes 1 2 ++ leBytes 3 0 ++ leBytes 8 0)) ∧
    ((∀ a, localOf (field p 0 8) / 256 ≤ a / 256 → a / 256 ≤ (localOf (field p 0 8) + field p 8 4) / 256 → s.isPoison a = false) →
    ∃ t, exec (.updateStage mb seq (h ++ p)) s = .next t ∧
      let d := Store.readN s.mem (localOf (field p 0 8)) (field p 8 4)
      match deltaBad d (field p 8 4) ((s.running?.map Image.bytes).getD []) with
      | some off => t.answered mb 0x0055 1 seq (leBytes 4 off) ∧ t.nor = s.nor ∧ t.upd = s.upd ∧ t.mem = s.mem
      | none => t.nor.record.state (!s.boot.bankB) = .empty ∧
        t.nor.image? (!s.boot.bankB) = none ∧ t.nor.image? s.boot.bankB = s.nor.image? s.boot.bankB ∧
        if rootAccepted s.nor.fuses (slice d 0x60 64) && Config.sm2Verify (slice d 0x60 64) (d.take (field p 8 4 - 64)) (d.drop (field p 8 4 - 64))
        then (∃ g, t.upd.staging = some g ∧ g.waiter = (mb, seq) ∧ g.programmed = 0) ∧ (t.mbox mb).running = some seq
        else t.answered mb 0x0055 0xA seq [] ∧ t.upd.staging = none)) ∧
  (∀ (s : State) (g : Staging), s.upd.staging = some g → g.programmed + 4096 < g.target.length →
    (s.norRange = true →
      exec .norProgramDone s = .next { s with upd := { s.upd with staging := some { g with programmed := g.programmed + 4096 } } }) ∧
    (s.norRange = false → (s.mbox g.waiter.1).running = some g.waiter.2 →
      ∃ t, exec .norProgramDone s = .next t ∧ t.upd.staging = none ∧ t.nor.image? (!s.boot.bankB) = none ∧
        t.answered g.waiter.1 0x0055 0x10 g.waiter.2 [])))

/-! ### Helm: partitions, windows, keys, members, routing -/

/-- 04: R116; 13: R405, R406. PARTITION_CREATE, PARTITION_SET of WEIGHT, ADMIT_CAP and RUN_AHEAD_MAX, PARTITION_REMOVE and PARTITION_QUERY. -/
def Obligations.PartitionCommandsChange : Prop :=
  ∀ (s : State) (mb seq : Nat) (h p : List Byte), s.serves0 mb seq h p → 1 ≤ field p 0 1 → field p 0 1 ≤ 15 →
    (p.length = 53 → Tbl.get? s.parts (field p 0 1) = none → field p 2 2 ≠ 0 → (∀ x ∈ s.parts, x.2.hallTag ≠ field p 2 2) →
      1 ≤ field p 4 1 → field p 4 1 ≤ 64 → 1 ≤ field p 5 1 → 1 ≤ field p 6 1 → field p 6 1 ≤ 100 → field p 7 1 ≤ 3 →
      (∀ x ∈ s.parts, Nat.land x.2.stageSet (field p 8 45) = 0) →
      ∃ t, exec (.partitionCreate mb seq (h ++ p)) s = .next t ∧
        Tbl.get? t.parts (field p 0 1) = some { hallTag := field p 2 2, maxPipelines := field p 4 1, weight := field p 5 1
                                                admitCap := field p 6 1, runAheadMax := field p 7 1, stageSet := field p 8 45 } ∧
        (s.tags = [] → t.answered mb 0x0010 0 seq [])) ∧
    (∀ q : Partition, p.length = 53 → Tbl.get? s.parts (field p 0 1) = some q → field p 1 1 = 0x38 → 1 ≤ field p 5 1 →
      1 ≤ field p 6 1 → field p 6 1 ≤ 100 → field p 7 1 ≤ 3 → s.loadedOf (field p 0 1) ≤ q.maxPipelines →
      ∃ t, exec (.partitionSet mb seq (h ++ p)) s = .next t ∧ t.answered mb 0x0011 0 seq [] ∧
        { s with parts := Tbl.set s.parts (field p 0 1)
                            { q with weight := field p 5 1, admitCap := field p 6 1, runAheadMax := field p 7 1 } }.onlyMailbox t mb) ∧
    (p.length = 4 → (Tbl.get? s.parts (field p 0 1)).isSome = true → s.loadedOf (field p 0 1) = 0 → s.norRange = true →
      ∃ t, exec (.partitionRemove mb seq (h ++ p)) s = .next t ∧ Tbl.get? t.parts (field p 0 1) = none ∧
        ∀ k ∈ t.nor.keys, k.1 / 4 ≠ field p 0 1) ∧
    (p.length = 4 → 0 < s.loadedOf (field p 0 1) → (Tbl.get? s.parts (field p 0 1)).isSome = true →
      ∃ t, exec (.partitionRemove mb seq (h ++ p)) s = .next t ∧ t.answered mb 0x0012 4 seq [] ∧ s.onlyMailbox t mb) ∧
    (∀ q : Partition, p.length = 4 → Tbl.get? s.parts (field p 0 1) = some q →
      ∃ t, exec (.partitionQuery mb seq (h ++ p)) s = .next t ∧ s.onlyMailbox t mb ∧
        t.answered mb 0x0013 0 seq (leBytes 1 (field p 0 1) ++ leBytes 1 0 ++ leBytes 2 q.hallTag ++ leBytes 1 q.maxPipelines ++
          leBytes 1 q.weight ++ leBytes 1 q.admitCap ++ leBytes 1 q.runAheadMax ++ leBytes 45 q.stageSet ++
          leBytes 1 (s.loadedOf (field p 0 1)) ++ leBytes 3 0))

/-- 08: R237, R240; 13: R406, R407; 17: R506. Window entries, key slots and member lists. A WINDOW_SET that takes access away from requests
already checked waits for them.

10: R330, R339, R340, R343; 13: R414. The first join of a hall, and the routing tables: a written entry ends the holds of its words. -/
def Obligations.WindowsKeysRoutesAndMembersChange : Prop :=
  (∀ (s : State) (mb seq : Nat) (h p : List Byte), s.serves0 mb seq h p →
    (∀ q : Partition, p.length = 36 → 1 ≤ field p 0 1 → field p 0 1 ≤ 15 → Tbl.get? s.parts (field p 0 1) = some q → field p 1 1 ≤ 31 →
      s.helm.winWaits = [] → (∃ b ∈ slice p 4 32, b ≠ 0) → (entryOf (slice p 4 32)).bad = none →
      s.clashes (field p 0 1) (entryOf (slice p 4 32)) = false → (entryOf (slice p 4 32)).coversSpill s.ownNode s.spillSize = false →
      (Tbl.get? q.window (field p 1 1) = none → ∃ t, exec (.windowSet mb seq (h ++ p)) s = .next t ∧ t.answered mb 0x0014 0 seq [] ∧
        { s with parts := Tbl.set s.parts (field p 0 1)
                            { q with window := Tbl.set q.window (field p 1 1) (entryOf (slice p 4 32)) } }.onlyMailbox t mb) ∧
      (∀ old, Tbl.get? q.window (field p 1 1) = some old → old.keeps (some (entryOf (slice p 4 32))) = false →
        s.checkedBy (field p 0 1) ≠ [] →
        ∃ t, exec (.windowSet mb seq (h ++ p)) s = .next t ∧ (t.mbox mb).running = some seq ∧
          (Tbl.get? t.parts (field p 0 1)).map (fun x => Tbl.get? x.window (field p 1 1)) = some (some (entryOf (slice p 4 32))) ∧
          t.helm.winWaits = [{ partition := field p 0 1, ids := s.checkedBy (field p 0 1), waiter := (mb, seq) }])) ∧
    (p.length = 4 → field p 0 1 ≤ 15 → s.partExists (field p 0 1) = true →
      (∃ t, exec (.windowRead mb seq (h ++ p)) s = .next t ∧ s.onlyMailbox t mb ∧
        t.answered mb 0x0015 0 seq ((List.range 32).flatMap (s.entryBytes (field p 0 1)))) ∧
      ∃ t, exec (.keySlotRead mb seq (h ++ p)) s = .next t ∧ s.onlyMailbox t mb ∧
        t.answered mb 0x0017 0 seq ((List.range 4).flatMap (fun i => padTo 64 (Tbl.getD s.nor.keys (4 * field p 0 1 + i) [])))) ∧
    (p.length = 68 → field p 0 1 ≤ 15 → field p 1 1 ≤ 3 → s.partExists (field p 0 1) = true → s.norRange = true →
      (field p 0 1 ≠ 0 ∨ field p 1 1 ≠ 3 ∨ s.ownerSession (mb, seq) = true) → (∃ b ∈ slice p 4 64, b ≠ 0) →
      ∃ t, exec (.keySlotSet mb seq (h ++ p)) s = .next t ∧ t.answered mb 0x0016 0 seq [] ∧
        { s with nor := { s.nor with keys := Tbl.set s.nor.keys (4 * field p 0 1 + field p 1 1) (slice p 4 64) } }.onlyMailbox t mb) ∧
    (p.length = 68 → field p 0 1 = 0 → field p 1 1 = 3 → s.ownerSession (mb, seq) = false →
      ∃ t, exec (.keySlotSet mb seq (h ++ p)) s = .next t ∧ t.answered mb 0x0016 6 seq [] ∧ s.onlyMailbox t mb) ∧
    (p.length = 8 → field p 2 2 = 1 → field p 4 2 ≤ field p 6 2 → field p 6 2 ≤ 0x3FFF → (s.tagSt (field p 0 2)).advance = none →
      (∀ c ∈ s.fab.colls, c.hallTag ≠ field p 0 2) →
      ∃ t, exec (.tagMembers mb seq (h ++ p)) s = .next t ∧ (t.tagSt (field p 0 2)).members = [(field p 4 2, field p 6 2)]) ∧
    (p.length = 4 → ∃ t, exec (.tagMembersRead mb seq (h ++ p)) s = .next t ∧ s.onlyMailbox t mb ∧
      t.answered mb 0x0019 0 seq (leBytes 2 (s.tagSt (field p 0 2)).members.length ++ leBytes 2 0 ++
        (s.tagSt (field p 0 2)).members.flatMap (fun r => leBytes 2 r.1 ++ leBytes 2 r.2)))) ∧
  (∀ (s : State) (mb seq : Nat) (h p : List Byte), s.serves0 mb seq h p →
    (p.length = 24 → s.fab.node = none → s.mayJoin = true → field p 0 2 ≤ 0x3FFF → 1 ≤ field p 2 2 → field p 2 2 ≤ 16384 →
      s.windowsCoverSpill (field p 0 2) s.spillSize = false →
      ∃ t, exec (.fabricJoin mb seq (h ++ p)) s = .next t ∧ t.fab.node = some (field p 0 2) ∧ t.fab.hallSize = field p 2 2 ∧
        t.fab.switched = field p 8 16) ∧
    (p.length = 40 → field p 0 2 = 1 → field p 4 1 ≤ 1 → (field p 4 1 = 1 → field p 5 1 ≤ 63) →
      (∀ j, j < 4 → nhopsOf (field p (8 + 8 * j) 8) = 0 ∨ nhopsOf (field p (8 + 8 * j) 8) ≤ 8 ∧ nextOf (field p (8 + 8 * j) 8) = 0) →
      ∃ t, exec (.routeWrite mb seq (h ++ p)) s = .next t ∧
        t.routeWords (256 * field p 4 1 + field p 5 1) = (List.range 4).map (fun j => field p (8 + 8 * j) 8) ∧
        ∀ x ∈ t.fab.heldWords, x.1 ≠ 256 * field p 4 1 + field p 5 1) ∧
    (p.length = 4 → field p 2 2 = 1 → (field p 0 1 = 0 ∨ field p 0 1 = 1 ∧ field p 1 1 ≤ 63) →
      ∃ t, exec (.routeRead mb seq (h ++ p)) s = .next t ∧ s.onlyMailbox t mb ∧
        t.answered mb 0x0042 0 seq (leBytes 1 (field p 0 1) ++ leBytes 1 (field p 1 1) ++ leBytes 2 0 ++
          (List.range 4).flatMap (fun j => leBytes 8 ((s.routeWords (256 * field p 0 1 + field p 1 1)).getD j 0)) ++
          (List.range 4).flatMap (fun j => leBytes 1 (b2n (s.fab.heldWords.contains
            (256 * field p 0 1 + field p 1 1, wordKey ((s.routeWords (256 * field p 0 1 + field p 1 1)).getD j 0))))))))

/-! ### Helm: pipelines -/

/-- 04: R117, R120, R130, R132, R135, R142; 13: R408, R409, R411. Load, invoke, stop, query and release. -/
def Obligations.PipelineCommandsChange : Prop :=
  ∀ (s : State) (mb seq : Nat) (h p : List Byte), s.serves mb seq h p →
    (32 ≤ p.length → field p 1 1 = 0 → mayName (mb, seq) (field p 0 1) = true → 1 ≤ field p 0 1 → field p 0 1 ≤ 15 →
      s.partExists (field p 0 1) = true → (∀ i, i < 12 → field p (4 + i) 1 ≤ 11) →
      (∀ r o, s.validate (field p 0 1) (loadMap p) (p.drop 32) = some (r, o) →
        ∃ t, exec (.pipelineLoad mb seq (h ++ p)) s = .next t ∧ s.onlyMailbox t mb ∧
          t.answered mb 0x0020 9 seq (leBytes 1 r ++ leBytes 3 0 ++ leBytes 4 o)) ∧
      (s.validate (field p 0 1) (loadMap p) (p.drop 32) = none → (∀ k, (s.stage k).busyTest = false ∧ (s.die (stDie k)).gated = 0) →
        s.power.gating = [] →
        ∃ t q, exec (.pipelineLoad mb seq (h ++ p)) s = .next t ∧ t.pipe? s.freePipe = some q ∧ q.partition = field p 0 1 ∧
          q.arm = p.drop 32 ∧ q.dieMap = loadMap p ∧ q.st = .idle ∧ q.invs = [] ∧ q.batches = [] ∧
          q.runAhead = Nat.min (armRunAhead (p.drop 32)) (((Tbl.get? s.parts (field p 0 1)).map (·.runAheadMax)).getD 0) ∧
          t.answered mb 0x0020 0 seq (leBytes 1 s.freePipe ++ leBytes 1 q.runAhead ++ leBytes 2 0) ∧
          (∀ k ∈ q.stgs, (t.stage k).st = .bound ∧ (t.stage k).partition = field p 0 1 ∧ (t.stage k).flags = Flags.none ∧
            (t.stage k).cause = 0) ∧
          (∀ k, k ∉ q.stgs → t.stage k = s.stage k) ∧ (∀ pl, pl ≠ s.freePipe → t.pipe? pl = s.pipe? pl) ∧
          t = { s with pipes := t.pipes, stages := t.stages, helm := t.helm })) ∧
    (∀ q : Pipe, p.length = 16 + 8 * armNRegion q.arm → s.names mb seq (field p 0 1) q → field p 1 1 ≤ 7 → field p 3 1 = 0 →
      field p 4 4 ≠ 0 → q.invs.length < 4 → (q.st = .idle ∨ q.st = .running) → (s.mbox (8 * q.partition + field p 1 1)).reserved < 256 →
      (∀ i, i < armNRegion q.arm → s.baseOk q.partition q.arm i (field p (16 + 8 * i) 8 % 2 ^ 56) = true) →
      (s.fab.twin = .standby → ∃ t, exec (.pipelineInvoke mb seq (h ++ p)) s = .next t ∧ t.answered mb 0x0021 4 seq [] ∧ s.onlyMailbox t mb) ∧
      (s.fab.twin ≠ .standby → ∃ t r, exec (.pipelineInvoke mb seq (h ++ p)) s = .next t ∧ t.answered mb 0x0021 0 seq (leBytes 4 (addMod 32 q.invNext 1)) ∧
        t.pipe? (field p 0 1) = some r ∧ r.st = .running ∧ r.invNext = addMod 32 q.invNext 1 ∧ r.batches = q.batches ∧
        r.invs = q.invs ++ [{ seq := addMod 32 q.invNext 1, mailbox := field p 1 1, nb := field p 4 4
                              bases := (List.range (armNRegion q.arm)).map (fun i => field p (16 + 8 * i) 8 % 2 ^ 56)
                              repeatMax := armRepeatMax q.arm, predict := 3 }] ∧
        (t.mbox (8 * q.partition + field p 1 1)).promised = (s.mbox (8 * q.partition + field p 1 1)).promised + 1)) ∧
    (∀ q : Pipe, p.length = 4 → s.names mb seq (field p 0 1) q →
      (field p 1 1 = 0 → q.st = .idle →
        ∃ t, exec (.pipelineStopDrain mb seq (h ++ p)) s = .next t ∧ t.answered mb 0x0022 0 seq [] ∧ s.onlyMailbox t mb) ∧
      (field p 1 1 = 0 → q.st = .running →
        ∃ t, exec (.pipelineStopDrain mb seq (h ++ p)) s = .next t ∧ (t.mbox mb).running = some seq ∧
          t.pipe? (field p 0 1) = some (q.drain (mb, seq)) ∧
          (∀ k ∈ q.stgs, (s.stage k).st = .running → (t.stage k).st = .draining) ∧
          t = { s with pipes := t.pipes, stages := t.stages, helm := t.helm }) ∧
      (field p 1 1 = 1 → q.st = .running →
        ∃ t r, exec (.pipelineStopAbort mb seq (h ++ p)) s = .next t ∧ t.answered mb 0x0022 0 seq [] ∧
          t.pipe? (field p 0 1) = some r ∧ r.st = .idle ∧ r.invs = [] ∧ r.batches = [] ∧ r.arm = q.arm ∧
          (∀ pl, pl ≠ field p 0 1 → t.pipe? pl = s.pipe? pl)) ∧
      (q.st = .idle → (∃ k ∈ q.stgs, (s.stage k).st ≠ .fenced ∧ ∃ i, (s.stage k).bind = some (field p 0 1, i)) →
        ∃ t r, exec (.pipelineRelease mb seq (h ++ p)) s = .next t ∧ (t.mbox mb).running = some seq ∧
          t.pipe? (field p 0 1) = some r ∧ r.st = .releasing ∧ r.releaseWait = some (mb, seq) ∧
          ∀ k ∈ q.stgs, (s.stage k).st ≠ .fenced → (t.stage k).st = .zeroing) ∧
      (q.st = .running → ∃ t, exec (.pipelineRelease mb seq (h ++ p)) s = .next t ∧ t.answered mb 0x0024 4 seq [] ∧ s.onlyMailbox t mb)) ∧
    (∀ q : Pipe, p.length = 12 → field p 0 1 = 0 → s.pipe? (field p 1 1) = some q → mayName (mb, seq) q.partition = true →
      ∃ t, exec (.pipelineQuery mb seq (h ++ p)) s = .next t ∧ s.onlyMailbox t mb ∧
        t.answered mb 0x0023 0 seq (leBytes 1 (field p 1 1) ++ leBytes 1 q.st.code ++ leBytes 1 q.invs.length ++ leBytes 1 0 ++
          leBytes 8 (armId q.arm) ++ leBytes 4 q.invNext ++ leBytes 4 0 ++
          (List.range 12).flatMap (fun i => leBytes 8 (Tbl.getD q.counters i 0))))

/-! ### Helm: memory -/

/-- 06: R184, R190; 08: R238, R240; 13: R410. MEMORY_READ and MEMORY_WRITE within one block, a read of a poisoned block, a window refused,
and hard repair on command. A wider run is the same taken block by block. -/
def Obligations.MemoryCommandsChange : Prop :=
  (∀ (s : State) (mb seq : Nat) (h p : List Byte), s.serves mb seq h p →
    (p.length = 12 → s.plainRun (field p 0 8) (field p 8 4) → s.windowOk (mbPartition mb) (field p 0 8) (field p 8 4) accRead = true →
      ∃ t, exec (.memoryRead mb seq (h ++ p)) s = .next t ∧ t.mem = s.mem ∧ t.poison = s.poison ∧
        t.answered mb 0x0028 0 seq (Store.readN s.mem (localOf (field p 0 8)) (field p 8 4))) ∧
    (p.length = 12 → 1 ≤ field p 8 4 → field p 0 8 % 256 + field p 8 4 ≤ 256 → s.isLocal (field p 0 8) = true →
      s.memBusy (localOf (field p 0 8)) = false → s.isPoison (localOf (field p 0 8)) = true → field p 0 8 + field p 8 4 ≤ 2 ^ 56 →
      s.windowOk (mbPartition mb) (field p 0 8) (field p 8 4) accRead = true →
      ∃ t, exec (.memoryRead mb seq (h ++ p)) s = .next t ∧ t.mem = s.mem ∧ t.poison = s.poison ∧
        t.answered mb 0x0028 0xF seq (leBytes 1 2 ++ leBytes 3 0 ++ leBytes 8 0)) ∧
    (p.length = 12 → 1 ≤ field p 8 4 → field p 0 8 % 256 + field p 8 4 ≤ 256 → field p 0 8 + field p 8 4 ≤ 2 ^ 56 →
      s.windowOk (mbPartition mb) (field p 0 8) (field p 8 4) accRead = false →
      ∃ t, exec (.memoryRead mb seq (h ++ p)) s = .next t ∧ t.answered mb 0x0028 3 seq [] ∧ t.mem = s.mem ∧
        Tbl.getD (t.cache 0).counters 8 0 = satAdd 32 (Tbl.getD (s.cache 0).counters 8 0) 1) ∧
    (∀ d : List Byte, 4 ≤ d.length → p = leBytes 8 (field p 0 8) ++ leBytes 4 d.length ++ leBytes 4 0 ++ d →
      s.plainRun (field p 0 8) d.length → s.inFixed (field p 0 8) d.length = false →
      s.windowOk (mbPartition mb) (field p 0 8) d.length accWrite = true →
      ∃ t, exec (.memoryWrite mb seq (h ++ p)) s = .next t ∧ t.answered mb 0x0029 0 seq [] ∧
        Store.readN t.mem (localOf (field p 0 8)) d.length = d ∧
        ∀ l, (l < localOf (field p 0 8) ∨ localOf (field p 0 8) + d.length ≤ l) → Store.read t.mem l = Store.read s.mem l)) ∧
  (∀ (s : State) (mb seq : Nat) (h p : List Byte), s.serves0 mb seq h p → p.length = 4 → field p 0 1 ≤ 31 →
    (s.stack (field p 0 1)).hardRepair = none → hardRange (s.stack (field p 0 1)).tempQ = true →
    (∀ x ∈ s.pipes, x.2.st ≠ .running ∧ x.2.st ≠ .draining ∧ x.2.st ≠ .suspended) →
    (s.pendingRows (field p 0 1) = [] → ∃ t, exec (.hbmRepair mb seq (h ++ p)) s = .next t ∧ s.onlyMailbox t mb ∧
      t.answered mb 0x002A 0 seq (leBytes 2 0 ++ leBytes 2 0)) ∧
    (s.pendingRows (field p 0 1) ≠ [] → ∃ t, exec (.hbmRepair mb seq (h ++ p)) s = .next t ∧ (t.mbox mb).running = some seq ∧
      t.stack (field p 0 1) = { s.stack (field p 0 1) with hardRepair := some (mb, seq), hardProgrammed := 0 } ∧ t.mem = s.mem)) ∧
  ∀ (s : State) (k : Nat) (w : Waiter) (r : RepairRow) (rs : List RepairRow), s.starting = false → (s.stack k).hardRepair = some w →
    s.pendingRows k = r :: rs →
    let u : State := { s with nor := { s.nor with repairLog := markHard k s.nor.repairLog } }
    (u.pendingRows k ≠ [] → hardRange (s.stack k).tempQ = true →
      ∃ t, exec (.hardRepairRowDone k) s = .next t ∧ t.nor = u.nor ∧ t.mem = s.mem ∧
        t.stack k = { s.stack k with hardProgrammed := (s.stack k).hardProgrammed + 1, pending := true }) ∧
    (u.pendingRows k = [] → s.noneWait → (s.mbox w.1).running = some w.2 →
      ∃ t, exec (.hardRepairRowDone k) s = .next t ∧ t.nor = u.nor ∧ t.mem = s.mem ∧ (t.stack k).hardRepair = none ∧
        t.answered w.1 0x002A 0 w.2 (leBytes 2 ((s.stack k).hardProgrammed + 1) ++ leBytes 2 0))

/-! ### Helm: tenders and bulk streams -/

/-- 11: R348, R351, R365 to R367, R370; 13: R412, R413; 12: R390. Commands to a host channel from its owner, and bulk streams. The clauses of
PAUSE, RESUME and ABORT take a channel between descriptors on a plinth whose other channels rest: what moves data is the tender's own work. -/
def Obligations.TenderCommandsChange : Prop :=
  (∀ (s : State) (mb seq : Nat) (h p : List Byte), s.serves mb seq h p → field p 0 1 ≤ 3 → field p 1 1 ≤ 47 →
    let k := 64 * field p 0 1 + field p 1 1
    ((s.chan k).owner ≠ mbPartition mb → p.length = 4 →
      ∃ t, exec (.tenderQuery mb seq (h ++ p)) s = .next t ∧ t.answered mb 0x0033 3 seq [] ∧ s.onlyMailbox t mb) ∧
    ((s.chan k).owner = mbPartition mb →
      (1 ≤ field p 2 1 → field p 2 1 ≤ 16 → p.length = 12 + 64 * field p 2 1 →
        ((s.chan k).st ≠ .idle → ∃ t, exec (.tenderStart mb seq (h ++ p)) s = .next t ∧ t.answered mb 0x0030 2 seq [] ∧
          s.onlyMailbox t mb) ∧
        ((s.chan k).st = .idle → s.upd.relay = none → ∃ t, exec (.tenderStart mb seq (h ++ p)) s = .next t ∧
          t.answered mb 0x0030 0 seq [] ∧
          (t.chan k).st = (if (s.chan k).pause || (s.chan k).pausePwr then .pausing else .running) ∧ (t.chan k).inlineCur = true ∧
          (t.chan k).slot = 0 ∧ (t.chan k).desc = [] ∧
          (∀ i, i < field p 2 1 → Tbl.getD (t.chan k).slots i [] = slice p (12 + 64 * i) 64) ∧
          (∀ j, j ≠ k → t.chan j = s.chan j) ∧ t = { s with chans := t.chans, helm := t.helm })) ∧
      (p.length = 8 → s.quiet (field p 0 1) →
        (field p 2 1 = 0 → (s.chan k).st = .idle → ∃ t, exec (.tenderPause mb seq (h ++ p)) s = .next t ∧
          t.answered mb 0x0031 0 seq [] ∧ t.chan k = { s.chan k with pause := true } ∧ ∀ j, j ≠ k → t.chan j = s.chan j) ∧
        (field p 2 1 = 0 → (s.chan k).st = .running → (s.chan k).desc = [] → ∃ t, exec (.tenderPause mb seq (h ++ p)) s = .next t ∧
          (t.mbox mb).running = some seq ∧ ∀ j, t.chan j =
            (if j = k then { s.chan k with pause := true, st := .pausing, waiters := (s.chan k).waiters ++ [(mb, seq)] } else s.chan j)) ∧
        (field p 2 1 = 1 → (s.chan k).st = .paused → (s.chan k).desc = [] → (s.chan k).pausePwr = false →
          ∃ t, exec (.tenderResume mb seq (h ++ p)) s = .next t ∧ t.answered mb 0x0031 0 seq [] ∧
            t.chan k = { s.chan k with pause := false, st := .running } ∧ ∀ j, j ≠ k → t.chan j = s.chan j) ∧
        (field p 2 1 = 2 → (s.chan k).st = .running → (s.chan k).desc = [] → (s.chan k).waiters = [] →
          ∃ t, exec (.tenderAbort mb seq (h ++ p)) s = .next t ∧ t.answered mb 0x0031 0 seq [] ∧
            t.chan k = { s.chan k with st := .idle } ∧ ∀ j, j ≠ k → t.chan j = s.chan j)) ∧
      (p.length = 8 → field p 2 1 = 3 → field p 4 4 ≤ 15 → ∃ t, exec (.tenderWeight mb seq (h ++ p)) s = .next t ∧
        t.answered mb 0x0031 0 seq [] ∧
        (s.setChan k { s.chan k with weight := if field p 4 4 = 0 then 1 else field p 4 4 }).onlyMailbox t mb) ∧
      (p.length = 8 → field p 2 1 = 3 → 15 < field p 4 4 → ∃ t, exec (.tenderWeight mb seq (h ++ p)) s = .next t ∧
        t.answered mb 0x0031 1 seq (leBytes 4 4) ∧ s.onlyMailbox t mb) ∧
      (p.length = 8 → field p 2 1 = 4 → field p 4 4 ≤ 65535 → ∃ t, exec (.tenderRateCap mb seq (h ++ p)) s = .next t ∧
        t.answered mb 0x0031 0 seq [] ∧ (s.setChan k { s.chan k with rateCap := field p 4 4 }).onlyMailbox t mb) ∧
      (p.length = 4 → (s.chan k).st = .error → ∃ t, exec (.tenderReset mb seq (h ++ p)) s = .next t ∧ t.answered mb 0x0032 0 seq [] ∧
        (s.setChan k { s.chan k with st := .idle }).onlyMailbox t mb) ∧
      (p.length = 4 → (s.chan k).st = .paused → ∃ t, exec (.tenderReset mb seq (h ++ p)) s = .next t ∧
        t.answered mb 0x0032 2 seq [] ∧ s.onlyMailbox t mb) ∧
      (p.length = 4 → ∃ t, exec (.tenderQuery mb seq (h ++ p)) s = .next t ∧ s.onlyMailbox t mb ∧
        t.answered mb 0x0033 0 seq (leBytes 4 (s.chan k).ctrlWord ++ leBytes 4 (s.chan k).statusWord ++ leBytes 8 (s.chan k).curDesc ++
          leBytes 8 (s.chan k).srcCurNow ++ leBytes 8 (s.chan k).dstCurNow ++ leBytes 8 (s.chan k).remainNow ++
          leBytes 8 (s.chan k).crcRun ++ leBytes 8 (s.chan k).rateCap ++
          (List.range 7).flatMap (fun i => leBytes 8 (Tbl.getD (s.chan k).counters i 0))))) ∧
    (mbPartition mb = 0 → p.length = 4 → field p 2 1 ≤ 15 → s.partExists (field p 2 1) = true →
      ((s.chan k).st = .idle → ∃ t, exec (.tenderAssign mb seq (h ++ p)) s = .next t ∧ t.answered mb 0x0034 0 seq [] ∧
        (s.setChan k { s.chan k with owner := field p 2 1 }).onlyMailbox t mb) ∧
      ((s.chan k).st ≠ .idle → ∃ t, exec (.tenderAssign mb seq (h ++ p)) s = .next t ∧ t.answered mb 0x0034 2 seq [] ∧
        s.onlyMailbox t mb))) ∧
  (∀ (s : State) (mb seq : Nat) (h p : List Byte), s.serves mb seq h p → p.length = 4 → field p 0 1 ≤ 15 →
    (field p 1 1 ≤ 47 → Tbl.get? s.helm.bulk (field p 0 1) = none → (s.chan (field p 1 1)).owner = mbPartition mb →
      ∃ t, exec (.bulkOpen mb seq (h ++ p)) s = .next t ∧ t.answered mb 0x0035 0 seq [] ∧
        { s with helm := { s.helm with
          bulk := Tbl.set s.helm.bulk (field p 0 1) { mailbox := mb, channel := field p 1 1 } } }.onlyMailbox t mb) ∧
    (∀ b : BulkStream, Tbl.get? s.helm.bulk (field p 0 1) = some b → b.mailbox = mb →
      ∃ t, exec (.bulkClose mb seq (h ++ p)) s = .next t ∧ t.answered mb 0x0036 0 seq (leBytes 8 b.offset) ∧
        { s with helm := { s.helm with bulk := Tbl.erase s.helm.bulk (field p 0 1) } }.onlyMailbox t mb))

/-! ### Helm: tags, regions, collectives and beacons -/

/-- 08: R252, R253, R256, R262, R265, R593; 13: R415, R416. An advance of a tag begins, its waypoint is read, regions are armed, listed and
taken out. -/
def Obligations.WaypointAndRegionCommandsChange : Prop :=
  ∀ (s : State) (mb seq pt : Nat) (h p : List Byte), s.serves mb seq h p → s.partOfTag (field p 0 2) = some pt →
    mayName (mb, seq) pt = true →
    let tag := field p 0 2
    let g := s.tagSt tag
    (p.length = 10 → tag ≠ 0 → g.member = true → g.asking = false → g.advance = none → (s.tagSt 0).advance = none →
      field p 2 2 = 0xFFFF → field p 4 6 = g.waypoint.getD 0 →
      ∃ t, exec (.waypointAdvance mb seq (h ++ p)) s = .next t ∧ (t.mbox mb).running = some seq ∧
        t.tagSt tag = { g with
          entry := g.entry + 1, early := []
          advance := some { target := addMod 48 (g.waypoint.getD 0) 1, root := g.rootNode, entered := true, arrivals := g.early
                            waiter := some (mb, seq) } } ∧
        (∀ k, k ≠ tag → t.tagSt k = s.tagSt k) ∧ t = { s with tags := t.tags, helm := t.helm }) ∧
    (p.length = 10 → g.member = true → g.asking = false → g.advance ≠ none →
      ∃ t, exec (.waypointAdvance mb seq (h ++ p)) s = .next t ∧ t.answered mb 0x0043 2 seq [] ∧ s.onlyMailbox t mb) ∧
    (p.length = 4 → (∀ v, s.waypointHeld tag = some v → ∃ t, exec (.waypointRead mb seq (h ++ p)) s = .next t ∧ s.onlyMailbox t mb ∧
        t.answered mb 0x0044 0 seq (leBytes 6 v ++ leBytes 1 (b2n g.advance.isSome) ++ leBytes 1 0)) ∧
      (s.waypointHeld tag = none → ∃ t, exec (.waypointRead mb seq (h ++ p)) s = .next t ∧ s.onlyMailbox t mb ∧
        t.answered mb 0x0044 0 seq (leBytes 6 0 ++ leBytes 1 2 ++ leBytes 1 0))) ∧
    (p.length = 4 → ∃ t, exec (.regionList mb seq (h ++ p)) s = .next t ∧ s.onlyMailbox t mb ∧
      t.answered mb 0x0047 0 seq (leBytes 2 g.regions.length ++ leBytes 2 0 ++ g.regions.flatMap (fun r =>
        leBytes 2 r.node ++ leBytes 1 r.st.code ++ leBytes 5 0 ++ leBytes 8 r.base ++ leBytes 8 r.length))) ∧
    (p.length = 24 → g.member = true → g.asking = false → g.regionOp = none → field p 2 2 < 2 ^ 14 → field p 8 8 % 65536 = 0 →
      field p 8 8 < 2 ^ 42 → 0 < field p 16 8 → field p 16 8 % 65536 = 0 → field p 8 8 + field p 16 8 ≤ 2 ^ 42 →
      ((∀ r ∈ g.regions, r.same (field p 2 2) (field p 8 8) (field p 16 8) = false) → g.regions.length < 64 →
        ∃ t, exec (.regionFix mb seq (h ++ p)) s = .next t ∧ (t.mbox mb).running = some seq ∧
          (t.tagSt tag).regions = g.regions ++ [{ node := field p 2 2, base := field p 8 8, length := field p 16 8, st := .armed
                                                  afterNext := (g.advance.map (·.entered)).getD false ||
                                                    ((s.tagSt 0).advance.map (·.entered)).getD false
                                                  asker := s.ownNode }]) ∧
      (g.members = [(s.ownNode, s.ownNode)] →
        ∃ t, exec (.regionUnfix mb seq (h ++ p)) s = .next t ∧ t.answered mb 0x0046 0 seq [] ∧ (t.tagSt tag).regionOp = none ∧
          (t.tagSt tag).regions.all (fun r => !r.same (field p 2 2) (field p 8 8) (field p 16 8)) = true ∧
          ∀ pd, pd < 4 → ∀ l ∈ (t.cache pd).lines, l.hallTag = tag → l.isFixed = true →
            ¬(nodeOf (256 * l.block) = field p 2 2 ∧ field p 8 8 < localOf (256 * l.block) + 256 ∧
              localOf (256 * l.block) < field p 8 8 + field p 16 8)))

/-- 08: R266, R267, R270; 09: R299, R301, R303; 13: R417. A collective is accepted; a beacon's re-point and lanes are asked for. -/
def Obligations.CollectiveAndBeaconCommandsChange : Prop :=
  (∀ (s : State) (mb seq pt : Nat) (h p : List Byte), s.serves mb seq h p → p.length = 68 →
    s.partOfTag (field (p.drop 4) 0xC 2) = some pt → mayName (mb, seq) pt = true →
    let d := p.drop 4
    let g := s.tagSt (field d 0xC 2)
    g.member = true → g.asking = false → field p 0 1 ≤ 7 → s.collBad d g.nodes.length = none → s.coll? (field d 0 8) = none →
    s.fab.colls.length < 4 → (s.mbox (8 * pt + field p 0 1)).reserved < 256 →
    ∃ t c, exec (.collectiveStart mb seq (h ++ p)) s = .next t ∧ t.answered mb 0x0048 0 seq [] ∧ t.fab.colls = s.fab.colls ++ [c] ∧
      c.id = field d 0 8 ∧ c.op = collOp d ∧ c.src = field d 0x10 8 ∧ c.dst = field d 0x18 8 ∧ c.count = field d 0x20 8 ∧ c.phase = 0 ∧
      c.phases = collPhases d ∧ c.dims = collDims d ∧
      c.partition = pt ∧ c.mailbox = field p 0 1 ∧ (t.mbox (8 * pt + field p 0 1)).promised = (s.mbox (8 * pt + field p 0 1)).promised + 1) ∧
  (∀ (s : State) (mb seq : Nat) (h p : List Byte), s.serves0 mb seq h p → field p 0 1 ≤ 7 → s.beaconActs (field p 0 1) = true →
    let b := field p 0 1
    (p.length = 4 → field p 1 1 ≤ 15 → (s.beacon b).repointTo = none → s.collHolds = false →
      ∃ t, exec (.beaconRepoint mb seq (h ++ p)) s = .next t ∧ (t.mbox mb).running = some seq ∧
        (t.beacon b).repointTo = some (field p 1 1) ∧ (t.beacon b).repointStep = 0 ∧ (t.beacon b).repointWait = some (mb, seq) ∧
        (t.beacon b).config = (s.beacon b).config) ∧
    (p.length = 4 → field p 1 1 ≤ 15 → (s.beacon b).repointTo ≠ none →
      ∃ t, exec (.beaconRepoint mb seq (h ++ p)) s = .next t ∧ t.answered mb 0x0049 2 seq [] ∧ s.onlyMailbox t mb) ∧
    (p.length = 8 → field p 1 1 ≤ 15 → field p 2 1 ≤ 1 → field p 3 1 ≤ 17 →
      let k := lineKey (field p 2 1) (field p 1 1) (field p 3 1)
      (field p 4 1 = 0 → (∀ w ∈ (s.beacon b).laneWaits, w.1 ≠ k) → (s.lane b k).st = .retired →
        ∃ t, exec (.beaconLaneReturn mb seq (h ++ p)) s = .next t ∧ (t.mbox mb).running = some seq ∧ (t.lane b k).st = .off ∧
          (if (s.beacon b).sights.length < s.setting 0x00030003 ∧ ∀ x ∈ (s.beacon b).sights, linePort x ≠ linePort k then
            (t.ring b k).st = .sweeping ∧ (t.beacon b).sights = (s.beacon b).sights ++ [k]
          else (t.ring b k).st = .parked ∧ (t.beacon b).sights = (s.beacon b).sights) ∧ (t.ring b k).retired = false ∧
          (t.beacon b).laneWaits = (s.beacon b).laneWaits ++ [(k, (mb, seq))]) ∧
      (field p 4 1 = 1 → (s.lane b k).st = .spare → 8 ≤ ((List.range 18).filter (fun i =>
          !s.lineGone b (lineKey (field p 2 1) (field p 1 1) i) && lineKey (field p 2 1) (field p 1 1) i != k)).length →
        ∃ t, exec (.beaconLaneRetire mb seq (h ++ p)) s = .next t ∧ (t.lane b k).st = .retired ∧ (t.ring b k).retired = true ∧
          t.answered mb 0x004A 0 seq (leBytes 1 (s.linesIn b (field p 1 1) (field p 2 1) .active).length ++ leBytes 3 0))))

/-! ### Helm: service accesses, telemetry, twins and the reset of a die -/

/-- 21: R573, R576; 13: R404, R420. Telemetry and service reads are answered with what the registers hold, and writes act on the word they
name; a service access needs an open level of this session. A low word read by four bytes keeps the high word for the read that follows. -/
def Obligations.RegistersAreReadAndWritten : Prop :=
  (∀ (s : State) (mb seq : Nat) (h p : List Byte), s.serves mb seq h p → p.length = 4 →
    (7 < field p 0 1 → ∃ t, exec (.telemetryRead mb seq (h ++ p)) s = .next t ∧ t.answered mb 0x0003 1 seq (leBytes 4 0) ∧
      s.onlyMailbox t mb) ∧
    (∀ rs : List (Nat × Reg), field p 0 1 ≤ 7 → s.groupRegs (field p 0 1) (field p 1 2) = some rs →
      s.mayRead (mbPartition mb) (field p 0 1) (field p 1 2) = true →
      (∀ d, groupDie (field p 0 1) (field p 1 2) = some d → s.dieLost d = false) →
      ∃ t, exec (.telemetryRead mb seq (h ++ p)) s = .next t ∧ s.onlyMailbox t mb ∧
        t.answered mb 0x0003 0 seq (leBytes 1 (field p 0 1) ++ leBytes 1 0 ++ leBytes 2 rs.length ++ rs.flatMap regRecord))) ∧
  (∀ (s : State) (mb seq : Nat) (h p : List Byte), s.serves0 mb seq h p → s.serviceOpen (mb, seq) = true → p.length = 8 →
    ∀ at_ : Place, s.svcPlace (field p 0 4) (field p 4 1) = .inr at_ →
    let rs := s.regsOf at_.die at_.block at_.i
    (field p 4 1 = 8 → ∃ t, exec (.serviceRead mb seq (h ++ p)) s = .next t ∧ s.onlyMailbox t mb ∧
      t.answered mb 0x0064 0 seq (leBytes 8 (wordAt rs at_.off + 2 ^ 32 * wordAt rs (at_.off + 4)))) ∧
    (∀ r : Reg, field p 4 1 = 4 → rs.find? (fun r => r.wide && (r.off == at_.off || r.off + 4 == at_.off)) = some r → r.off = at_.off →
      ∃ t, exec (.serviceRead mb seq (h ++ p)) s = .next t ∧ t.answered mb 0x0064 0 seq (leBytes 8 (r.val % 2 ^ 32)) ∧
        { s with latches := Tbl.set s.latches (field p 0 4) (r.val / 2 ^ 32) }.onlyMailbox t mb)) ∧
  (∀ (s : State) (mb seq : Nat) (h p : List Byte), s.serves0 mb seq h p →
    (p.length = 8 → s.serviceOpen (mb, seq) = false → ∃ t, exec (.serviceRead mb seq (h ++ p)) s = .next t ∧ s.onlyMailbox t mb ∧
      t.answered mb 0x0064 0xB seq []) ∧
    (p.length = 16 → s.serviceOpen (mb, seq) = false → ∃ t, exec (.serviceWrite mb seq (h ++ p)) s = .next t ∧ s.onlyMailbox t mb ∧
      t.answered mb 0x0065 0xB seq []) ∧
    (∀ at_ : Place, p.length = 16 → s.serviceOpen (mb, seq) = true → field p 4 1 = 4 → s.svcPlace (field p 0 4) 4 = .inr at_ →
      at_.block ≠ 5 → ∃ t, exec (.serviceWrite mb seq (h ++ p)) s = .next t ∧ t.answered mb 0x0065 0 seq [] ∧
        (s.writeWord at_ at_.off (field p 8 8 % 2 ^ 32)).onlyMailbox t mb))

/-- 08: R271, R274, R275; 13: R421, R422; 07: R225. The arbiter's signed changes of the twin state, the start of a resync, and the reset of a
die. -/
def Obligations.TwinAndDieCommandsChange : Prop :=
  (∀ (s : State) (mb seq : Nat) (h p : List Byte), s.serves0 mb seq h p → p.length = 88 →
    (s.twinAuth p = false → ∃ t, exec (.twinState mb seq (h ++ p)) s = .next t ∧ t.answered mb 0x0070 0xA seq [] ∧ s.onlyMailbox t mb) ∧
    (∀ dest : TwinSt, twinOf (field p 0 1) = some dest → s.fab.twin = .none → (dest = .active ∨ dest = .solo) →
      ∃ t, exec (.twinState mb seq (h ++ p)) s = .next t ∧
        if s.twinAuth p = true then t.answered mb 0x0070 0 seq (leBytes 1 dest.code ++ leBytes 3 0) ∧
          t.fab = { s.fab with twin := dest, twinArm := none } ∧ t.nor = { s.nor with twinSeq := field p 8 8 } ∧
          t.log = s.log.take 0x0056 9 1 exsarUnit (s.now (exsarUnit / 128))
            (leBytes 1 0 ++ leBytes 1 dest.code ++ leBytes 8 (field p 8 8)) ∧
          t = { s with fab := t.fab, nor := t.nor, log := t.log, helm := t.helm }
        else t.answered mb 0x0070 0xA seq [] ∧ s.onlyMailbox t mb) ∧
    (field p 0 1 = 1 → s.fab.twin = .standby → s.canArm (field p 2 6) = true →
      ∃ t, exec (.twinState mb seq (h ++ p)) s = .next t ∧
        if s.twinAuth p = true then t.answered mb 0x0070 0 seq (leBytes 1 2 ++ leBytes 3 0) ∧
          { s with
            nor := { s.nor with twinSeq := field p 8 8 }
            fab := { s.fab with twinArm := some { toSt := .active, v := field p 2 6, seq := field p 8 8 } } }.onlyMailbox t mb
        else t.answered mb 0x0070 0xA seq [] ∧ s.onlyMailbox t mb)) ∧
  (∀ (s : State) (mb seq : Nat) (h p : List Byte), s.serves0 mb seq h p → p.length = 8 →
    let k := fun i => 64 * i + field p (4 + i) 1
    (s.fab.twin ≠ .resync → ∃ t, exec (.twinResync mb seq (h ++ p)) s = .next t ∧ t.answered mb 0x0071 1 seq (leBytes 4 0) ∧
      s.onlyMailbox t mb) ∧
    (s.fab.twin = .resync → s.fab.resync = none → s.upd.relay = none →
      (∀ i, i < 4 → field p (4 + i) 1 ≤ 47 ∧ (s.chan (k i)).owner = 0 ∧ (s.chan (k i)).st = .idle) →
      ∃ t y, exec (.twinResync mb seq (h ++ p)) s = .next t ∧ t.answered mb 0x0071 0 seq [] ∧ t.fab.resync = some y ∧
        y.rateCap = field p 0 2 ∧ y.done = false ∧ y.failed = false ∧
        (∀ i, i < 4 → Tbl.getD y.todo (k i) [] = (s.mirrorSpans i).tail ∧
          (∀ a n, (s.mirrorSpans i).head? = some (a, n) → Tbl.getD (t.chan (k i)).slots 0 [] = copyDesc s.ownNode a n ∧
            (t.chan (k i)).st = (if (s.chan (k i)).pause || (s.chan (k i)).pausePwr then .pausing else .running) ∧
            (t.chan (k i)).rateCap = field p 0 2) ∧
          (s.mirrorSpans i = [] → t.chan (k i) = s.chan (k i))) ∧
        (∀ j, (∀ i, i < 4 → j ≠ k i) → t.chan j = s.chan j))) ∧
  (∀ (s : State) (mb seq : Nat) (h p : List Byte), s.serves0 mb seq h p → p.length = 4 →
    let d := field p 0 1
    (fenceable d = false ∨ (s.die d).life = .retired → ∃ t, exec (.dieReset mb seq (h ++ p)) s = .next t ∧
      t.answered mb 0x0072 1 seq (leBytes 4 0) ∧ s.onlyMailbox t mb) ∧
    (fenceable d = true → (s.die d).life = .fenced → ∃ t, exec (.dieReset mb seq (h ++ p)) s = .next t ∧
      t.answered mb 0x0072 2 seq [] ∧ s.onlyMailbox t mb) ∧
    (d < 12 → (s.die d).life = .up → (s.die d).fences.length ≤ 3 → s.pipes = [] → s.power.paused = [] →
      ∃ t, exec (.dieReset mb seq (h ++ p)) s = .next t ∧ (t.mbox mb).running = some seq ∧ (t.die d).life = .fenced ∧
        (t.die d).fenceCause = 5 ∧ (t.die d).resetWait = some (mb, seq) ∧ (t.link (8 * d)).st = .fenced ∧
        (t.link (linkPeer (8 * d))).st = .fenced ∧ (∀ u, u < 30 → (t.stage (30 * d + u)).st = .fenced) ∧
        (∀ x, x ≠ d → t.die x = s.die x)))

/-! ### Registers -/

/-- 21: R573, R575, R579, R580, R587; 03: R111, R115; 06: R198; 07: R232; 09: R309; 00: R13, R16. A write clears the W1C bits it sets and
nothing else; a read-only register and an address in no block take no write; a low word read by four bytes latches its high word; SNAP_INDEX
captures the entry it names.

11: R348, R351, R365, R366, R370, R372; 21: R582. What a write of CH_CTRL and RATE_CAP does to a host channel between descriptors on a plinth
whose other channels rest; CH48 to CH63 ignore all four. -/
def Obligations.RegisterWritesActOnTheirBits : Prop :=
  ((∀ (s : State) (d u v : Nat), d < 12 → u < 30 → (s.die d).life = .up →
    let x := s.stage (30 * d + u)
    ∃ t, exec (.registerWrite (svcAddr d 1 (0x100 * u)) 4 v) s = .next t ∧ t = { s with stages := t.stages } ∧
      t.stage (30 * d + u) = { x with
        flags := { overflow := x.flags.overflow && !bit 0 v, nanProduced := x.flags.nanProduced && !bit 1 v
                   saturation := x.flags.saturation && !bit 2 v, scaleClamp := x.flags.scaleClamp && !bit 3 v }
        lsCe := x.lsCe && !bit 8 v } ∧ ∀ j, j ≠ 30 * d + u → t.stage j = s.stage j) ∧
  (∀ (s : State) (k v : Nat), k ∈ linkEnds → s.dieLost (k / 8) = false →
    ∃ t, exec (.registerWrite (svcAddr (k / 8) 3 (0x1000 * (k % 8))) 4 v) s = .next t ∧ t = { s with links := t.links } ∧
      t.link k = { s.link k with crcSeen := (s.link k).crcSeen && !bit 4 v } ∧ ∀ j, j ≠ k → t.link j = s.link j) ∧
  (∀ (s : State) (p i v : Nat), p < 4 → i < 8 →
    let x := s.stack (8 * p + i)
    ∃ t, exec (.registerWrite (svcAddr (12 + p) 4 (0x100 * i)) 4 v) s = .next t ∧ t = { s with hbmStacks := t.hbmStacks } ∧
      t.stack (8 * p + i) = { x with ceSeen := x.ceSeen && !bit 4 v, ueSeen := x.ueSeen && !bit 5 v } ∧
      ∀ j, j ≠ 8 * p + i → t.stack j = s.stack j) ∧
  (∀ (s : State) (b r v : Nat), b < 8 → r < 576 → (s.die (16 + b)).life = .up →
    ∃ t, exec (.registerWrite (svcAddr (16 + b) 0xA (0x40 * r)) 4 v) s = .next t ∧ t = { s with beacons := t.beacons } ∧
      t.ring b r = { s.ring b r with
        mislockSeen := (s.ring b r).mislockSeen && !bit 4 v, unlockSeen := (s.ring b r).unlockSeen && !bit 5 v }) ∧
  (∀ (s : State) (d v : Nat), d < 24 → exec (.registerWrite (svcAddr d 2 8) 8 v) s = .next s) ∧
  (∀ (s : State) (a w v : Nat), placeOf a = none → exec (.registerWrite a w v) s = .next s) ∧
  (∀ (s : State) (d : Nat), d < 24 → s.dieLost d = false → exec (.counterLowRead (svcAddr d 2 8)) s =
    .next { s with latches := Tbl.set s.latches (svcAddr d 2 8) ((s.die d).refCount % 2 ^ 64 / 2 ^ 32) }) ∧
  (∀ (s : State) (i : Nat),
    (∀ e : LogEntry, s.log.entries.find? (fun e => e.index == i % 2 ^ 15) = some e →
      exec (.snapIndex i) s = .next { s with log := { s.log with snap := e.bytes, snapValid := true } }) ∧
    ((∀ e ∈ s.log.entries, e.index ≠ i % 2 ^ 15) →
      exec (.snapIndex i) s = .next { s with log := { s.log with snap := [], snapValid := false } }))) ∧
  (∀ (s : State) (p c : Nat),
    let k := 64 * p + c
    (48 ≤ c → c < 64 → ∀ (b : Bool) (w : Nat), exec (.chCtrlPauseWrite p c b) s = .next s ∧ exec (.chCtrlAbortWrite p c) s = .next s ∧
      exec (.chCtrlWeightWrite p c w) s = .next s ∧ exec (.rateCapWrite p c w) s = .next s) ∧
    (c < 48 → s.quiet p → (s.chan k).desc = [] → ∀ b : Bool,
      ∃ t, exec (.chCtrlPauseWrite p c b) s = .next t ∧ t = { s with chans := t.chans } ∧
        t.chan k = { s.chan k with
          pause := b
          st := if b || (s.chan k).pausePwr then (if (s.chan k).st = .running then .pausing else (s.chan k).st)
            else if (s.chan k).st = .pausing ∨ (s.chan k).st = .paused then .running else (s.chan k).st } ∧
        ∀ j, j ≠ k → t.chan j = s.chan j) ∧
    (c < 48 → (s.chan k).desc = [] → (s.chan k).waiters = [] → (s.chan k).st = .running ∨ (s.chan k).st = .pausing ∨ (s.chan k).st = .paused →
      ∃ t, exec (.chCtrlAbortWrite p c) s = .next t ∧ t = { s with chans := t.chans } ∧ t.chan k = { s.chan k with st := .idle } ∧
        ∀ j, j ≠ k → t.chan j = s.chan j) ∧
    (c < 48 → (s.chan k).st = .idle ∨ (s.chan k).st = .error → exec (.chCtrlAbortWrite p c) s = .next s) ∧
    (c < 48 → ∀ w, ∃ t, exec (.chCtrlWeightWrite p c w) s = .next t ∧ t = { s with chans := t.chans } ∧
      t.chan k = { s.chan k with weight := if w % 16 = 0 then 1 else w % 16 } ∧ ∀ j, j ≠ k → t.chan j = s.chan j) ∧
    (c < 48 → ∀ v, ∃ t, exec (.rateCapWrite p c v) s = .next t ∧ t = { s with chans := t.chans } ∧
      t.chan k = { s.chan k with rateCap := v % 65536 } ∧ ∀ j, j ≠ k → t.chan j = s.chan j))

/-! ### Power, reset, start and the pins -/

/-- 14: R425, R444, R445, R447; 18: R535. A power-on and a reset clear every block of every die; the NOR's banks, records and fuses are kept. With groups 1 to 3
out of regulation RESET_N does nothing.

14: R427 to R438, R441, R442. A start with nothing in its way reaches step 13 with a key in force and memory zeroed, and DEVICE_READY makes it
READY, or TEST with TEST_EN; what stands in its way stops it at its step with its cause. That
the confirmed bank's image is accepted is a fact of the part, so it stands in the conclusion. -/
def Obligations.ResetsAndStartsAct : Prop :=
  (∀ s : State,
    (∃ t, exec .powerOn s = .next t ∧ t.pins = {} ∧ t = { State.reset with pending := s.pending, free := s.free, nor := t.nor } ∧
      t.nor.imageA = s.nor.imageA ∧ t.nor.imageB = s.nor.imageB ∧ t.nor.record = s.nor.record ∧ t.nor.keys = s.nor.keys ∧
      t.nor.repairLog = s.nor.repairLog ∧ t.nor.fuses.rollbackMin = s.nor.fuses.rollbackMin ∧ t.nor.fuses.lifecycle = s.nor.fuses.lifecycle) ∧
    (s.pins.aux = true → s.pins.mainRails = true → ∃ t, exec .resetNFall s = .next t ∧
      t = { State.reset with pending := s.pending, free := s.free, nor := t.nor, pins := t.pins } ∧
      t.nor.imageA = s.nor.imageA ∧ t.nor.imageB = s.nor.imageB ∧ t.nor.record = s.nor.record ∧ t.nor.keys = s.nor.keys ∧
      t.nor.repairLog = s.nor.repairLog ∧ t.nor.fuses.rollbackMin = s.nor.fuses.rollbackMin ∧
      t.pins = { s.pins with
        resetN := false, failstopN := true, thermtripN := !s.pins.shutdownLatch, coolDuty := 200, lsmResetN := 0 }) ∧
    (s.pins.aux = false ∨ s.pins.mainRails = false → exec .resetNFall s = .next s)) ∧
  ((∀ (s : State) (i : StartInput) (key : List Nat), s.boot.activation = false → s.pins.aux = true → s.pins.mainRails = true →
    s.pins.resetN = false → s.boot.dev = .starting →
    (s.pins.shutdownLatch = true → ∃ t, exec (.resetNRise i) s = .next t ∧ t.pins.resetN = true ∧ t.boot.dev = .failureStop ∧
      t.boot.phase = 2 ∧ t.boot.cause = 9 ∧ t.pins.failstopN = false) ∧
    (s.pins.shutdownLatch = false → i.selfTestA = false → i.selfTestB = false → ∃ t, exec (.resetNRise i) s = .next t ∧
      t.boot.dev = .failureStop ∧ t.boot.phase = 2 ∧ t.boot.cause = 1 ∧ t.boot.coreA = .out ∧ t.boot.coreB = .out) ∧
    (s.pins.shutdownLatch = false → i.selfTestA = true → i.selfTestB = true → i.bootSel % 4 = 0 → i.standbyLoads = true → i.castOpens = true →
      i.prevOpens = true → i.keysOpen = true → i.railsUp = true → badLane i = none → i.badWord = none → i.lateSubs = [] → i.phyFails = [] →
      drawKey i.keyDraws = some key → i.recordLost = false → s.nor.record.pending = none → s.nor.repairLog = [] →
      (∀ k, (s.stack k).programming = false) →
      ∃ t, exec (.resetNRise i) s = .next t ∧ t.pins.resetN = true ∧ t.pins.testEn = i.testEn ∧
        (s.nor.bankOk s.nor.record.confirmedB = true → t.pins.exsarRails = true ∧
        t.boot.dev = .starting ∧ t.boot.phase = 13 ∧ t.boot.activeB = false ∧ t.boot.coreA = .active ∧ t.boot.coreB = .standby ∧
        t.boot.bankB = s.nor.record.confirmedB ∧ t.boot.key = key ∧ t.boot.seed = i.seed % 2 ^ 64 ∧ t.mem = {} ∧ t.poison = []))) ∧
  (∀ (s : State) (rail : Nat), s.boot.dev = .starting → s.boot.phase = 6 → ∃ t, exec (.railRegulationTimeout rail) s = .next t ∧
    t.boot.dev = .failureStop ∧ t.boot.phase = 6 ∧ t.boot.cause = 4 ∧ t.pins.failstopN = false) ∧
  (∀ (s : State) (d n m : Nat), s.boot.dev = .starting → s.boot.phase = 8 → Tbl.get? s.boot.loads d = some n →
    s.startIn.lateSubs.find? (fun l => l.1 = d) = some (d, m) → n < m →
    (n < 2 → n + 1 < m → exec (.subordinateHeartbeatTimeout d) s =
      .next { s with boot := { s.boot with loads := Tbl.set s.boot.loads d (n + 1) } }) ∧
    (n = 2 → d < 12 → ∃ t, exec (.subordinateHeartbeatTimeout d) s = .next t ∧ (t.die d).life = .retired ∧ (t.die d).attempts = 3) ∧
    (n = 2 → 12 ≤ d → d < 16 → ∃ t, exec (.subordinateHeartbeatTimeout d) s = .next t ∧ t.boot.dev = .failureStop ∧ t.boot.phase = 8 ∧
      t.boot.cause = 7)) ∧
  (∀ s : State, s.fwSet = false → exec .deviceReady s = .next s) ∧
  (∀ s : State, s.boot.dev = .starting → s.boot.phase = 13 → s.fwSet = true → ∃ t, exec .deviceReady s = .next t ∧
    t.boot.dev = (if s.pins.testEn then .test else .ready) ∧ t.boot.phase = 0xE ∧ t.boot.cause = 0 ∧ t.boot.report = [] ∧
    (s.pins.testEn = true → t.links = s.links) ∧
    (s.pins.testEn = false → ∀ k ∈ linkList, (s.link k).st = .up → (s.link k).unacked.length < 2047 →
      (t.link k).profile = negotiate (linkOwn k) (s.link k).peerWord ∧ (t.link k).switchOut = some (s.link k).txSeq ∧
      (t.link k).sent.length = (s.link k).sent.length + 1)))

/-- 12: R394, R395; 14: R440, R441. The I3C target and its MCTP end answer from step 1 on, and not before.

19: R551. The TAP: what each instruction shifts out and what drives the lands; EXTEST, CLAMP and HIGHZ act only while RESET_N is low. -/
def Obligations.SidebandAndBoundaryScanAct : Prop :=
  ((∀ (s : State) (a n : Nat), s.i3cOn = true →
    let sb := fun (b : Sideband) => ({ s with helm := { s.helm with sb := b } } : State)
    exec (.i3cEntdaa a) s = .next (sb { s.helm.sb with dyn := some a }) ∧
    exec (.i3cSetdasa 0x3A a) s = .next (sb { s.helm.sb with dyn := some a }) ∧ (n ≠ 0x3A → exec (.i3cSetdasa n a) s = .next s) ∧
    exec .i3cGetstatus s = .next (sb { s.helm.sb with reply := leBytes 1 (16 * s.boot.phase + s.boot.cause) }) ∧
    exec (.setEndpointId a) s = .next (sb { s.helm.sb with eid := a % 256, reply := leBytes 2 0 ++ leBytes 1 a ++ leBytes 1 0 }) ∧
    exec .getEndpointId s = .next (sb { s.helm.sb with reply := leBytes 1 0 ++ leBytes 1 s.helm.sb.eid ++ leBytes 2 0 }) ∧
    (n = 0 ∨ n = 0x7E → exec (.getMctpVersionSupport n) s =
      .next (sb { s.helm.sb with reply := leBytes 1 0 ++ leBytes 1 1 ++ leBytes 4 0xF1F3F100 })) ∧
    exec .getMessageTypeSupport s = .next (sb { s.helm.sb with reply := leBytes 1 0 ++ leBytes 1 1 ++ leBytes 1 0x7E })) ∧
  (∀ (s : State) (a n : Nat), s.i3cOn = false → exec (.i3cEntdaa a) s = .next s ∧ exec (.i3cSetdasa n a) s = .next s ∧
    exec .i3cGetstatus s = .next s ∧ exec (.setEndpointId a) s = .next s ∧ exec .getEndpointId s = .next s ∧
    exec (.getMctpVersionSupport n) s = .next s ∧ exec .getMessageTypeSupport s = .next s) ∧
  (∀ (s : State) (body : List Byte), s.helmOn = true →
    let sb := s.helm.sb
    (sb.busy = true → exec (.sidebandMessage body) s = .next { s with helm := { s.helm with sb := { sb with
      sent := sb.sent ++ [leBytes 2 (field body 0 2) ++ leBytes 1 2 ++ leBytes 1 0 ++ leBytes 4 sb.cmdSeq] } } }) ∧
    (sb.busy = false → field body 0 2 ∉ sidebandCodes → exec (.sidebandMessage body) s = .next { s with helm := { s.helm with sb := { sb with
      sent := sb.sent ++ [leBytes 2 (field body 0 2) ++ leBytes 1 1 ++ leBytes 1 0 ++ leBytes 4 sb.cmdSeq ++ leBytes 4 0] } } }) ∧
    (sb.busy = false → field body 0 2 ∈ sidebandCodes → ∃ t, exec (.sidebandMessage body) s = .next t ∧
      t.helm.sb = { sb with busy := true, cmdSeq := addMod 32 sb.cmdSeq 1 } ∧
      t.mbox sbKey = { s.mbox sbKey with queue := (s.mbox sbKey).queue ++ [{ seq := addMod 32 sb.cmdSeq 1, body := body }] } ∧
      (∀ k, k ≠ sbKey → t.mbox k = s.mbox k) ∧ t = { s with helm := t.helm }))) ∧
  (∀ (s : State) (lands v : Nat),
    exec .jtagTapReset s = .next { s with pins := { s.pins with tap := .reset, driven := none } } ∧
    exec .bypass s = .next { s with pins := { s.pins with tap := .bypass, driven := none } } ∧
    exec .idcode s = .next { s with pins := { s.pins with tap := .idcode, driven := none, tdo := 0x4C123F4B } } ∧
    exec (.samplePreload lands (some v)) s =
      .next { s with pins := { s.pins with tap := .sample, driven := none, tdo := lands, boundary := v } } ∧
    exec (.samplePreload lands none) s = .next { s with pins := { s.pins with tap := .sample, driven := none, tdo := lands } } ∧
    (s.pins.resetN = false →
      exec .extest s = .next { s with pins := { s.pins with tap := .extest, driven := some s.pins.boundary } } ∧
      exec .clamp s = .next { s with pins := { s.pins with tap := .clamp, driven := some s.pins.boundary } } ∧
      exec .highz s = .next { s with pins := { s.pins with tap := .highz, driven := none } }) ∧
    (s.pins.resetN = true → exec .extest s = .next s ∧ exec .clamp s = .next s ∧ exec .highz s = .next s))

/-! ### The host port and Helm sessions -/

/-- 12: R375, R376, R377, R396; 14: R440. Frames are counted, held or dropped, flow control is obeyed and sent, and the port answers neighbour
discovery, echo and ARP. Losing the link leaves sessions and mailboxes alone. -/
def Obligations.EthernetPortActs : Prop :=
  (∀ (s : State) (f : EthFrame), s.helm.eth.up = true →
    (9216 < f.length → ∃ t, exec (.ethFrameRx f) s = .next t ∧
      t.helm.eth = { s.helm.eth with oversizeDrops := satAdd 32 s.helm.eth.oversizeDrops 1 } ∧ (s.helm.eth.oversizeDrops ≠ 2 ^ 32 - 2 →
      t = { s with helm := { s.helm with eth := { s.helm.eth with oversizeDrops := satAdd 32 s.helm.eth.oversizeDrops 1 } } })) ∧
    (let prio := if f.vlan = none then 0 else f.pcp % 8;
      f.length ≤ 9216 → f.vlan = none ∨ s.nor.hostCfg.vlan = 0 ∨ f.vlan = some s.nor.hostCfg.vlan →
      f.udpPort = some s.nor.hostCfg.udpPort → f.fragment = false → f.checksumOk = true → s.helm.eth.bytesHeld prio + f.length ≤ 262144 →
      ∃ t, exec (.ethFrameRx f) s = .next t ∧ t = { s with helm := { s.helm with eth := t.helm.eth } } ∧
        t.helm.eth.bytesHeld prio = s.helm.eth.bytesHeld prio + f.length ∧
        (∀ p, p ≠ prio → t.helm.eth.bytesHeld p = s.helm.eth.bytesHeld p) ∧
        (196608 ≤ t.helm.eth.bytesHeld prio → prio ∈ t.helm.eth.xoffSent) ∧
        (t.helm.eth.bytesHeld prio < 131072 → prio ∉ t.helm.eth.xoffSent)) ∧
    (f.length ≤ 9216 → (∃ v, f.vlan = some v ∧ s.nor.hostCfg.vlan ≠ 0 ∧ v ≠ s.nor.hostCfg.vlan) ∨
        f.udpPort ≠ some s.nor.hostCfg.udpPort ∨ f.fragment = true ∨ f.checksumOk = false → exec (.ethFrameRx f) s = .next s)) ∧
  (∀ (s : State) (p : Nat),
    (∃ t, exec (.pfcXoff p) s = .next t ∧ t.portSends p = false ∧ (∀ q, q ≠ p → t.portSends q = s.portSends q) ∧
      t = { s with helm := { s.helm with eth := { s.helm.eth with xoffRecv := t.helm.eth.xoffRecv } } }) ∧
    (∃ t, exec (.pfcXon p) s = .next t ∧ t.portSends p = s.helm.eth.up ∧ (∀ q, q ≠ p → t.portSends q = s.portSends q) ∧
      t.helm.tx = s.helm.tx ++ (s.helm.eth.txWait.filter (fun w => w.1 = p)).map (fun w => w.2) ∧ (∀ w ∈ t.helm.eth.txWait, w.1 ≠ p) ∧
      (∀ w ∈ s.helm.eth.txWait, w.1 ≠ p → w ∈ t.helm.eth.txWait) ∧
      t = { s with helm := { s.helm with
        tx := t.helm.tx, eth := { s.helm.eth with xoffRecv := t.helm.eth.xoffRecv, txWait := t.helm.eth.txWait } } })) ∧
  (∀ (s : State) (a : Nat) (v6 : Bool) (bs : List Byte), s.helm.eth.up = true →
    let out := fun (r : PortReply) =>
      ({ s with helm := { s.helm with eth := { s.helm.eth with replies := s.helm.eth.replies ++ [r] } } } : State)
    exec (.neighbourDiscovery linkLocal) s = .next (out (.neighbour linkLocal)) ∧
    (s.nor.hostCfg.ipv6 ≠ 0 → exec (.neighbourDiscovery s.nor.hostCfg.ipv6) s = .next (out (.neighbour s.nor.hostCfg.ipv6))) ∧
    (a ≠ linkLocal → a ≠ s.nor.hostCfg.ipv6 → exec (.neighbourDiscovery a) s = .next s) ∧
    (v6 = true ∨ s.nor.hostCfg.ipv4 ≠ 0 → exec (.icmpEcho v6 bs) s = .next (out (.echo v6 bs))) ∧
    (s.nor.hostCfg.ipv4 ≠ 0 → exec (.arpRequest s.nor.hostCfg.ipv4) s = .next (out (.arp s.nor.hostCfg.ipv4))) ∧
    (s.nor.hostCfg.ipv4 = 0 → exec (.arpRequest a) s = .next s ∧ exec (.icmpEcho false bs) s = .next s)) ∧
  (∀ s : State,
    (∃ t, exec .ethernetLinkLoss s = .next t ∧ (∀ p, t.portSends p = false ∧ t.helm.eth.bytesHeld p = 0) ∧
      t = { s with helm := { s.helm with eth := t.helm.eth } }) ∧
    (s.pins.aux = true → s.pins.mainRails = true → s.pins.resetN = true → exec .ethernetLinkUp s =
      .next { s with helm := { s.helm with eth := { s.helm.eth with up := true } } }))

/-- 12: R378, R380 to R382, R385; 17: R503, R505. An OPEN_1 with a known key makes a half-open session and is answered; one without is rejected; an
OPEN_3 with the right MAC and S_A opens the session and takes its mailbox over; frames that do not authenticate are counted and dropped. -/
def Obligations.SessionsOpenAndClose : Prop :=
  (∀ (s : State) (f : HelmFrame) (rand : Nat), s.helmOn = true → s.portSends s.nor.hostCfg.helmPcp = true → helmHeadOk f = true →
    f.session = 0 → f.mac = List.replicate 16 0 → 72 ≤ f.body.length → s.nor.fuses.lifecycle ≠ 2 →
    let pt := field f.body 4 1
    let mb := field f.body 5 1
    let slot := field f.body 6 1
    mb < 8 → s.partExists pt = true →
    (∀ key, slot < 4 → Tbl.get? s.nor.keys (4 * pt + slot) = some key → s.helm.halfOpen.length < 16 →
      let x := Config.exchange key (slice f.body 8 64) rand pt slot mb
      ∃ t, exec (.open1 f rand) s = .next t ∧ t = { s with helm := t.helm } ∧ t.helm.sessions = s.helm.sessions ∧
        t.helm.mailboxes = s.helm.mailboxes ∧
        t.helm.halfOpen = s.helm.halfOpen ++ [{ id := s.helm.nextSession, hostTag := field f.body 0 4, partition := pt, mailbox := mb
                                                keySlot := slot, kHD := field x 128 16, kDH := field x 144 16, sA := slice x 96 32 }] ∧
        t.helm.nextSession ≠ 0 ∧
        t.helm.tx = s.helm.tx ++ [{ session := s.helm.nextSession, kind := 7, seq := 0, ackSeq := 0, flags := 0
                                    body := f.body.take 4 ++ slice x 0 96, dest := destOf f.srcAddr f.srcPort }]) ∧
    (slot < 4 → Tbl.get? s.nor.keys (4 * pt + slot) = none →
      ∃ t, exec (.open1 f rand) s = .next t ∧ t.helm.halfOpen = s.helm.halfOpen ∧
        t.helm.tx = s.helm.tx ++ [{ session := 0, kind := 0xA, seq := 0, ackSeq := 0, flags := 0
                                    body := f.body.take 4 ++ leBytes 1 1 ++ leBytes 3 0, dest := destOf f.srcAddr f.srcPort }])) ∧
  (∀ (s : State) (f : HelmFrame) (h : HalfOpen), s.helmOn = true → s.helm.halfOpen.find? (fun y => y.id == f.session) = some h →
    (helmHeadOk f = false ∨ helmMacOk f 8 h.kHD = false → ∃ t, exec (.open3 f) s = .next t ∧
      t.helm.eth.authDrops = satAdd 32 s.helm.eth.authDrops 1 ∧ t.helm.halfOpen = s.helm.halfOpen ∧ t.helm.sessions = s.helm.sessions) ∧
    (helmHeadOk f = true → helmMacOk f 8 h.kHD = true → f.body.take 32 ≠ h.sA → ∃ t, exec (.open3 f) s = .next t ∧
      t.helm.halfOpen = s.helm.halfOpen ∧ t.helm.sessions = s.helm.sessions ∧ t.log = s.log.take 0x0058 10 1 exsarUnit (s.now (exsarUnit / 128))
        (leBytes 1 h.partition ++ leBytes 1 h.mailbox ++ leBytes 16 f.srcAddr)) ∧
    (helmHeadOk f = true → helmMacOk f 8 h.kHD = true → f.body.take 32 = h.sA → ∃ t, exec (.open3 f) s = .next t ∧
      (∀ y ∈ t.helm.halfOpen, y.id ≠ h.id) ∧ (∀ y ∈ s.helm.halfOpen, y.id ≠ h.id → y ∈ t.helm.halfOpen) ∧
      ∃ x ∈ t.helm.sessions, x.id = h.id ∧ x.partition = h.partition ∧ x.mailbox = h.mailbox ∧ x.kHD = h.kHD ∧ x.kDH = h.kDH ∧
        x.expect = 0 ∧ x.txNext = 0 ∧ x.hostAddr = f.srcAddr ∧ x.hostPort = f.srcPort)) ∧
  (∀ (s : State) (id : Nat), ∃ t, exec (.halfOpenExpiry id) s = .next t ∧
    t = { s with helm := { s.helm with halfOpen := s.helm.halfOpen.filter (fun y => y.id ≠ id) } }) ∧
  (∀ (s : State) (f : HelmFrame) (x : Session), s.helmOn = true → s.authentic f 9 = some x → ∃ t, exec (.close f) s = .next t ∧
    t.session? x.id = none ∧ (t.mbox x.key).queue = [] ∧ (t.mbox x.key).running = (s.mbox x.key).running ∧
    (∀ y ∈ s.helm.sessions, y.id ≠ x.id → y ∈ t.helm.sessions) ∧ (s.sec.levelSession = some x.id → s.boot.dev ≠ .failureStop → t.sec.level = 0)) ∧
  (∀ (s : State) (x : Session), s.helmOn = true → s.portSends s.nor.hostCfg.helmPcp = true → s.session? x.id = some x →
    ∃ t, exec (.helmSessionTimeout x.id) s = .next t ∧ t.session? x.id = none ∧ (t.mbox x.key).queue = [] ∧
      (s.sec.levelSession = some x.id → s.boot.dev ≠ .failureStop → t.sec.level = 0) ∧
      t.helm.tx = s.helm.tx ++ [{ session := x.id, kind := 9, seq := x.txNext, ackSeq := x.ackSeq, flags := 2
                                  body := leBytes 1 1 ++ leBytes 3 0, dest := destOf x.hostAddr x.hostPort }])

/-- 12: R379, R383, R384, R386, R390, R391. The frames of an open session: commands are queued in order, acknowledgements free what they name, bulk data
fills its stream, entries go out numbered, and timers send acknowledgements and frames again. -/
def Obligations.SessionFramesActInOrder : Prop :=
  (∀ (s : State) (f : HelmFrame) (x : Session), s.helmOn = true → s.authentic f 1 = some x → f.seq = x.expect →
    (s.mbox x.key).queue.length < 32 → (∀ c ∈ (s.mbox x.key).queue, field c.body 0 2 ∈ knownCodes) → field f.body 0 2 ∈ knownCodes →
    ∃ t, exec (.command f) s = .next t ∧
      (t.mbox x.key).queue = (s.mbox x.key).queue ++ [{ seq := f.seq, body := f.body }] ∧
      (t.session? x.id).map (fun y => y.expect) = some (addMod 32 x.expect 1) ∧ ∀ k, k ≠ x.key → t.mbox k = s.mbox k) ∧
  (∀ (s : State) (f : HelmFrame) (x : Session), s.helmOn = true → s.authentic f 1 = some x → f.seq ≠ x.expect →
    ∃ t, exec (.command f) s = .next t ∧ (t.mbox x.key).queue = (s.mbox x.key).queue ∧
      (t.session? x.id).map (fun y => y.expect) = some x.expect) ∧
  (∀ (s : State) (f : HelmFrame), s.helmOn = true → s.authentic f 1 = none → ∃ t, exec (.command f) s = .next t ∧
    t.helm.eth.authDrops = satAdd 32 s.helm.eth.authDrops 1 ∧ (s.helm.eth.authDrops ≠ 2 ^ 32 - 2 → t.helm.mailboxes = s.helm.mailboxes) ∧ t.helm.sessions = s.helm.sessions) ∧
  (∀ (s : State) (f : HelmFrame) (x : Session), s.helmOn = true → s.authentic f 4 = some x → bit 1 f.flags = true →
    (∃ e ∈ (s.mbox x.key).out, e.sent = true ∧ e.done = false ∧ e.seq = f.ackSeq) → ∃ t, exec (.ack f) s = .next t ∧
      t.mbox x.key = (s.mbox x.key).acked f.ackSeq ∧ (t.mbox x.key).out.length ≤ (s.mbox x.key).out.length ∧
      (∀ e ∈ (t.mbox x.key).out, e.sent = true → e.done = false → seqUpTo e.seq f.ackSeq = false) ∧
      t.session? x.id = some { x with hostAddr := f.srcAddr, hostPort := f.srcPort, rto := s.nor.hostCfg.rto }) ∧
  (∀ (s : State) (f : HelmFrame) (x : Session) (b : BulkStream), s.helmOn = true → s.authentic f 5 = some x → f.seq = x.expect →
    Tbl.get? s.helm.bulk (field f.body 0 1) = some b → b.mailbox = x.key → field f.body 4 8 = b.offset →
    bulkLenOk (f.body.drop 12).length (bit 0 (field f.body 1 1)) = true → b.atEnd = false → b.discard = 0 →
    (b.held + (f.body.drop 12).length ≤ 524288 → ∃ t, exec (.bulk f) s = .next t ∧
      Tbl.get? t.helm.bulk (field f.body 0 1) = some { b with
        offset := addMod 64 b.offset (f.body.drop 12).length, rxq := b.rxq ++ [f.body.drop 12] } ∧
      (t.session? x.id).map (fun y => y.expect) = some (addMod 32 x.expect 1)) ∧
    (524288 < b.held + (f.body.drop 12).length → ∃ t, exec (.bulk f) s = .next t ∧ t.helm.bulk = s.helm.bulk ∧
      t.helm.eth.rxqFullDrops = satAdd 32 s.helm.eth.rxqFullDrops 1)) ∧
  (∀ (s : State) (x : Session) (e : OutEntry) (es : List OutEntry), s.helmOn = true → x.id ≠ 0 → s.session? x.id = some x →
    s.portSends s.nor.hostCfg.helmPcp = true → (s.mbox x.key).out = e :: es → e.sent = false → (s.mbox x.key).unacked.length < 64 →
    ∃ t, exec (.helmFrameSend x.id) s = .next t ∧ t.mbox x.key = { s.mbox x.key with out := { e with sent := true, seq := x.txNext } :: es } ∧
      t.helm.tx = s.helm.tx ++ [{ session := x.id, kind := if e.kind = .response then 2 else 3, seq := x.txNext, ackSeq := x.ackSeq
                                  flags := b2n e.more + (if x.expect = 0 then 0 else 2), body := e.body
                                  dest := destOf x.hostAddr x.hostPort }] ∧
      t.session? x.id = some { x with txNext := addMod 32 x.txNext 1, ackOwed := 0 }) ∧
  (∀ (s : State) (e : OutEntry) (es : List OutEntry), s.helmOn = true → (s.mbox sbKey).out = e :: es → ∃ t, exec (.helmFrameSend 0) s = .next t ∧
    t.helm.sb.sent = s.helm.sb.sent ++ [e.body] ∧ (t.mbox sbKey).out = es ∧ (e.kind = .response → e.more = false → t.helm.sb.busy = false)) ∧
  (∀ (s : State) (x : Session), s.helmOn = true → s.session? x.id = some x → s.portSends s.nor.hostCfg.helmPcp = true →
    let ack : TxFrame := { session := x.id, kind := 4, seq := x.txNext, ackSeq := x.ackSeq, flags := 2, body := []
                           dest := destOf x.hostAddr x.hostPort }
    ((s.mbox x.key).unacked ≠ [] → ∃ t, exec (.helmRetransmitTimeout x.id) s = .next t ∧ t.helm.mailboxes = s.helm.mailboxes ∧
      t.helm.tx = s.helm.tx ++ (s.mbox x.key).unacked.map x.frameOf ∧
      t.session? x.id = some { x with rto := max x.rto (min (2 * x.rto) 64000), ackOwed := 0 }) ∧
    (x.ackOwed ≠ 0 → ∃ t, exec (.helmAckDelayExpiry x.id) s = .next t ∧ t.helm.tx = s.helm.tx ++ [ack] ∧
      t.session? x.id = some { x with ackOwed := 0 }) ∧
    (∃ t, exec (.helmKeepaliveAck x.id) s = .next t ∧ t.helm.tx = s.helm.tx ++ [ack] ∧ t.session? x.id = some { x with ackOwed := 0 }))

/-! ### Streams -/

/-- 01: R18, R19; 03: R77, R78, R80, R81; 04: R134; 05: R164; 07: R205, R214. Between two dies a record draws the credits of every link of its way, the
sending die's once for all streams of its port, and waits while a link carries nothing; on one die it uses no hub. A record on its way arrives behind what its FIFO holds; markers arrive likewise or are passed on at once;
records of squashed epochs are discarded and counted, an epoch that goes back is a fault, and credits return to the sender. -/
def Obligations.StreamsCarryRecords : Prop :=
  (∀ (s : State) (pl q e : Nat) (se : Bool) (bs : List Byte) (p : Pipe), s.pipe? pl = some p → p.st = .running ∨ p.st = .draining →
    q < armNStream p.arm → p.sameDie q = false → (p.str q).hub = 0 → (p.str q).far = 0 → recLegal p q se bs = true →
    let r : Rec := { typ := .data, segEnd := se, epoch := e, payload := bs }
    let pkt := p.recPkt pl q r
    (p.str q).wire.head? = some r → s.findPkt (fun x => x == pkt) = none →
    ((s.link (8 * p.srcDie q)).carries pkt = false → exec (.record pl q e se bs) s = .next s) ∧
    (p.mates q = [q] → (∀ k ∈ s.way (p.srcDie q) pkt, (s.link k).carries pkt = true) →
      ((p.str q).newest.map (fun n => serialNewer 16 n e)).getD false = false → p.batch? e ≠ none →
      ∃ t p', exec (.record pl q e se bs) s = .next t ∧ t.pipe? pl = some p' ∧ { r with stamp := p.clock } ∈ (p'.str q).fifo ∧
        ∀ k ∈ s.way (p.srcDie q) pkt, (t.link k).credits = ((s.link k).draw pkt).credits) ∧
    (plinthOf (p.srcDie q) = plinthOf (p.dstDie q) → (s.link (8 * p.srcDie q)).carries pkt = true →
      (s.link (linkPeer (8 * p.dstDie q))).carries pkt = true →
      ((p.str q).newest.map (fun n => serialNewer 16 n e)).getD false = false → p.batch? e ≠ none →
      ∃ t p', exec (.record pl q e se bs) s = .next t ∧ t.pipe? pl = some p' ∧ { r with stamp := p.clock } ∈ (p'.str q).fifo ∧
        ∀ j ∈ p.mates q, j ≠ q → (p'.str j).hub = (p.str j).hub + 1)) ∧
  (∀ (s : State) (pl q e : Nat) (se : Bool) (bs : List Byte) (p : Pipe), s.pipe? pl = some p → p.st = .running ∨ p.st = .draining →
    q < armNStream p.arm → p.sameDie q = true → (p.str q).wire.head? = some { typ := .data, segEnd := se, epoch := e, payload := bs } → recLegal p q se bs = true →
    let r : Rec := { typ := .data, segEnd := se, epoch := e, payload := bs, stamp := p.clock }
    let k := p.stg (strDst p.arm q)
    (((p.str q).newest.map (fun n => serialNewer 16 n e)).getD false = false → p.batch? e ≠ none →
      ∃ t p', exec (.record pl q e se bs) s = .next t ∧ t.pipe? pl = some p' ∧ (p'.str q).fifo <:+ (p.str q).fifo ++ [r] ∧
        r ∈ (p'.str q).fifo ∧ (p'.str q).newest = some e ∧ p'.clock = p.clock + 1 ∧ t.mem = s.mem) ∧
    (((p.str q).newest.map (fun n => serialNewer 16 n e)).getD false = false → p.batch? e = none →
      ∃ t p', exec (.record pl q e se bs) s = .next t ∧ t.pipe? pl = some p' ∧ (p'.str q).fifo = (p.str q).fifo ∧
        (p'.str q).wire = (p.str q).wire.tail ∧ (p'.str q).due = (p.str q).due + 1 ∧
        Tbl.getD (t.stage k).counters 6 0 = satAdd 64 (Tbl.getD (s.stage k).counters 6 0) 1) ∧
    (((p.str q).newest.map (fun n => serialNewer 16 n e)).getD false = true → (s.stage k).cause = 0 → (s.stage k).bind = some (pl, strDst p.arm q) →
      ∃ t, exec (.record pl q e se bs) s = .next t ∧ (t.stage k).st = .fault ∧ (t.stage k).cause = 5 ∧
        (t.pipe? pl).map (fun p => p.st) = some .failed)) ∧
  (∀ (s : State) (pl q e : Nat) (p : Pipe), s.pipe? pl = some p → p.st = .running ∨ p.st = .draining → q < armNStream p.arm →
    p.sameDie q = true → ((p.str q).newest.map (fun n => serialNewer 16 n e)).getD false = false → (p.str q).fifo = [] →
    ((p.str q).wire.head? = some { typ := .batchEnd, segEnd := false, epoch := e, payload := [] } →
      (p.cur (strDst p.arm q)).map (fun b => b.epoch) = some e →
      ∃ t p', exec (.batchEnd pl q e) s = .next t ∧ t.pipe? pl = some p' ∧
        ((∃ r ∈ (p'.str q).fifo, r.typ = .batchEnd ∧ r.epoch = e) ∨ (∃ b ∈ p'.batches, b.epoch = e ∧ strDst p.arm q ∈ b.stagesDone) ∨
          e ∈ (t.stage (p.stg (strDst p.arm q))).g.ended)) ∧
    ((p.str q).wire.head? = some { typ := .gapMark, segEnd := false, epoch := e, payload := [] } → p.gap = .marked →
      ∃ t p', exec (.gapMark pl q e) s = .next t ∧ t.pipe? pl = some p' ∧
        ((∃ r ∈ (p'.str q).fifo, r.typ = .gapMark ∧ r.epoch = e) ∨ ∃ i ∈ p'.gapPassed, p.stg i = p.stg (strDst p.arm q)))) ∧
  (∀ (s : State) (pl q n : Nat) (p : Pipe), s.pipe? pl = some p → q < armNStream p.arm → strSrc p.arm q ≠ strDst p.arm q →
    p.sameDie q = true ∨ (s.findPkt (fun x => x == p.creditPkt pl q (min n (p.str q).due)) = none ∧
      s.crosses (p.dstDie q) (p.creditPkt pl q (min n (p.str q).due)) = true) →
    (∀ b, (s.stage (p.stg (strSrc p.arm q))).bind = some b → b = (pl, strSrc p.arm q)) →
    ∃ t p', exec (.streamCredit pl q n) s = .next t ∧ t.pipe? pl = some p' ∧ (p'.str q).due = (p.str q).due - min n (p.str q).due ∧
      (p'.str q).credits + (p'.str q).wire.length = (p.str q).credits + (p.str q).wire.length + min n (p.str q).due ∧
      (p'.str q).fifo = (p.str q).fifo)

/-! ### Vector stages -/

/-- 02: R40 to R44, R60; 03: R91, R92, R94; 04: R123. An instruction whose result its destination has room for takes its operands, element by element
under the mask, and leaves the result in the row, or on the streams of the output, that DST names; its flags join those of the stage while the
batch is the head's, and the run goes on. Nothing of another stage and no memory changes.

03: R93; 04: R124. A reduction combines the row's tree with the segment's running result, keeps it while the segment goes on, and writes it
where the segment ends. -/
def Obligations.VectorInstructionsAct : Prop :=
  (let each := fun (opc : Nat) (x : Stage) (i : List Byte) (free : Nat) =>
    (pack (vFo i).width (vMap x i opc free).1, (vFo i).width * (vMap x i opc free).1.length, (vMap x i opc free).2)
  let converted := fun (x : Stage) (i : List Byte) =>
    let rs := (vValues x i).map ((vFo i).encode (vIFlag i 0))
    (pack (vFo i).width (rs.map (·.1)), (vFo i).width * rs.length, rs.foldl (fun acc r => acc.or r.2) Flags.none)
  let blocks := fun (x : Stage) (i : List Byte) =>
    let vs := vValues x i
    let rs := (blocksIn (if vIFlag i 2 then 16 else 32) vs.length vs).map (toMx (vFo i))
    let bs := pack (vFo i).width (rs.flatMap (fun r => r.1.elems)) ++ rs.map (fun r => BitVec.ofNat 8 r.1.scale)
    (bs, 8 * bs.length, rs.foldl (fun acc r => acc.or r.2) Flags.none)
  let pruned := fun (x : Stage) (i : List Byte) =>
    let cs := (vSource x i 4 (vFi i)).getD []
    let gs := (blocksIn 4 cs.length cs).map (fun g => (g, keptPair (vFi i) g))
    let bs := pack (vFi i).width (gs.flatMap (fun q => [(vFi i).canon (q.1.getD q.2.1 0), (vFi i).canon (q.1.getD q.2.2 0)])) ++
      pack 4 (gs.map (fun q => q.2.1 + 4 * q.2.2))
    (bs, 8 * bs.length, Flags.none)
  ∀ (c : Nat → LsRead → Instr) (opc : Nat) (res : Stage → List Byte → Nat → List Byte × Nat × Flags),
    (c, opc, res) ∈
      [(.add, 0x01, each 0x01), (.sub, 0x02, each 0x02), (.mul, 0x03, each 0x03), (.fma, 0x04, each 0x04),
        (.min, 0x05, each 0x05), (.max, 0x06, each 0x06), (.abs, 0x07, each 0x07), (.neg, 0x08, each 0x08),
        (.cmpEq, 0x09, each 0x09), (.cmpLt, 0x0A, each 0x0A), (.cmpLe, 0x0B, each 0x0B), (.select, 0x0C, each 0x0C),
        (.and, 0x10, each 0x10), (.or, 0x11, each 0x11), (.xor, 0x12, each 0x12), (.shl, 0x13, each 0x13),
        (.shrArithmetic, 0x14, each 0x14), (.shrLogical, 0x15, each 0x15), (.rowScale, 0x1A, each 0x1A),
        (.rowBias, 0x1B, each 0x1B), (.cvt, 0x18, fun x i _ => converted x i), (.cvtMx, 0x19, fun x i _ => blocks x i),
        (.prune24, 0x28, fun x i _ => pruned x i)] →
    ∀ (s : State) (k : Nat) (ls : LsRead) (j : Job) (i : List Byte), s.vAt k j i opc → ls ≠ .uncorrectable →
      let r := res (s.stage k) i s.free
      (vRoom j (s.stage k) i 0 r.2.1 →
        ∃ t, exec (c k ls) s = .next t ∧ s.stageOnly t k j.pl ∧ s.vPlaced t k j i 0 r.2.1 r.1 ∧
          (j.p.isHead j.b.epoch = true → (t.stage k).flags = (s.stage k).flags.or r.2.2) ∧
          (t.stage k).lsCe = ((s.stage k).lsCe || ls == .corrected) ∧ s.runMoved t k j) ∧
      (undoFits (s.stage k) (j.p.isHead j.b.epoch) j.b.epoch (vRows (s.stage k) i 0 r.2.1) = false →
        ∃ t, exec (c k ls) s = .next t ∧ s.stageOnly t k j.pl ∧ (t.stage k).v.undoWait = some j.b.epoch ∧
          (t.stage k).store = (s.stage k).store ∧ (t.stage k).v.ip = (s.stage k).v.ip)) ∧
  (∀ (c : Nat → LsRead → Instr) (opc : Nat), (c, opc) ∈ [(Instr.reduceAdd, 0x20), (.reduceMax, 0x21), (.reduceMin, 0x22)] →
    ∀ (s : State) (k : Nat) (ls : LsRead) (j : Job) (i : List Byte) (a : Nat), s.vAt k j i opc → ls ≠ .uncorrectable →
      let x := s.stage k
      let u := Config.freeNat s.free 0
      let op := reduceOp (vFi i) opc u
      let v := match Tbl.get? x.v.acc x.v.ip with
        | some b => (op b a).1
        | none => a
      let ends := vSegEnd x || (x.v.run0.isNone && !x.v.atEnd)
      let code := vCode j.p.arm (j.p.ent j.i)
      let w := (vFo i).width
      let bs := pack w [(vReFmt (vFi i) (vFo i) (vIFlag i 0) u (v, Flags.none)).1]
      let lo := if vKind i 2 = 0 then (x.v.seg % vLen i) * w else 0
      (reduceTree op 16 ((vSource x i 4 (vFi i)).getD [])).1.head? = some a →
      (ends = false → vNext code x (x.v.ip + 1) < code.length → ∃ t, exec (c k ls) s = .next t ∧ s.stageOnly t k j.pl ∧
        Tbl.get? (t.stage k).v.acc x.v.ip = some v ∧ (t.stage k).store = x.store ∧ s.runMoved t k j) ∧
      (ends = true → vRoom j x i lo w → ∃ t, exec (c k ls) s = .next t ∧ s.stageOnly t k j.pl ∧ s.vPlaced t k j i lo w bs ∧ s.runMoved t k j))

/-- 02: R41, R60; 03: R92. What the elements are, in INT32 and FP32: integers wrap, or clamp with the flag under SATURATING; floating results are the exact
one rounded once; comparisons give all ones or zero; a shift by the width or more, the result of which the rules do not state, is not
said to be anything. Which operand SELECT takes as its mask value is the model's (assumption 21). -/
def Obligations.VectorElementsAreExact : Prop :=
  (∀ (free a b c : Nat), a < 2 ^ 32 → b < 2 ^ 32 →
    let sa := toSigned 32 a
    let sb := toSigned 32 b
    (∀ (opc : Nat) (v : Int), (opc, v) ∈ [(0x01, sa + sb), (0x02, sa - sb), (0x03, sa * sb), (0x07, (sa.natAbs : Int)), (0x08, -sa)] →
      (vElem .int32 opc false free a b c).1 < 2 ^ 32 ∧ ((vElem .int32 opc false free a b c).1 : Int) % 2 ^ 32 = v % 2 ^ 32 ∧
      (vElem .int32 opc false free a b c).2 = Flags.none ∧
      (-(2 ^ 31 : Int) ≤ v ∧ v < 2 ^ 31 → toSigned 32 (vElem .int32 opc true free a b c).1 = v ∧ (vElem .int32 opc true free a b c).2 = Flags.none) ∧
      (2 ^ 31 ≤ v → toSigned 32 (vElem .int32 opc true free a b c).1 = 2 ^ 31 - 1 ∧ (vElem .int32 opc true free a b c).2.saturation = true) ∧
      (v < -(2 ^ 31 : Int) → toSigned 32 (vElem .int32 opc true free a b c).1 = -(2 ^ 31 : Int) ∧
        (vElem .int32 opc true free a b c).2.saturation = true)) ∧
    toSigned 32 (vElem .int32 0x05 false free a b c).1 = min sa sb ∧ toSigned 32 (vElem .int32 0x06 false free a b c).1 = max sa sb ∧
    (vElem .int32 0x10 false free a b c).1 = Nat.land a b ∧ (vElem .int32 0x11 false free a b c).1 = Nat.lor a b ∧
    (vElem .int32 0x12 false free a b c).1 = Nat.xor a b ∧
    (vElem .int32 0x0C false free a b c).1 = (if b = 0 then c else a) ∧
    (b < 32 → (vElem .int32 0x13 false free a b c).1 = a * 2 ^ b % 2 ^ 32 ∧ toSigned 32 (vElem .int32 0x14 false free a b c).1 = sa / 2 ^ b ∧
      (vElem .int32 0x15 false free a b c).1 = a / 2 ^ b) ∧
    (vCompare .int32 0x09 a b free = true ↔ sa = sb) ∧ (vCompare .int32 0x0A a b free = true ↔ sa < sb) ∧
    (vCompare .int32 0x0B a b free = true ↔ sa ≤ sb)) ∧
  (∀ (free a b c : Nat) (sat : Bool), vElem .fp32 0x01 sat free a b c = fAdd .fp32 a b ∧ vElem .fp32 0x02 sat free a b c = fSub .fp32 a b ∧
    vElem .fp32 0x03 sat free a b c = fMul .fp32 a b ∧ vElem .fp32 0x04 sat free a b c = fFma .fp32 a b c ∧
    vElem .fp32 0x1A sat free a b c = fMul .fp32 a b ∧ vElem .fp32 0x1B sat free a b c = fAdd .fp32 a b)


/-- 03: R96, R98, R99; 05: R153, R154, R157; 04: R124. STORE and SCATTER write memory while their batch is the head's, are held while it runs ahead, and wait
where the buffer is full; CONTROL gives its word to the home sequencer, or holds it. -/
def Obligations.VectorStoresAndControlAct : Prop :=
  (∀ (s : State) (k : Nat) (ls : LsRead) (j : Job) (i : List Byte), s.vAt k j i 0x30 → ls ≠ .uncorrectable →
    let x := s.stage k
    let d := vIFlag i 5
    let sd := vStore (j.p.ent j.i) d
    let bs := pack (vFi i).width ((vSource x i 4 (vFi i)).getD [])
    let at_ := if d then x.v.pos.2 else x.v.pos.1
    let a := j.p.base j.b sd.1 + sd.2.1 + at_
    let held := Tbl.getD s.held (stDie k) []
    let ps := maskedRuns (vMask x i) a 0 (bs.length + 1) bs
    let left := ps.drop x.v.placed
    let entry := fun (q : Nat × List Byte) => ({ stage := k, epoch := j.b.epoch, pipe := j.pl, region := sd.1, addr := q.1, data := q.2
                                                 mask := q.2.map (fun _ => true) } : HeldStore)
    (∀ q ∈ ps, q.1 < 2 ^ 56) →
    (j.p.isHead j.b.epoch = true → x.v.placed = 0 → vKind i 0xA = 8 → s.plainRun a bs.length → 4 ≤ bs.length ∨ a % 4 + bs.length ≤ 4 → s.windowOk x.partition a bs.length accWrite = true →
      s.inFixed a bs.length = false → ∃ t, exec (.store k ls) s = .next t ∧
        t.mem = Store.writeMasked s.mem (localOf a) bs (bs.map (fun _ => true)) ∧
        (t.stage k).v.pos = (if d then (x.v.pos.1, at_ + bs.length) else (at_ + bs.length, x.v.pos.2)) ∧ (t.stage k).store = x.store ∧
        ∃ p b, t.pipe? j.pl = some p ∧ b ∈ p.batches ∧ b.epoch = j.b.epoch ∧ b.stores = j.b.stores + 1) ∧
    (j.p.isHead j.b.epoch = false → held.length + left.length ≤ 32768 → ∃ t, exec (.store k ls) s = .next t ∧ s.stageOnly t k j.pl ∧
      Tbl.getD t.held (stDie k) [] = held ++ left.map entry ∧
      (t.stage k).v.pos = (if d then (x.v.pos.1, at_ + bs.length) else (at_ + bs.length, x.v.pos.2))) ∧
    (j.p.isHead j.b.epoch = false → held.length ≤ 32768 → 32768 < held.length + left.length → ∃ t, exec (.store k ls) s = .next t ∧
      s.stageOnly t k j.pl ∧ Tbl.getD t.held (stDie k) [] = held ++ (left.take (32768 - held.length)).map entry ∧
      (t.stage k).v.placed = x.v.placed + (32768 - held.length) ∧ (t.stage k).v.waitHeld = true ∧ (t.stage k).v.ip = x.v.ip ∧ (t.stage k).v.pos = x.v.pos)) ∧
  (∀ (s : State) (k : Nat), (s.stage k).v.waitHeld = true → (Tbl.getD s.held (stDie k) []).length < 32768 →
    exec (.heldStoreResume k) s = .next (s.setStage k { s.stage k with v := { (s.stage k).v with waitHeld := false } })) ∧
  (∀ (s : State) (k : Nat) (ls : LsRead) (j : Job) (i : List Byte) (f : Nat × Rec), s.vAt k j i 0x31 → ls ≠ .uncorrectable →
    (s.stage k).v.run2 = some f →
    let x := s.stage k
    let e := j.p.ent j.i
    let sd := vStore e (vIFlag i 5)
    let cs := (vSource x i 4 (vFi i)).getD []
    let es := entriesOf (field e 0xE 1) sd.2.2 0 512 f.2.payload
    let n := Nat.max 1 (cs.length / Nat.max 1 es.length)
    let dest := fun (p : Nat) => entryAddr (field e 0xE 1) (j.p.base j.b sd.1 + sd.2.1) p
    let held := Tbl.getD s.held (stDie k) []
    let ps := (List.range es.length).flatMap (fun t => match es.getD t none with
      | none => []
      | some p =>
        let bs := pack (vFi i).width ((cs.drop (n * t)).take n)
        maskedRuns (vMask x i) (dest p) ((vFi i).width * n * t / 8) (bs.length + 1) bs)
    let entry := fun (q : Nat × List Byte) => ({ stage := k, epoch := j.b.epoch, pipe := j.pl, region := sd.1, addr := q.1, data := q.2
                                                 mask := q.2.map (fun _ => true) } : HeldStore)
    (∀ q ∈ ps, q.1 < 2 ^ 56) → (∀ p, some p ∈ es → dest p < 2 ^ 56) → x.v.placed = 0 →
    (j.p.isHead j.b.epoch = false → held.length + ps.length ≤ 32768 → ∃ t, exec (.scatter k ls) s = .next t ∧ s.stageOnly t k j.pl ∧
      Tbl.getD t.held (stDie k) [] = held ++ ps.map entry) ∧
    (∀ p, vKind i 0xA = 8 → j.p.isHead j.b.epoch = true → es = [some p] →
      let bs := pack (vFi i).width (cs.take n)
      s.plainRun (dest p) bs.length → 4 ≤ bs.length ∨ dest p % 4 + bs.length ≤ 4 → s.windowOk x.partition (dest p) bs.length accWrite = true → s.inFixed (dest p) bs.length = false →
      ∃ t, exec (.scatter k ls) s = .next t ∧ t.mem = Store.writeMasked s.mem (localOf (dest p)) bs (bs.map (fun _ => true)) ∧
        (t.stage k).store = x.store)) ∧
  (∀ (s : State) (k : Nat) (ls : LsRead) (j : Job) (i : List Byte), s.vAt k j i 0x3F → ls ≠ .uncorrectable →
    let w := codeAt (vSource (s.stage k) i 4 (vFi i)) 0 % 2 ^ 32
    ∃ t p, exec (.control k ls) s = .next t ∧ s.stageOnly t k j.pl ∧ t.pipe? j.pl = some p ∧ (t.stage k).store = (s.stage k).store ∧
      (armControl j.p.arm ≠ j.i → p.invs = j.p.invs ∧ p.held = j.p.held) ∧
      (armControl j.p.arm = j.i → j.p.isHead j.b.epoch = true → ∀ v ∈ p.invs, v.seq = j.b.inv → v.control = w ∧ v.controlIn = true) ∧
      (armControl j.p.arm = j.i → j.p.isHead j.b.epoch = false → p.invs = j.p.invs ∧ (j.b.epoch, w) ∈ p.held ∧ ∀ h ∈ p.held, h.1 = j.b.epoch → h.2 = w))

/-- 02: R55 to R57, R59; 03: R90, R95. SLICE_SPLIT gathers the elements of a segment and leaves seven digit planes and the exponent of that line;
SLICE_ACC loads the tile with its first term, and adds one row of INT32 terms, scaled by its two exponents and its digit pair, to it. -/
def Obligations.SliceModeActs : Prop :=
  (∀ (s : State) (k : Nat) (ls : LsRead) (j : Job) (i : List Byte), s.vAt k j i 0x38 → ls ≠ .uncorrectable →
    let x := s.stage k
    let line := Tbl.getD x.v.line x.v.ip [] ++ (vSource x i 4 .fp64).getD []
    let vs := line.map (Fmt.decode .fp64)
    let row := vOperandRow i 2 x.v.seg
    let e := sliceExp vs
    let plane := fun (d : Nat) => vs.map (fun v => BitVec.ofNat 8 (ofSigned 8 ((sliceDigits (sliceInt e v)).getD d 0)))
    let ends := vSegEnd x || (x.v.run0.isNone && !x.v.atEnd)
    let code := vCode j.p.arm (j.p.ent j.i)
    (ends = false → vNext code x (x.v.ip + 1) < code.length → ∃ t, exec (.sliceSplit k ls) s = .next t ∧ s.stageOnly t k j.pl ∧
      Tbl.get? (t.stage k).v.line x.v.ip = some line ∧ (t.stage k).store = x.store ∧ s.runMoved t k j) ∧
    (ends = true → (∀ v ∈ vs, ∃ a b c, v = .fin a b c) →
      (vKind i 2 = 0 → j.p.isHead j.b.epoch = true → 0 < line.length → line.length ≤ 4096 → ∃ t, exec (.sliceSplit k ls) s = .next t ∧
        s.stageOnly t k j.pl ∧ s.runMoved t k j ∧
        (∀ d n, d < 7 → n < line.length → Store.read (t.stage k).store (4096 * ((row + d) % 1024) + n) =
          if vMask x i (n / 4) then (plane d).getD n 0 else Store.read x.store (4096 * ((row + d) % 1024) + n)) ∧
        (vMask x i 0 = true → Store.readN (t.stage k).store (4096 * ((row + 7) % 1024)) 2 = leBytes 2 (ofSigned 16 e))) ∧
      (∀ port, port < 2 → vKind i 2 = 6 + port → canEmit j.p j.i port (7 * recsFor 2048 line.length + 1) = true →
        ∃ t, exec (.sliceSplit k ls) s = .next t ∧ s.stageOnly t k j.pl ∧ (t.stage k).store = x.store ∧
          ∀ q ∈ streamsFrom j.p.arm j.i port, s.sentOn t j.pl q
            (((List.range 7).map plane ++ [leBytes 2 (ofSigned 16 e)]).flatMap (recsOf 2048 j.b.epoch (vSegEnd x)))))) ∧
  (∀ (s : State) (k : Nat) (ls : LsRead) (j : Job) (i : List Byte) (q rt nt row : Nat) (opens : Bool) (pair : Nat × Nat),
    s.vAt k j i 0x39 → ls ≠ .uncorrectable →
    let x := s.stage k
    let e := j.p.ent (strSrc j.p.arm q)
    let ts := (vSource x i 4 .int32).getD []
    let exps := j.p.lsOff j.i j.b (field (j.p.ent j.i) 0x2C 4)
    let top := vOperandRow i 2 x.v.seg
    let r := (top + row) % 1024
    let first := opens && row == 0
    let m := if first then sliceOpen x.store (vMask x i) top (if vKind i 6 = 0 then some (vOperandRow i 6 x.v.seg) else none) else x.store
    let old := lsElems m (4096 * r) 64 0 ts.length
    let sr := (lsElems x.store exps 16 (512 * rt + row) 1).getD 0 0
    let sc := fun (c : Nat) => (lsElems x.store (exps + 2 * mRows e) 16 (512 * nt + c) 1).getD 0 0
    let bs := pack 64 ((List.range ts.length).map (fun c =>
      (sliceTerm (old.getD c 0) (toSigned 32 (ts.getD c 0)) pair.1 pair.2 (toSigned 16 sr) (toSigned 16 (sc c))).1))
    (streamsInto j.p.arm j.i (if vKind i 4 = 2 then 1 else 0)).head? = some q → (sliceTiles e).isEmpty = false → vKind i 2 = 0 →
    slicePlace e (sliceTiles e) x.v.sliceTerm = (rt, nt, opens, pair, row) → sr ≠ sliceBad → (∀ c, c < ts.length → sc c ≠ sliceBad) →
    undoFits x (j.p.isHead j.b.epoch) j.b.epoch (if first then (List.range 512).map (fun q => (top + q) % 1024) else [r]) = true →
    ∃ t, exec (.sliceAcc k ls) s = .next t ∧ s.stageOnly t k j.pl ∧ s.runMoved t k j ∧
      (t.stage k).store = rowWritten m (vMask x i) r 0 (64 * ts.length) bs)

/-! ### Matrix stages -/

/-- 03: R82 to R90, R592; 02: R31, R45 to R50, R53 to R56. One step takes one A row through the B tile: each column's accumulator takes the exact sums of the K
tile; after the last row the next K tile follows, or the finished tile goes to the drain; what the step still lacks of C0, B or A it
takes from its inputs.

03: R89, R592; 02: R41; 05: R156. A drain puts one row of the finished tile, or one column, in FMT_OUT on OUT0 or into the local store. -/
def Obligations.MatrixStagesAct : Prop :=
  (∀ (c : Nat → LsRead → Instr) (opc : Nat), (c, opc) ∈ [(Instr.gemm, 0x10), (.gemmSlice, 0x11)] →
    ∀ (s : State) (k : Nat) (ls : LsRead) (j : Job), s.works k j 0 opc → ls ≠ .uncorrectable →
      let e := j.p.ent j.i
      let x := s.stage k
      let m := x.m
      let rows := mRowsAt e m.rt
      let cols := mColsAt e m.nt
      let tile := if m.started then m.tile
        else if mC0 e = 1 then (List.range rows).foldl (fun acc r => setRow acc r (c0Row j e x.store (512 * m.rt + r) (512 * m.nt) cols)) []
        else []
      m.computed = false → m.full = false →
      (∀ a : Line, m.started = true ∨ mC0 e ≠ 2 → s.bTileIs k j → s.aRowIs k j a →
        let out := fun (q : Nat) => accTile (mFmtA e) (mFmtB e) (Tbl.getD tile (512 * m.row + q) 0) a
          (match m.bCur with
            | some bs => bFromIn e bs cols q (mKAt e m.kt)
            | none => bFromLs j e x.store (if mSlice e then (slicePairs.getD m.pair (0, 0)).2 else 0) (512 * m.nt + q) (mKt e * m.kt)
                (mKAt e m.kt))
        (m.row + 1 < rows → ∃ t, exec (c k ls) s = .next t ∧ s.stageOnly t k j.pl ∧ (t.stage k).store = x.store ∧
          (t.stage k).m.row = m.row + 1 ∧ (t.stage k).m.kt = m.kt ∧
          (∀ q, q < cols → Tbl.getD (t.stage k).m.tile (512 * m.row + q) 0 = (out q).1) ∧
          (∀ q, q / 512 ≠ m.row → Tbl.getD (t.stage k).m.tile q 0 = Tbl.getD tile q 0)) ∧
        (m.row + 1 = rows → mSlice e = false → m.kt + 1 < ceilDiv (mK e) (mKt e) → ∃ t, exec (c k ls) s = .next t ∧ s.stageOnly t k j.pl ∧
          (t.stage k).m.row = 0 ∧ (t.stage k).m.kt = m.kt + 1 ∧
          ∀ q, q < cols → Tbl.getD (t.stage k).m.tile (512 * m.row + q) 0 = (out q).1) ∧
        (m.row + 1 = rows → mSlice e = true ∨ ceilDiv (mK e) (mKt e) ≤ m.kt + 1 → m.drain = none → ∃ t, exec (c k ls) s = .next t ∧
          s.stageOnly t k j.pl ∧ (t.stage k).m.drain = some (m.rt, m.nt, 0) ∧
          (∀ q, q < cols → Tbl.getD (t.stage k).m.drainTile (512 * m.row + q) 0 = (out q).1) ∧
          ∀ q, q / 512 ≠ m.row → Tbl.getD (t.stage k).m.drainTile q 0 = Tbl.getD tile q 0)) ∧
      (∀ f, m.started = false → mC0 e = 2 → dataOf j x 1 = some f → m.c0Row + 1 < rows → ∃ t, exec (c k ls) s = .next t ∧ s.stageOnly t k j.pl ∧
        (t.stage k).m = { m with tile := setRow m.tile m.c0Row ((unpack 32 f.2.2.payload).take cols), c0Row := m.c0Row + 1 }) ∧
      (∀ f, m.started = true → mBFromIn1 e = true → m.bCur = none → dataOf j x 1 = some f →
        (m.bShadow ++ f.2.2.payload).length < bTileBytes e cols (mKAt e m.kt) → ∃ t, exec (c k ls) s = .next t ∧ s.stageOnly t k j.pl ∧
        (t.stage k).m = { m with bShadow := m.bShadow ++ f.2.2.payload })) ∧
  (∀ (s : State) (k : Nat) (j : Job) (opc rt nt line : Nat), s.works k j 0 opc → (s.stage k).m.drain = some (rt, nt, line) →
    let e := j.p.ent j.i
    let x := s.stage k
    let t' := mDrainT e
    let n := if t' then mRowsAt e rt else mColsAt e nt
    let lines := if t' then mColsAt e nt else mRowsAt e rt
    let w := (mFmtOut e).width
    let bs := pack w ((List.range n).map (fun q => (drainCode e (Tbl.getD x.m.drainTile (if t' then 512 * q + line else 512 * line + q) 0)).1))
    let r := 512 * rt + (if t' then 0 else line)
    let c := 512 * nt + (if t' then line else 0)
    (mDrainLs e = true → j.p.isHead j.b.epoch = true → ∃ t, exec (.accumulatorDrain k) s = .next t ∧ s.stageOnly t k j.pl ∧
      (t.stage k).store = Store.writeN x.store
        (j.p.lsOff j.i j.b (field e 0x2C 4) + w / 8 * (if t' then c * mRows e + r else r * mN e + c)) bs ∧
      (line + 1 < lines → (t.stage k).m.drain = some (rt, nt, line + 1))) ∧
    (mDrainLs e = true → j.p.isHead j.b.epoch = false → exec (.accumulatorDrain k) s = .next s) ∧
    (mDrainLs e = false → canEmit j.p j.i 0 1 = true → ∃ t, exec (.accumulatorDrain k) s = .next t ∧ s.stageOnly t k j.pl ∧
      (t.stage k).store = x.store ∧ (line + 1 < lines → (t.stage k).m.drain = some (rt, nt, line + 1)) ∧
      ∀ q ∈ streamsFrom j.p.arm j.i 0, s.sentOn t j.pl q [{ typ := .data, segEnd := mRowSeg e && nt + 1 == ceilDiv (mN e) 512
                                                            epoch := j.b.epoch, payload := bs }]))

/-! ### Gather stages -/

/-- 03: R97 to R104; 04: R121, R122, R126. LOAD asks for the next record of its span; the indexed operations take an index record, then ask for its entries one by one;
PREFETCH sends hints; a response is delivered, emitted, dropped, or taken as a fault. -/
def Obligations.GatherStagesAct : Prop :=
  (∀ (s : State) (k : Nat) (ls : LsRead) (j : Job) (w : Nat), s.works k j 2 0x30 → ls ≠ .uncorrectable →
    let e := j.p.ent j.i
    let g := (s.stage k).g
    let span := field e 0x28 8
    let rl := if field e 0xC 4 = 0 then 2048 else field e 0xC 4
    let n := min rl (span - g.loaded)
    let a := entryAddr 0 (j.p.base j.b (field e 8 1) + field e 0x10 8) (j.b.index * span + g.loaded)
    windowFor j g = some w → g.loadDone = false → slotsOf g w + (blocksOf a n).length ≤ 4096 → 0 < n → a < 2 ^ 56 → a + n ≤ 2 ^ 56 →
    (∀ t ∈ g.items, t.id < g.nextItem ∧ t.asks = []) →
    ∃ t, exec (.load k ls) s = .next t ∧ (t.stage k).store = (s.stage k).store ∧
      (if span ≤ g.loaded + n then j.b.epoch ∈ (t.stage k).g.ended
        else (t.stage k).g.loaded = g.loaded + n ∧ (t.stage k).g.loadDone = false ∧ (t.stage k).g.ended.contains j.b.epoch = false) ∧
      (∃ it ∈ (t.stage k).g.items, it.id = g.nextItem ∧ it.bytes = n ∧ it.epoch = j.b.epoch ∧ it.window = w) ∧
      ∀ blk ∈ blocksOf a n, ∃ r ∈ (t.stage k).g.reqs, r.item = g.nextItem ∧ r.pa = max a (blk * 256) ∧
        r.pn = min (a + n) (blk * 256 + 256) - max a (blk * 256)) ∧
  (∀ (c : Nat → LsRead → Instr) (opc : Nat), (c, opc) ∈ [(Instr.gatherRows, 0x31), (.gatherElem, 0x32), (.atomic, 0x35)] →
    ∀ (s : State) (k : Nat) (ls : LsRead) (j : Job) (w : Nat), s.works k j 2 opc → ls ≠ .uncorrectable →
      let e := j.p.ent j.i
      let g := (s.stage k).g
      let width := if opc = 0x31 then field e 0xC 4 else if opc = 0x32 then field e 0xA 1 else (atomicSize (field e 0xB 1)).getD 4
      windowFor j g = some w → slotsOf g w < 4096 → (∀ t ∈ g.items, t.id < g.nextItem) →
      (∀ (f f1 : Nat × Nat × Rec), (∀ t ∈ g.items, t.epoch = j.b.epoch → t.todo = []) → dataOf j (s.stage k) 0 = some f →
        let es := entriesOf (field e 9 1) (field e 0x18 8) (field e 0x20 8) 512 f.2.2.payload
        es ≠ [] → (opc = 0x35 → dataOf j (s.stage k) 1 = some f1 ∧
          f1.2.2.payload.length = es.length * (atomicLen (field e 0xB 1)).getD 0) →
        ∃ t, exec (c k ls) s = .next t ∧ ∃ it ∈ (t.stage k).g.items, it.id = g.nextItem ∧ it.todo = es ∧ it.bytes = width ∧
          it.segEnd = f.2.2.segEnd ∧ it.epoch = j.b.epoch ∧ (opc = 0x35 → it.operands = f1.2.2.payload)) ∧
      (∀ (it : GItem) (p : Nat) (rest : List (Option Nat)), g.items.find? (fun t => t.epoch == j.b.epoch && !t.todo.isEmpty) = some it →
        it.todo = some p :: rest → rest ≠ [] → it.window = w → (∀ t ∈ g.items, t.asks = []) → (∀ n ∈ it.nulls, n < it.count) →
        let a := entryAddr (field e 9 1) (j.p.base j.b (field e 8 1) + field e 0x10 8) p
        a < 2 ^ 56 → a % 256 + it.bytes ≤ 256 → 0 < it.bytes → (∀ t ∈ g.items, t.id = it.id → t = it) →
        ∃ t, exec (c k ls) s = .next t ∧
          (∃ it' ∈ (t.stage k).g.items, it'.id = it.id ∧ it'.todo = rest ∧ it'.count = it.count + 1) ∧
          ∃ r ∈ (t.stage k).g.reqs, r.item = it.id ∧ r.ent = it.count ∧ r.pa = a ∧ r.pn = it.bytes ∧
            r.op = (if opc = 0x35 then some (field e 0xB 1) else none))) ∧
  (∀ (s : State) (k : Nat) (ls : LsRead) (j : Job) (w : Nat), s.works k j 2 0x33 → ls ≠ .uncorrectable →
    let e := j.p.ent j.i
    let g := (s.stage k).g
    windowFor j g = some w →
    (∀ f : Nat × Nat × Rec, slotsOf g w < 4096 → g.items = [] → dataOf j (s.stage k) 0 = some f →
      let rows := entriesOf 2 1 (field e 0x20 8) 512 f.2.2.payload
      rows ≠ [] → ∃ t, exec (.csrWalk k ls) s = .next t ∧ ∃ it ∈ (t.stage k).g.items, it.id = g.nextItem ∧ it.phase = 5 ∧ it.todo = rows) ∧
    (∀ (it : GItem) (row : Nat) (rest : List (Option Nat)), g.items = [it] → it.phase = 5 → it.todo = some row :: rest → it.epoch = j.b.epoch →
      it.id < g.nextItem → it.window = w → it.asks = [] → g.rowPtrs = [] →
      let a := entryAddr 0 (j.p.base j.b (field e 8 1)) (field e 0x10 8 + csrPtr e * row)
      a < 2 ^ 56 → a + 2 * csrPtr e ≤ 2 ^ 56 → slotsOf g w + (blocksOf a (2 * csrPtr e)).length ≤ 4096 →
      ∃ t, exec (.csrWalk k ls) s = .next t ∧ (∃ r ∈ (t.stage k).g.items, r.id = g.nextItem ∧ r.phase = 0 ∧ r.segEnd = true) ∧
        ∀ blk ∈ blocksOf a (2 * csrPtr e), ∃ r ∈ (t.stage k).g.reqs, r.item = g.nextItem ∧ r.pa = max a (blk * 256))) ∧
  (∀ (s : State) (k : Nat) (ls : LsRead) (j : Job) (w p : Nat) (f : Nat × Nat × Rec), s.works k j 2 0x34 → ls ≠ .uncorrectable →
    let e := j.p.ent j.i
    let g := (s.stage k).g
    let a := entryAddr (field e 9 1) (j.p.base j.b (field e 8 1) + field e 0x10 8) p
    windowFor j g = some w → slotsOf g w < 4096 → g.items = [] → dataOf j (s.stage k) 0 = some f →
    entriesOf (field e 9 1) (field e 0x18 8) (field e 0x20 8) 512 f.2.2.payload = [some p] → a < 2 ^ 56 → a + field e 0xC 4 ≤ 2 ^ 56 →
    ∃ t, exec (.prefetch k ls) s = .next t ∧ (t.stage k).g.items = [] ∧ t.mem = s.mem ∧
      Tbl.getD (t.stage k).counters 8 0 =
        (blocksOf a (field e 0xC 4)).foldl (fun n _ => satAdd 64 n 1) (Tbl.getD (s.stage k).counters 8 0)) ∧
  (∀ (s : State) (k tag st : Nat) (bs : List Byte) (q : HubPkt) (key : Nat) (r : GReq), s.hubQ = [(key, [q])] → s.crosses (queuePlace key) q = true → q.typ = 6 → q.dst = stId k → q.tag = tag →
    q.specific = st → q.payload = bs → (s.stage k).g.reqs = [r] → r.tag = tag → r.issued = true → r.leader = none → r.status = none →
    (r.discard = true → (∀ p, s.pipe? (((s.stage k).bind.map (·.1)).getD 256) = some p → p.posts = []) → ∃ t, exec (.gatherResponse k tag st bs) s = .next t ∧ t.hubQ = [] ∧ (t.stage k).g.reqs = [] ∧
      (t.stage k).g.items = (s.stage k).g.items ∧
      Tbl.getD (t.stage k).counters 10 0 = satAdd 64 (Tbl.getD (s.stage k).counters 10 0) 1) ∧
    (∀ (pl i : Nat) (p : Pipe), r.discard = false → r.op = none → st ≠ 0 → (s.stage k).bind = some (pl, i) → s.pipe? pl = some p → p.isHead r.epoch = true →
      (s.stage k).cause = 0 → ∃ t, exec (.gatherResponse k tag st bs) s = .next t ∧ (t.stage k).st = .fault ∧ (t.stage k).cause = 2) ∧
    (∀ (j : Job) (it : GItem), r.discard = false → r.op = none → st = 0 → s.job k = some j → stTypeOf (j.p.ent j.i) = 2 →
      stOpcode (j.p.ent j.i) ≠ 0x33 → gArrival (j.p.ent j.i) = false → (s.stage k).g.items = [it] → it.epoch = j.b.epoch → it.todo = [] →
      it.count = 1 → it.nulls = [] → it.asks = [] → it.gone = 0 → r.item = it.id → r.ent = 0 → j.clear (s.stage k) = true →
      let out := slice bs (r.pa - r.addr) r.pn
      out.length = it.bytes → it.bytes ≤ 2048 → canEmit j.p j.i 0 1 = true →
      ∃ t, exec (.gatherResponse k tag st bs) s = .next t ∧ t.hubQ = [] ∧ (t.stage k).g.items = [] ∧ s.sentAll t j 0 it.segEnd out))

/-! ### Special-function stages -/

/-- 02: R61; 03: R106, R107; 04: R122. A function stage sends its function of every element of the record, in the output format; of a finite argument the
result is within the error bound of its function, or the correctly rounded value itself.

02: R62, R63; 03: R108 to R110. SOFTMAX_ASSIST closes a block with its values, its correction and its running sum; TOPK and TOPK_MERGE send exactly K entries,
best first, empty places NaN with an identifier of all ones. -/
def Obligations.SpecialStagesAct : Prop :=
  ((∀ (c : Nat → LsRead → Instr) (op : Nat), (c, op) ∈
      [(Instr.exp, 0x40), (.sigmoid, 0x41), (.tanh, 0x42), (.recip, 0x43), (.rsqrt, 0x44), (.log, 0x45), (.erf, 0x46)] →
    ∀ (s : State) (k : Nat) (ls : LsRead) (j : Job) (f : Nat × Nat × Rec), s.sAt k j op f → ls ≠ .uncorrectable →
      let e := j.p.ent j.i
      let xs := sInputs e f.2.2.payload
      let ys := (List.range xs.length).map (fun n => special op (Config.freeNat s.free n) (Fmt.decode .fp32 (xs.getD n (0, Flags.none)).1))
      let o := sOut e (ys.map (·.1))
      j.roomFor 0 o.1 → ∃ t, exec (c k ls) s = .next t ∧ s.stageOnly t k j.pl ∧ (t.stage k).store = (s.stage k).store ∧
        (t.stage k).outbox = [] ∧ s.sentAll t j 0 f.2.2.segEnd o.1 ∧
        (j.p.isHead j.b.epoch = true → (t.stage k).flags = (s.stage k).flags.or (((flagsOf xs).or (flagsOf ys)).or o.2))) ∧
  (∀ (op free m : Nat) (neg : Bool) (e : Int),
    (special op free (.fin neg m e)).1 = (roundResult .fp32 false (refFp op (.fin neg m e))).1 ∨
      withinUlp (maxUlp op) (roundResult .fp32 false (refFp op (.fin neg m e))).1 (special op free (.fin neg m e)).1 = true)) ∧
  ((∀ (s : State) (k : Nat) (ls : LsRead) (j : Job) (f : Nat × Nat × Rec), s.sAt k j 0x48 f → ls ≠ .uncorrectable → f.2.2.segEnd = false →
    let e := j.p.ent j.i
    let q := (s.stage k).s
    let vs := q.block.map (·.1) ++ (sInputs e f.2.2.payload).map (·.1)
    let seg := q.blockIdx % sNSeg e
    let free := Config.freeNat s.free q.blockIdx
    let q0 := Tbl.getD q.segs seg {}
    let q1 := (softFold free 0 vs (q0, Flags.none)).1
    let ys := (List.range vs.length).map (fun n => (expDiff (Config.freeNat free (3 * n + 1)) (vs.getD n 0) q1.m).1)
    let corr := if q0.m = q1.m then fpOne else (expDiff (Config.freeNat free 2) q0.m q1.m).1
    (vs.length < sLb e → ∃ t, exec (.softmaxAssist k ls) s = .next t ∧ s.stageOnly t k j.pl ∧ (t.stage k).s.block.map (·.1) = vs) ∧
    (vs.length = sLb e → q.block.length < sLb e → j.roomFor 0 (sOut e ys).1 → j.roomFor 1 (leBytes 4 corr ++ leBytes 4 q1.s) →
      ∃ t, exec (.softmaxAssist k ls) s = .next t ∧ s.stageOnly t k j.pl ∧ (t.stage k).s.block = [] ∧
        Tbl.get? (t.stage k).s.segs seg = some q1 ∧ s.sentAll t j 0 false (sOut e ys).1 ∧
        s.sentAll t j 1 false (leBytes 4 corr ++ leBytes 4 q1.s))) ∧
  (∀ (s : State) (k : Nat) (ls : LsRead) (j : Job) (f : Nat × Nat × Rec), s.sAt k j 0x49 f → ls ≠ .uncorrectable → f.2.2.segEnd = true →
    let e := j.p.ent j.i
    let vs := (sInputs e f.2.2.payload).map (·.1)
    let q0 := Tbl.getD (s.stage k).s.segs ((s.stage k).s.blockIdx % sNSeg e) {}
    let best := (vs.foldl (fun (q : SSeg) v =>
      { q with pos := q.pos + 1, best := (rankIn false (v, (sIdBase e + q.pos % 2 ^ 32) % 2 ^ 64) q.best).take (sK e) }) q0).best
    let es := (best ++ List.replicate (sK e - best.length) (FloatFmt.nanCode ⟨8, 23, 127, .ieee⟩, 2 ^ 64 - 1)).take (sK e)
    sIdIn1 e = false → (s.stage k).s.block = [] → vs ≠ [] → vs.length ≤ sLb e → j.roomFor 0 (sOut e (es.map (·.1))).1 →
    j.roomFor 1 (pack 64 (es.map (·.2))) → ∃ t, exec (.topk k ls) s = .next t ∧ s.stageOnly t k j.pl ∧ es.length = sK e ∧
      (t.stage k).outbox = [] ∧ s.sentAll t j 0 true (sOut e (es.map (·.1))).1 ∧ s.sentAll t j 1 true (pack 64 (es.map (·.2)))) ∧
  (∀ (s : State) (k : Nat) (ls : LsRead) (j : Job) (f : Nat × Nat × Rec), s.sAt k j 0x4A f → ls ≠ .uncorrectable → f.2.2.segEnd = true →
    let e := j.p.ent j.i
    let q := (s.stage k).s
    let xs := (unpack (sFmtIn e).width f.2.2.payload).map (fun c => (toFp32 ((sFmtIn e).decode c)).1)
    let cur := Tbl.getD q.cur f.1 [] ++ xs.zip q.ids
    let g := mergeGroup e (producers j.p.arm j.i 0).length (Tbl.getD q.listNo f.1 0)
    let had := Tbl.getD q.lists g (0, [])
    let best := (cur.foldl (fun acc v => rankIn true v acc) had.2).take (sK e)
    let es := (best ++ List.replicate (sK e - best.length) (FloatFmt.nanCode ⟨8, 23, 127, .ieee⟩, 2 ^ 64 - 1)).take (sK e)
    xs.length ≤ q.ids.length →
    (had.1 + 1 < sNList e → ∃ t, exec (.topkMerge k ls) s = .next t ∧ s.stageOnly t k j.pl ∧
      Tbl.get? (t.stage k).s.lists g = some (had.1 + 1, best)) ∧
    (sNList e ≤ had.1 + 1 → j.roomFor 0 (sOut e (es.map (·.1))).1 → j.roomFor 1 (pack 64 (es.map (·.2))) →
      ∃ t, exec (.topkMerge k ls) s = .next t ∧ s.stageOnly t k j.pl ∧ s.sentAll t j 0 true (sOut e (es.map (·.1))).1 ∧
        s.sentAll t j 1 true (pack 64 (es.map (·.2))))))

/-! ### Care of stages -/

/-- 03: R72, R74; 16: R479. What the walker and the stage test find: corrected words are counted, an uncorrectable one in a FREE stage is written back as
zero and in a bound stage is a fault; a zeroed stage is FREE with an empty store and under test; a stage that fails its test is FENCED. -/
def Obligations.StagesAreCaredFor : Prop :=
  (∀ (s : State) (k w : Nat), let x := s.stage k
    exec (.scrubWalkerVisit k w .clean) s = .next s ∧
    (∃ t, exec (.scrubWalkerVisit k w .corrected) s = .next t ∧ (t.stage k).lsCe = true ∧ (t.stage k).store = x.store ∧
      Tbl.getD (t.stage k).counters 14 0 = satAdd 32 (Tbl.getD x.counters 14 0) 1 ∧ ∀ j, j ≠ k → t.stage j = s.stage j) ∧
    (x.st = .free → ∃ t, exec (.scrubWalkerVisit k w .uncorrectable) s = .next t ∧
      t.stage k = { x with store := Store.writeN x.store (8 * w) (List.replicate 8 0) } ∧ (∀ j, j ≠ k → t.stage j = s.stage j) ∧
      t = { s with stages := t.stages, log := t.log }) ∧
    (x.st = .running ∨ x.st = .bound → x.bind.isSome = true → x.cause = 0 → ∃ t, exec (.scrubWalkerVisit k w .uncorrectable) s = .next t ∧
      (t.stage k).st = .fault ∧ (t.stage k).cause = 1)) ∧
  (∀ (s : State) (k : Nat), let x := s.stage k
    x.st = .zeroing →
    (x.bind = none → ∃ t, exec (.stageZeroingDone k) s = .next t ∧ t = { s with stages := t.stages } ∧ (t.stage k).st = .free ∧
      (t.stage k).store = {} ∧ (t.stage k).partition = 0 ∧ (t.stage k).busyTest = true ∧ ∀ j, j ≠ k → t.stage j = s.stage j) ∧
    (∀ (pl i : Nat) (p : Pipe) (w : Waiter), x.bind = some (pl, i) → s.pipe? pl = some p → p.st = .releasing → p.posts = [] → p.releaseWait = some w →
      (s.mbox w.1).running = some w.2 → (∀ q ∈ p.stgs, q ≠ k → ((s.stage q).bind.map (·.1)) ≠ some pl) →
      ∃ t, exec (.stageZeroingDone k) s = .next t ∧ (t.stage k).st = .free ∧ (t.stage k).bind = none ∧ (t.stage k).store = {} ∧
        t.pipe? pl = none ∧ t.answered w.1 0x0024 0 w.2 []) ∧
    (∀ (pl i : Nat) (p : Pipe), x.bind = some (pl, i) → s.pipe? pl = some p → p.st ≠ .releasing →
      ∃ t, exec (.stageZeroingDone k) s = .next t ∧ (t.stage k).st = .bound ∧ (t.stage k).bind = x.bind ∧ (t.stage k).store = {})) ∧
  (∀ (s : State) (k : Nat), let x := s.stage k
    (x.st = .free → ∃ t, exec (.stageTestIntervalExpiry k) s = .next t ∧ t = { s with stages := t.stages } ∧
      t.stage k = { x with busyTest := true } ∧ ∀ j, j ≠ k → t.stage j = s.stage j) ∧
    (x.busyTest = true → x.bind = none →
      (∃ t, exec (.stageTestDone k true) s = .next t ∧ t = { s with stages := t.stages } ∧
        t.stage k = { x with busyTest := false, lastPass := s.now (stDie k) } ∧ ∀ j, j ≠ k → t.stage j = s.stage j) ∧
      (∃ t, exec (.stageTestDone k false) s = .next t ∧ t = { s with stages := t.stages, log := t.log } ∧
        t.stage k = { x with busyTest := false, st := .fenced } ∧ (∀ j, j ≠ k → t.stage j = s.stage j) ∧
        t.log = s.log.take 0x0112 0xFF 2 (stId k) (s.now (stId k / 128)) (stageName k ++ leBytes 8 x.lastPass))))

/-! ### Running pipelines -/

/-- 04: R126 to R129, R135, R138, R139; 05: R146, R150, R151, R161, R165, R168. Tokens refill, a batch enters under the next epoch where everything it needs is there, records
are fed, channels are granted in order, and loads put their bytes into their stage's store. -/
def Obligations.AdmissionFeedsAndLoadsAct : Prop :=
  (∀ (s : State) (pl i : Nat) (p : Pipe), s.pipe? pl = some p → i < armNSource p.arm →
    let level := match s.tokenRate p i with
      | none => srcBurst p.arm i * 65536
      | some e => min (srcBurst p.arm i * 65536) ((p.src i).level + e)
    (∃ t p', exec (.tokenBucketRefill pl i) s = .next t ∧ t.pipe? pl = some p' ∧ (p'.src i).level + (p'.src i).spent * 65536 = level) ∧
    ((s.stage (p.stg (srcStage p.arm i))).outbox = [] →
      ∃ t p', exec (.tokenBucketRefill pl i) s = .next t ∧ t = { s with pipes := t.pipes } ∧ t.pipe? pl = some p' ∧
        (p'.src i).level = level ∧ (p'.src i).spent = 0 ∧ p' = { p with sources := p'.sources } ∧ (∀ k, k ≠ i → p'.src k = p.src k) ∧
        ∀ q, q ≠ pl → t.pipe? q = s.pipe? q)) ∧
  (∀ (s : State) (pl : Nat) (p : Pipe) (v : Inv) (rep idx : Nat), s.pipe? pl = some p → p.nextBatch = some (v, rep, idx) → p.st = .running →
    s.fab.twin ≠ .standby → p.drainStop = false → p.gateStop = false → p.gap = .none → p.readmit = [] → p.endedAhead = false → p.batches.length ≤ p.runAhead →
    (v.admitted ≠ 0 → p.tokensOk = true) → (∀ i, i < armNSource p.arm → 1 ≤ srcBurst p.arm i) → s.afterOk p v = true →
    p.loadsFor v rep idx = true → s.heldError p p.epochNext = none →
    ∃ t p', exec (.batchAdmission pl) s = .next t ∧ t.pipe? pl = some p' ∧ p'.epochNext = addMod 16 p.epochNext 1 ∧
      p'.batches.map (fun b => b.epoch) = p.batches.map (fun b => b.epoch) ++ [p.epochNext] ∧
      (∃ b ∈ p'.batches, b.epoch = p.epochNext ∧ b.inv = v.seq ∧ b.index = idx ∧ b.rep = rep) ∧
      (∃ v' ∈ p'.invs, v'.seq = v.seq ∧ v'.admitted = v.admitted + 1) ∧
      (p.batches = [] → ∀ k ∈ p.stgs, (t.stage k).headEpoch = some p.epochNext)) ∧
  (∀ (s : State) (pl q rep idx : Nat) (p : Pipe) (v : Inv) (rest : List (Nat × Nat × Nat)), s.pipe? pl = some p → p.readmit = (q, rep, idx) :: rest →
    p.inv? q = some v → v.ending = none → p.st = .running → p.drainStop = false → p.gateStop = false → p.gap = .none → p.batches = [] → p.tokensOk = true →
    s.heldError p p.epochNext = none →
    ∃ t p', exec (.batchReadmission pl) s = .next t ∧ t.pipe? pl = some p' ∧ p'.readmit = [] ∧ p'.epochNext = addMod 16 p.epochNext 1 ∧
      (∃ b, p'.batches = [b] ∧ b.epoch = p.epochNext ∧ b.inv = v.seq ∧ b.index = idx ∧ b.rep = rep) ∧
      ∀ k ∈ p.stgs, (t.stage k).headEpoch = some p.epochNext) ∧
  (∀ (s : State) (pl i st : Nat) (bs : List Byte) (p : Pipe) (b : Batch), s.pipe? pl = some p → p.st = .running ∨ p.st = .draining →
    i < armNSource p.arm → srcFeed p.arm i = true → p.batches.find? (fun b => !(p.src i).done.contains b.epoch) = some b →
    (∃ g ∈ Tbl.getD s.grants (p.plinth (srcStage p.arm i)) [], g.pipe = pl ∧ g.feed = true ∧ g.item = (i, b.inv)) →
    65536 ≤ (p.src i).level → (p.str (256 + i)).fifo.length < 64 → regRunAhead p.arm (srcRegion p.arm i) = true ∨ p.isHead b.epoch = true →
    let n := Nat.min (srcRecBytes p.arm i) (srcBatchBytes p.arm i - (p.src i).fed * srcRecBytes p.arm i)
    let a := p.base b (srcRegion p.arm i) + srcOffset p.arm i + b.index * srcBatchBytes p.arm i + (p.src i).fed * srcRecBytes p.arm i
    (p.src i).fed + 1 < srcBatchRecs p.arm i → s.plainRun a n → s.windowOk p.partition a n accRead = true →
    let r : Rec := { typ := .data, segEnd := srcSegRecs p.arm i != 0 && ((p.src i).fed + 1) % srcSegRecs p.arm i == 0, epoch := b.epoch
                     payload := Store.readN s.mem (localOf a) n, stamp := p.clock }
    ∃ t p', exec (.feedRecord pl i st bs) s = .next t ∧ t.pipe? pl = some p' ∧ (p'.str (256 + i)).fifo <:+ (p.str (256 + i)).fifo ++ [r] ∧
      r ∈ (p'.str (256 + i)).fifo ∧ (p'.src i).fed = (p.src i).fed + 1 ∧ (p'.src i).level = (p.src i).level - 65536 ∧ t.mem = s.mem) ∧
  (∀ (s : State) (pd : Nat) (feed : Bool) (r : ChanReq) (rest : List ChanReq), Tbl.getD s.chanQueue (2 * pd + b2n (!feed)) [] = r :: rest →
    let free := s.freeChans pd
    let chans := if feed then (free.filter (fun c => c < 60)).take r.items.length else free.reverse.take 1
    r.items.length ≤ chans.length →
    ∃ t, exec (.channelGrant pd feed) s = .next t ∧ rest <+: Tbl.getD t.chanQueue (2 * pd + b2n (!feed)) [] ∧
      Tbl.getD t.grants pd [] = Tbl.getD s.grants pd [] ++
        (chans.zip r.items).map (fun x => { chan := x.1, pipe := r.pipe, feed := feed, item := x.2 }) ∧
      ∀ c ∈ chans, (t.chan (64 * pd + c)).owner = ((s.pipe? r.pipe).map (fun p => p.partition)).getD 0) ∧
  (∀ (s : State) (pl ch st : Nat) (bs : List Byte) (p : Pipe) (g : ChanGrant), s.pipe? pl = some p → s.grantOn ch = some g → g.pipe = pl →
    g.feed = false → ch < 256 →
    let l := g.item.1
    let b := p.loadBatch g.item
    let unit := Pipe.loadUnit p.arm l b
    let k := p.stg (ldStage p.arm l)
    let a := p.base b (ldRegion p.arm l) + ldOffset p.arm l + unit * ldStride p.arm l
    let off := ldLs p.arm l + (if ldPing p.arm l = true ∧ Pipe.loadHalf p.arm l b = 1 then ldLen p.arm l else 0)
    s.windowOk p.partition a (ldLen p.arm l) accRead = true →
    (s.plainRun a (ldLen p.arm l) → p.overUsed g.item off (ldLen p.arm l) = [] → ∃ t p', exec (.loadComplete pl ch st bs) s = .next t ∧ t.pipe? pl = some p' ∧ g.item ∈ p'.loadsDone ∧
      (t.stage k).store = Store.writeN (s.stage k).store off (Store.readN s.mem (localOf a) (ldLen p.arm l)) ∧
      (∀ h ∈ Tbl.getD t.grants (ch / 64) [], h.pipe = pl → h.chan ≠ ch % 64) ∧ t.mem = s.mem) ∧
    (s.isLocal a = false → 0 < ldLen p.arm l → st ≠ 0 → ldWhen p.arm l ≠ 2 → (s.stage k).cause = 0 →
      ∃ t, exec (.loadComplete pl ch st bs) s = .next t ∧ (t.stage k).st = .fault ∧ (t.stage k).cause = 2))

/-! ### Batches, invocations and gaps -/

/-- 04: R136, R137; 05: R148, R161, R163 to R166. A finished head commits and the next batch becomes head: its flags merge, its held stores go out and its held
control word acts. A squash takes the batches of its cause out, restores what they overwrote, and counts once; a repetition ends by its control word or its limit, and an
invocation by its completion record. -/
def Obligations.BatchesCommitSquashAndEnd : Prop :=
  (∀ (s : State) (pl : Nat) (p : Pipe) (b : Batch) (v : Inv), s.pipe? pl = some p → p.batches = [b] → p.batchDone b = true → armRepeat p.arm = false →
    p.inv? b.inv = some v → v.ending = none → b.rep = v.reps →
    ∃ t p' v', exec (.epochCommit pl) s = .next t ∧ t.pipe? pl = some p' ∧ p'.batches = [] ∧ p'.inv? b.inv = some v' ∧ v'.done = v.done + 1 ∧
      v'.reps = (if v.done + 1 = v.nb then 1 else v.reps) ∧ t.mem = s.mem) ∧
  (∀ (s : State) (pl : Nat) (p : Pipe) (b c : Batch) (rest : List Batch) (v : Inv), s.pipe? pl = some p → p.batches = b :: c :: rest →
    p.batchDone b = true → armRepeat p.arm = false → p.inv? b.inv = some v → v.ending = none → b.rep = v.reps →
    s.gIssued p c.epoch → s.heldError p c.epoch = none →
    p.drainStop = false → p.gateStop = false →
    ∃ t, exec (.epochCommit pl) s = .next t ∧
      ((∀ k ∈ p.stgs, s.heldOf pl k c.epoch = []) → t.mem = s.mem ∧
        ∃ p' v', t.pipe? pl = some p' ∧ p'.batches = c :: rest ∧ p'.inv? b.inv = some v' ∧ v'.done = v.done + 1 ∧
          Tbl.getD p'.counters 0 0 = satAdd 64 (Tbl.getD p.counters 0 0) 1) ∧
      (∀ k ∈ p.stgs, (t.stage k).headEpoch = some c.epoch ∧ (t.stage k).store = (s.stage k).store ∧
        (t.stage k).flags = (s.stage k).flags.or (Tbl.getD (s.stage k).pendFlags c.epoch Flags.none)) ∧
      (∀ w, (p.held.find? (fun h => h.1 = c.epoch)) = some (c.epoch, w) → ∃ p', t.pipe? pl = some p' ∧
        ∀ v' ∈ p'.invs, v'.seq = c.inv → v'.control = w ∧ v'.controlIn = true) ∧
      ∀ k h, p.stgs = [k] → s.heldOf pl k c.epoch = [h] → s.plainRun h.addr h.data.length → 4 ≤ h.data.length →
        s.windowOk (s.stage k).partition h.addr h.data.length accWrite = true → s.inFixed h.addr h.data.length = false →
        t.mem = Store.writeMasked s.mem (localOf h.addr) h.data (h.data.map (fun _ => true)) ∧ t.heldOf pl k c.epoch = []) ∧
  (∀ (s : State) (pl : Nat) (cause : SquashCause) (p : Pipe) (b c : Batch) (young : List Batch), s.pipe? pl = some p → p.batches = b :: c :: young →
    (p.batches.map (fun x => x.epoch)).Nodup →
    (match cause with
      | .invocationEnd => p.endedAhead = true
      | .stopDrain => p.drainStop = true
      | .error e => e = c.epoch ∧ (s.heldError p e).isSome = true
      | .powerGate => p.gateStop = true) →
    let again := match cause with
      | .invocationEnd | .stopDrain => false
      | .error _ => !p.endedAhead
      | .powerGate => true
    let n := match cause with
      | .invocationEnd => 1
      | .stopDrain => 2
      | .error _ => if p.endedAhead then 1 else 3
      | .powerGate => 4
    let gone := c.epoch :: young.map (fun x => x.epoch)
    ∃ t p', exec (.epochSquash pl cause) s = .next t ∧ t.pipe? pl = some p' ∧ p'.batches = [b] ∧
      p'.readmit = (if again then [(c.inv, c.rep, c.index)]
        else p.readmit.filter (fun r => !((c :: young).any (fun x => x.inv == r.1) || p.drainStop))) ∧ p'.epochNext = p.epochNext ∧
      Tbl.getD p'.counters n 0 = satAdd 32 (Tbl.getD p.counters n 0) 1 ∧
      (∀ h ∈ p'.held, h.1 ∉ gone) ∧ (∀ h ∈ p'.errs, h.1 ∉ gone) ∧ t.mem = s.mem ∧
      ∀ k ∈ p.stgs, (∀ e ∈ gone, t.heldOf pl k e = [] ∧ Tbl.get? (t.stage k).pendFlags e = none) ∧
        (t.stage k).flags = (s.stage k).flags ∧
        (t.stage k).store = restoreUndo ((s.stage k).v.undo.filter (fun u => gone.contains u.epoch)) (s.stage k).store) ∧
  (∀ (s : State) (pl : Nat) (p : Pipe) (b : Batch) (v : Inv), s.pipe? pl = some p → p.batches.head? = some b → p.inv? b.inv = some v →
    armRepeat p.arm = true → p.batchDone b = true → b.index + 1 = v.nb → v.controlIn = true → v.ending = none → b.rep = v.reps →
    ∃ t p' v', exec (.repetitionEnd pl) s = .next t ∧ t = { s with pipes := t.pipes } ∧ t.pipe? pl = some p' ∧ p' = { p with invs := p'.invs, readmit := p'.readmit } ∧
      p'.inv? b.inv = some v' ∧ v'.reps = v.reps + 1 ∧
      (v.control ≠ 0 → v'.ending = some 0 ∧ v'.endFlags = 1) ∧
      (v.control = 0 → v.reps + 1 = v.repeatMax → v'.ending = some 0 ∧ v'.endFlags = 2) ∧
      (v.control = 0 → v.reps + 1 ≠ v.repeatMax → v'.ending = none ∧ v'.done = 0 ∧ v'.controlIn = false)) ∧
  (∀ (s : State) (pl : Nat) (p : Pipe) (v : Inv) (rest : List Inv), s.pipe? pl = some p → p.invs = v :: rest → p.st = .running ∨ p.st = .draining →
    p.gateStop = false → p.stopWait = [] → (∀ b ∈ p.batches, b.inv ≠ v.seq) →
    let ok := v.ending.isSome || (!armRepeat p.arm && v.done == v.nb)
    ok = true ∨ p.drainStop = true →
    ∃ t p', exec (.invocationComplete pl) s = .next t ∧ t.pipe? pl = some p' ∧ p'.invs = rest ∧ p'.st = (if rest = [] then .idle else p.st) ∧
      t.completed (8 * p.partition + v.mailbox) 0x0001 p.home
        (completionRecord pl p v (if ok ∧ v.stopped = false then 0 else if v.done = 0 ∧ v.reps = 0 then 7 else 1) (faultOf none 0)) ∧ t.mem = s.mem)

/-- 04: R141, R143; 09: R296. The gap opens once its mark has passed every stage and no batch is left, with a notice for every beacon; it closes when the hold ends, or when
every beacon that is up has released it, which none does while a sight started under its notice runs. A drain that runs out with work left in the domain ends its invocations ABORTED_POWER. -/
def Obligations.GapsOpenAndCloseAndDrainsRunOut : Prop :=
  (∀ (s : State) (pl : Nat) (p : Pipe), s.pipe? pl = some p → p.gap = .marked → p.batches = [] → (∀ i ∈ p.idxs, i ∈ p.gapPassed) →
    ∃ t p', exec (.gapOpen pl) s = .next t ∧ t = { s with pipes := t.pipes, hubQ := t.hubQ } ∧ t.pipe? pl = some p' ∧ p'.gap = .opened ∧
      (∀ q, q ≠ pl → t.pipe? q = s.pipe? q) ∧
      t.hubQ = ((List.range 8).foldl (fun (acc : State) b => acc.toUnit
        { typ := 9, tc := 0, partition := p.partition, src := p.home, dst := unitId (16 + b) 0, specific := 0x20
          payload := leBytes 1 pl ++ leBytes 2 (armGapHold p.arm) }) s).hubQ) ∧
  (∀ (s : State) (pl : Nat) (p : Pipe), s.pipe? pl = some p → p.gap = .opened →
    ∃ t p', exec (.gapHoldExpiry pl) s = .next t ∧ t = { s with pipes := t.pipes, beacons := t.beacons } ∧ t.pipe? pl = some p' ∧ p'.gap = .none ∧
      (∀ q, q ≠ pl → t.pipe? q = s.pipe? q) ∧ ∀ b, b < 8 → ∀ n ∈ (t.beacon b).notices, n.1 ≠ pl) ∧
  (∀ (s : State) (pl beacon : Nat) (p : Pipe), s.pipe? pl = some p → (∃ x ∈ (s.beacon beacon).gapSights, x.2 = pl) →
    exec (.gapRelease pl beacon) s = .next s) ∧
  (∀ (s : State) (pl beacon : Nat) (p : Pipe), s.pipe? pl = some p → p.gap = .opened → (∀ x ∈ (s.beacon beacon).gapSights, x.2 ≠ pl) →
    ∃ t p', exec (.gapRelease pl beacon) s = .next t ∧ t = { s with pipes := t.pipes, beacons := t.beacons } ∧ t.pipe? pl = some p' ∧
      (∀ q, q ≠ pl → t.pipe? q = s.pipe? q) ∧ (∀ n ∈ (t.beacon beacon).notices, n.1 ≠ pl) ∧
      p'.gap = (if (List.range 8).all (fun b => (beacon :: p.gapReleased).contains b || (s.die (16 + b)).life != .up) then .none else .opened)) ∧
  (∀ (s : State) (pl : Nat) (p : Pipe), s.pipe? pl = some p → p.gateStop = true → s.gateBusy p = true → p.st = .running ∨ p.st = .draining → p.stopWait = [] →
    ∃ t p', exec (.drainTimeoutExpiry pl) s = .next t ∧ t.pipe? pl = some p' ∧ p'.st = .suspended ∧ p'.batches = [] ∧ p'.invs = [] ∧
      p'.gateStop = false ∧ p'.powerIdle = true ∧
      (s.openWrites p = [] → ∀ v ∈ p.invs, t.completed (8 * p.partition + v.mailbox) 0x0001 p.home
        (completionRecord pl p v (if v.admitted = 0 then 7 else 6) (faultOf none 0))) ∧
      (s.openWrites p ≠ [] → ∀ v ∈ p.invs, v.admitted ≠ 0 → ∃ x ∈ p'.posts, x.inv = v ∧ x.status = 6 ∧ x.waits = s.openWrites p))

/-! ### HBM -/

/-- 06: R176, R177, R179 to R185, R188, R199; 08: R257, R259. A controller answers a read with what the outer code delivers, corrects and rewrites a block, and poisons
one that is uncorrectable in both attempts; a store is merged into the block as read, an atomic performed on it and its block held by the atomic unit, from
which its requests are then served; scrubbing steps through a pseudo-channel. A request to a block that is kept busy waits, a scrub of it comes later. -/
def Obligations.BlocksAreReadStoredAndScrubbed : Prop :=
  (∀ (s : State) (r : HbmAccess) (e1 e2 : ErrPattern) (len : Nat), (s.die (12 + homePlinth r.addr)).life = .up → s.busyAt r.addr r.bank = false →
    s.unitHolds r.addr = false →
    let k := (s.place r.addr).1
    let base := r.addr / 256 * 256
    let answer := completionPkt (stackUnit k) r.partition (hubUnit (homePlinth r.addr)) 0
    let part := fun (bs : List Byte) => slice bs (r.addr % 256) len
    let c := fun (u : State) (i : Nat) => Tbl.getD (u.stack k).counters i 0
    (s.verdict r.addr e1 = .clean →
      ∃ t, exec (.hbmRead r e1 e2 len) s = .next t ∧ t.mem = s.mem ∧ t.poison = s.poison ∧ s.handed t (answer 0 (part (s.delivered r.addr e1))) ∧
        c t 0 = satAdd 64 (c s 0) len ∧ c t 4 = (if r.inner.1 then satAdd 32 (c s 4) 1 else c s 4) ∧ (t.stack k).power = .active) ∧
    (∀ q, s.verdict r.addr e1 = .corrected q →
      ∃ t, exec (.hbmRead r e1 e2 len) s = .next t ∧ t.mem = Store.writeN s.mem base (s.delivered r.addr e1) ∧ t.isPoison r.addr = false ∧
        s.handed t (answer 0 (part (s.delivered r.addr e1))) ∧ (t.stack k).ceSeen = true ∧ c t 5 = satAdd 32 (c s 5) 1) ∧
    (s.verdict r.addr e1 = .poisoned → ∃ t, exec (.hbmRead r e1 e2 len) s = .next t ∧ t.mem = s.mem ∧ t.poison = s.poison ∧
      s.handed t (answer 2 (List.replicate len 0)) ∧ c t 7 = satAdd 32 (c s 7) 1) ∧
    (s.verdict r.addr e1 = .uncorrectable →
      (s.verdict r.addr e2 = .clean ∨ (∃ q, s.verdict r.addr e2 = .corrected q) →
        ∃ t, exec (.hbmRead r e1 e2 len) s = .next t ∧ t.mem = Store.writeN s.mem base (s.delivered r.addr e2) ∧ t.isPoison r.addr = false ∧
          s.handed t (answer 0 (part (s.delivered r.addr e2))) ∧ c t 5 = satAdd 32 (c s 5) 1) ∧
      (s.verdict r.addr e2 = .uncorrectable →
        ∃ t, exec (.hbmRead r e1 e2 len) s = .next t ∧ t.mem = Store.writeN s.mem base (s.delivered r.addr e2) ∧ t.isPoison r.addr = true ∧
          s.handed t (answer 2 (List.replicate len 0)) ∧ (t.stack k).ueSeen = true ∧ c t 6 = satAdd 32 (c s 6) 1 ∧ c t 7 = satAdd 32 (c s 7) 1))) ∧
  (∀ (s : State) (r : HbmAccess) (data : List Byte) (e1 e2 : ErrPattern), (s.die (12 + homePlinth r.addr)).life = .up →
    s.busyAt r.addr r.bank = false → s.unitHolds r.addr = false →
    let base := r.addr / 256 * 256
    let done := completionPkt (stackUnit (s.place r.addr).1) r.partition (hubUnit (homePlinth r.addr)) 0
    let block := fun (e : ErrPattern) => s.delivered r.addr e
    let merged := fun (m : Store) (e : ErrPattern) (bs : List Byte) => Store.writeN (Store.writeN m base (block e)) r.addr bs
    let fixed := fun (e : ErrPattern) => Store.writeN s.mem base (block e)
    (r.op = none → r.addr % 256 = 0 → data.length = 256 → ∃ t, exec (.hbmStore r data e1 e2) s = .next t ∧ s.handed t (done 0 []) ∧
      t.mem = Store.writeMasked s.mem r.addr data (data.map (fun _ => true)) ∧ t.isPoison r.addr = false) ∧
    (r.op = none → data.length < 256 →
      (s.verdict r.addr e1 = .clean ∨ s.verdict r.addr e1 = .poisoned → ∃ t, exec (.hbmStore r data e1 e2) s = .next t ∧ s.handed t (done 0 []) ∧
        t.mem = merged s.mem e1 data ∧ t.poison = s.poison) ∧
      (∀ q, s.verdict r.addr e1 = .corrected q → ∃ t, exec (.hbmStore r data e1 e2) s = .next t ∧ s.handed t (done 0 []) ∧
        t.mem = merged (fixed e1) e1 data ∧ t.isPoison r.addr = false) ∧
      (s.verdict r.addr e1 = .uncorrectable → s.verdict r.addr e2 = .uncorrectable → ∃ t, exec (.hbmStore r data e1 e2) s = .next t ∧
        s.handed t (done 0 []) ∧ t.mem = merged (fixed e2) e2 data ∧ t.isPoison r.addr = true)) ∧
    (∀ op n, r.op = some op → atomicSize op = some n → atomicOk r.addr op data = true →
      let old := slice (block e1) (r.addr % 256) n
      (s.verdict r.addr e1 = .clean → ∃ t, exec (.hbmStore r data e1 e2) s = .next t ∧ s.handed t (done 0 old) ∧
        t.unitHolds r.addr = true ∧ t.mem = merged s.mem e1 (leBytes n (atomicNew op (leNat old) (field data 0 n) (field data n n)))) ∧
      (s.verdict r.addr e1 = .poisoned → ∃ t, exec (.hbmStore r data e1 e2) s = .next t ∧ s.handed t (done 2 (List.replicate n 0)) ∧ t.mem = s.mem) ∧
      (s.verdict r.addr e1 = .uncorrectable → s.verdict r.addr e2 = .uncorrectable → ∃ t, exec (.hbmStore r data e1 e2) s = .next t ∧
        s.handed t (done 2 (List.replicate n 0)) ∧ t.mem = fixed e2 ∧ t.isPoison r.addr = true))) ∧
  (∀ (s : State) (r : HbmAccess) (data : List Byte) (e1 e2 : ErrPattern) (len : Nat), (s.die (12 + homePlinth r.addr)).life = .up →
    s.busyAt r.addr r.bank = false → s.unitHolds r.addr = true →
    let answer := completionPkt (stackUnit (s.place r.addr).1) r.partition (hubUnit (homePlinth r.addr)) 0
    (∃ t, exec (.hbmRead r e1 e2 len) s = .next t ∧ t.mem = s.mem ∧ t.atomicUnits = s.atomicUnits ∧
      s.handed t (answer 0 (Store.readN s.mem r.addr len))) ∧
    (r.op = none → ∃ t, exec (.hbmStore r data e1 e2) s = .next t ∧ s.handed t (answer 0 []) ∧ t.atomicUnits = s.atomicUnits ∧
      t.mem = Store.writeMasked s.mem r.addr data (data.map (fun _ => true)))) ∧
  (∀ (s : State) (r : HbmAccess) (data : List Byte) (e1 e2 : ErrPattern) (len : Nat), s.busyAt r.addr r.bank = true →
    let waits := fun (c : Instr) => { s with relayWait := s.relayWait ++ [{ id := none, cmd := c, block := some (r.addr / 256) }] }
    exec (.hbmRead r e1 e2 len) s = .next (waits (.hbmRead r e1 e2 len)) ∧ exec (.hbmStore r data e1 e2) s = .next (waits (.hbmStore r data e1 e2))) ∧
  (∀ (s : State) (k pc bank row : Nat) (e1 e2 : ErrPattern) (inner : Bool × Bool),
    let l := s.scrubAddr k pc ((s.stack k).scrubAt pc)
    let pos := Tbl.upd (s.stack k).scrubPos pc 0 (· + 1)
    let whole := (List.range 32).all (fun c => decide (2 ^ 24 ≤ Tbl.getD pos c 0))
    (s.busyAt l bank = true → exec (.scrubStep k pc bank row e1 e2 inner) s = .next s) ∧
    (s.busyAt l bank = false →
      ∃ t, exec (.scrubStep k pc bank row e1 e2 inner) s = .next t ∧
        (t.stack k).scrubPos = (if whole then pos.map (fun p => (p.1, p.2 - 2 ^ 24)) else pos) ∧
        Tbl.getD (t.stack k).counters 9 0 =
          (if whole then satAdd 32 (Tbl.getD (s.stack k).counters 9 0) 1 else Tbl.getD (s.stack k).counters 9 0) ∧
        (s.verdict l e1 = .clean ∨ s.verdict l e1 = .poisoned → t.mem = s.mem ∧ t.poison = s.poison) ∧
        (∀ q, s.verdict l e1 = .corrected q → t.mem = Store.writeN s.mem (l / 256 * 256) (s.delivered l e1)) ∧
        (s.verdict l e1 = .uncorrectable → s.verdict l e2 = .uncorrectable → t.isPoison l = true)))

/-- 06: R186, R188 to R198; 16: R478; 18: R536. Repairs and their log, the refresh band, the hot-spot monitor, power states, the end of a re-lay and the loss of a stack. -/
def Obligations.StacksAreRepairedAndWatched : Prop :=
  (∀ s : State, (s.norRange = true → exec .repairLogWrite s =
      .next { s with nor := { s.nor with repairLog := s.nor.repairLog ++ s.nor.repairHeld, repairHeld := [] } }) ∧
    (s.norRange = false → exec .repairLogWrite s = .next s)) ∧
  (∀ (s : State) (k pc bank row : Nat) (rest : List (Nat × Nat × Nat)), (s.stack k).repairing = (pc, bank, row) :: rest → s.noneWait →
    ((s.stack k).exhaustedBanks.contains (pc, bank) = false → ∃ t, exec (.softRepairDone k none) s = .next t ∧ (t.stack k).repairing = rest ∧
      (t.stack k).exhausted = true ∧ (t.stack k).exhaustedBanks = (s.stack k).exhaustedBanks ++ [(pc, bank)] ∧
      t.nor = { s.nor with exhausted := s.nor.exhausted ++ [(k, pc, bank)] } ∧ t.mem = s.mem) ∧
    ((s.stack k).exhaustedBanks.contains (pc, bank) = true →
      exec (.softRepairDone k none) s = .next (s.setStack k { s.stack k with repairing := rest })) ∧
    (∃ t, exec (.softRepairDone k (some [])) s = .next t ∧ (t.stack k).repairing = rest ∧ t.mem = s.mem ∧ t.poison = s.poison) ∧
    ∀ blocks, ∃ t, exec (.softRepairDone k (some blocks)) s = .next t ∧ (t.stack k).pending = true ∧
      Tbl.getD (t.stack k).counters 8 0 = satAdd 32 (Tbl.getD (s.stack k).counters 8 0) 1 ∧
      (∀ w ∈ (t.stack k).weakRows, ¬(w.pc = pc ∧ w.bank = bank ∧ w.row = row)) ∧
      (let row1 : RepairRow := { stack := k, pc := pc, bank := bank, row := row }
      (s.norRange = true → t.nor = { s.nor with repairLog := s.nor.repairLog ++ [row1] }) ∧
      (s.norRange = false → t.nor = { s.nor with repairHeld := s.nor.repairHeld ++ [row1] })) ∧
      ∀ x e1 e2 inner, blocks = [(x, e1, e2, inner)] → x < 2 ^ 24 →
        let l := s.scrubAddr k pc x
        (s.verdict l e1 = .uncorrectable → s.verdict l e2 = .uncorrectable → t.isPoison l = true) ∧
        (∀ q, s.verdict l e1 = .corrected q → t.mem = Store.writeN s.mem (l / 256 * 256) (s.delivered l e1))) ∧
  (∀ (s : State) (k : Nat) (q : Int), (s.stack k).power ≠ .selfRefresh → (s.stack k).bandDue = none →
    ∃ t, exec (.stackSensorRead k (some q)) s = .next t ∧ (t.stack k).tempQ = q ∧ (t.stack k).band ≤ 3 ∧
    ∀ b, 1 ≤ b → b ≤ 3 → (300 + 40 * (b : Int) ≤ q → b ≤ (t.stack k).band) ∧
      (b ≤ (t.stack k).band → 300 + 40 * (b : Int) ≤ q ∨ (b ≤ (s.stack k).band ∧ 300 + 40 * (b : Int) - 12 < q))) ∧
  (∀ (s : State) (k : Nat), (s.stack k).power ≠ .selfRefresh →
    ∃ t, exec (.stackSensorRead k none) s = .next t ∧ (t.stack k).band = 3 ∧ (t.stack k).tempQ = (s.stack k).tempQ) ∧
  (∀ (s : State) (k : Nat) (r : Option Int), (s.stack k).power = .selfRefresh →
    let b := match r with
      | some q => nextBand ((s.stack k).bandDue.getD (s.stack k).band) q
      | none => 3
    ∃ t, exec (.stackSensorRead k r) s = .next t ∧ (t.stack k).band = (s.stack k).band ∧ (t.stack k).bandDue = some b ∧
      t = { s with hbmStacks := t.hbmStacks } ∧ ∀ (pc bank row : Nat) (e1 e2 : ErrPattern) (inner : Bool × Bool),
        t.busyAt (t.scrubAddr k pc ((t.stack k).scrubAt pc)) bank = false →
          ∃ u, exec (.scrubStep k pc bank row e1 e2 inner) t = .next u ∧ (u.stack k).band = b) ∧
  (∀ (s : State) (p : Nat), s.relaying p = false →
    let m := Tbl.getD s.skew p {}
    let total := (Tbl.vals m.bytes).sum
    let top := (Tbl.vals m.bytes).foldl max 0
    ∃ t, exec (.skewWindowEnd p) s = .next t ∧ (Tbl.getD t.skew p {}).bytes = [] ∧
      (total = 0 → s.setting 0x00010003 = 0 → t.free = s.free + 1 ∧ (Tbl.getD t.skew p {}).last < 65536) ∧ (∀ q, q ≠ p → Tbl.getD t.skew q {} = Tbl.getD s.skew q {}) ∧
      (total < s.setting 0x00010003 * 102400000 → t = { s with skew := t.skew } ∧ Tbl.getD t.skew p {} = { m with bytes := [] }) ∧
      (s.setting 0x00010003 * 102400000 ≤ total → 0 < total → s.setting 0x00010002 * total ≤ top * 256 * 16 → m.armed = true →
        (Tbl.getD t.skew p {}).armed = false ∧ (Tbl.getD t.skew p {}).events = satAdd 32 m.events 1 ∧
        (Tbl.getD t.skew p {}).last = min (top * 65536 / total) 0xFFFF) ∧
      (s.setting 0x00010003 * 102400000 ≤ total → 0 < total → top * 256 * 16 < s.setting 0x00010002 * total → m.armed = false →
        t = { s with skew := t.skew } ∧ (Tbl.getD t.skew p {}).armed = decide (9 ≤ m.below))) ∧
  (∀ (s : State) (k : Nat), (s.stack k).power = .active → s.setting 0x00010004 ≠ 0 →
    exec (.pdIdleExpiry k) s = .next (s.setStack k { s.stack k with power := .powerDown })) ∧
  (∀ (s : State) (k : Nat), (s.setting 0x00010005 ≠ 0 → exec (.srIdleExpiry k) s = .next (s.setStack k { s.stack k with power := .selfRefresh })) ∧
    (s.setting 0x00010005 = 0 → exec (.srIdleExpiry k) s = .next s)) ∧
  (∀ (s : State) (k : Nat), ((s.stack k).power = .powerDown → exec (.refresh k) s = .next (s.setStack k { s.stack k with power := .active })) ∧
    ((s.stack k).power ≠ .powerDown → exec (.refresh k) s = .next s)) ∧
  (∀ (s : State) (k : Nat), s.boot.dev ≠ .failureStop → ∃ t, exec (.phyLinkFailure k) s = .next t ∧ (t.stack k).lost = true ∧
    t.boot.dev = .failureStop ∧ t.boot.stopCause = 0x16 ∧ t.pins.failstopN = false ∧ t.pins.coolDuty = 200 ∧
    (∀ x ∈ t.chans, x.2.st = .idle) ∧ ∀ x ∈ t.txEnds, x.2.st = .down) ∧
  (∀ (s : State) (p : Nat), s.relaying p = false → exec (.relayDone p) s = .next s) ∧
  (∀ (s : State) (p : Nat) (r : Relay), s.upd.relay = some r → p ∈ r.plinths → s.noneWait →
    (∀ i, i < 32 → (s.tx (2 * p + i / 16) (i % 16)).spilled = 0) →
    ((∃ q ∈ r.plinths, q ≠ p) → exec (.relayDone p) s =
      .next { s with upd := { s.upd with relay := some { r with plinths := r.plinths.filter (fun q => q ≠ p) } } }) ∧
    ((∀ q ∈ r.plinths, q = p) → ∃ t, exec (.relayDone p) s = .next t ∧ t.upd.relay = none ∧ t.boot.key = r.newKey ∧ t.nor.cast = r.cast ∧
      t.nor.prev = some s.nor.cast ∧ t.mem = s.mem ∧ (∀ q, t.relaying q = false) ∧
      ∀ w, r.waiter = some w → (s.mbox w.1).running = some w.2 → t.answered w.1 0x0053 0 w.2 (leBytes 4 r.cast.number)))

/-! ### Die links and packets -/

/-- 07: R208 to R216, R220; 17: R513. The flits of a link are taken in the order of their rotation over its bundles, one that is early waiting for its turn, and their
packets handed on; a bad flit is answered with a NAK unless one left less than 200 ns ago, a NAK or the backstop sends what is not
acknowledged again, and an acknowledgement takes it away. -/
def Obligations.LinkFlitsAreTakenAndReplayed : Prop :=
  (∀ (s : State) (k i : Nat) (flit : List Byte), (s.link k).st = .up → k ∈ linkEnds → flit.length = 128 → (s.link k).early = [] →
    i < max 1 (linkBundles k) →
    let e := s.link k
    let b := max 1 (linkBundles k)
    let w := fun (e : LinkEnd) => { e with asleep := e.asleep.filter (· ≠ i), rxCount := e.rxCount + 1 }
    let h := field flit 0 2
    let a := field flit 2 2
    let rest := e.unacked.filter (fun f => !flitUpTo f.fseq (a % 4096))
    let row := Instr.flitRx k { bundle := i, bytes := flit }
    (i ≠ e.rxCount % b → exec row s = .next (s.setLink k { e with asleep := e.asleep.filter (· ≠ i), early := [(i, [flit])] })) ∧
    (i = e.rxCount % b →
      (field flit 0x7C 4 ≠ crc32c (flit.take 0x7C) → ∃ t, exec row s = .next t ∧ t.hubQ = s.hubQ ∧ (t.link k).rxSeq = e.rxSeq ∧
        (t.link k).crcSeen = true ∧ Tbl.getD (t.link k).counters 2 0 = satAdd 32 (Tbl.getD e.counters 2 0) 1 ∧
        (t.link k).sent = e.sent ++
          (if s.nakBarred k then [] else striped (linkBundles k) e.txCount [{ fseq := e.txSeq, ftype := 0, ackSeq := e.rxSeq, ak := 2 }])) ∧
      (field flit 0x7C 4 = crc32c (flit.take 0x7C) →
        (h / 4096 = 0 → bits 13 12 a = 1 → ∃ t, exec row s = .next t ∧ t.hubQ = s.hubQ ∧
          t.link k = { w e with unacked := rest, switchOut := e.switchOut.filter (fun n => !flitUpTo n (a % 4096)) }) ∧
        (h / 4096 = 0 → bits 13 12 a = 2 → rest ≠ [] → ∃ t, exec row s = .next t ∧ t.hubQ = s.hubQ ∧
          (t.link k).unacked = rest ∧ (t.link k).sent = e.sent ++ striped (linkBundles k) e.txCount rest ∧
          Tbl.getD (t.link k).counters 4 0 = satAdd 32 (Tbl.getD e.counters 4 0) 1) ∧
        (∀ p more, h / 4096 = 1 → bits 13 12 a = 0 → h % 4096 = (e.rxSeq + 1) % 4096 →
          splitPkts 16 (e.partialIn ++ slice flit 4 120) = ([p], more) → pktOk p.typ p.payload.length = true → p.typ ≠ 1 → p.typ ≠ 0xD →
          p.typ ≠ 0xE → (s.die (p.dst / 128)).life = .up →
          ∃ t, exec row s = .next t ∧ t.hubQ = ((s.markPkt k p).elim s (s.enqueue (k / 8) (k % 8))).hubQ ∧
            (s.markPkt k p = none ↔ isPlinth (k / 8) = true ∧ 16 ≤ linkPeer k / 8 ∧ p.partition ≠ 0) ∧
            (∀ q, s.markPkt k p = some q → isPlinth (k / 8) = true → linkPeer k / 8 < 12 → p.src / 128 = linkPeer k / 8 → p.src % 128 < 30 →
              q = { p with partition := (s.stage (30 * (linkPeer k / 8) + p.src % 128)).partition }) ∧
            (t.link k).rxSeq = h % 4096 ∧ (t.link k).partialIn = more ∧
            Tbl.getD (t.link k).counters 1 0 = satAdd 64 (Tbl.getD e.counters 1 0) 1 ∧
            Tbl.getD (t.link k).owed p.tc 0 = Tbl.getD e.owed p.tc 0 + p.units) ∧
        (h / 4096 = 1 → bits 13 12 a = 0 → h % 4096 ≠ (e.rxSeq + 1) % 4096 → flitUpTo (h % 4096) e.rxSeq = true →
          exec row s = .next (s.setLink k { w e with ackDue := max 1 e.ackDue }))))) ∧
  (∀ (s : State) (k : Nat), (s.link k).st = .up →
    let e := s.link k
    (e.ackDue ≠ 0 → (∀ c, c < 6 → Tbl.getD e.owed c 0 = 0) → exec (.linkAckTimer k) s = .next (s.setLink k
      { e.put (linkBundles k) [{ fseq := e.txSeq, ftype := 0, ackSeq := e.rxSeq, ak := 1 }] with ackDue := 0 })) ∧
    ((∃ c, c < 6 ∧ Tbl.getD e.owed c 0 ≠ 0) → e.unacked.length < 2047 → ∃ t f, exec (.linkAckTimer k) s = .next t ∧
      (t.link k).unacked = e.unacked ++ [f] ∧ f.ftype = 1 ∧ f.fseq = e.txSeq ∧ (t.link k).txSeq = (e.txSeq + 1) % 4096 ∧ (t.link k).ackDue = 0 ∧
      ∀ c, c < 6 → Tbl.getD (t.link k).owed c 0 = Tbl.getD e.owed c 0 - 1023)) ∧
  (∀ (s : State) (k : Nat), (s.link k).st = .up → (s.link k).unacked ≠ [] →
    ∃ t, exec (.linkBackstopExpiry k) s = .next t ∧
      (t.link k).sent = (s.link k).sent ++ striped (linkBundles k) (s.link k).txCount (s.link k).unacked ∧
      (t.link k).unacked = (s.link k).unacked ∧
      Tbl.getD (t.link k).counters 5 0 = satAdd 32 (Tbl.getD (s.link k).counters 5 0) 1)

/-- 07: R214, R217, R220 to R224, R230; 16: R493. A link that loses a lane retrains and comes back up on the negotiated profile; one that cannot fences its die, or
stops the package where it joins two plinths. Credits come back to their class, profiles switch at their flit and bundles go to sleep where the profile lets them. -/
def Obligations.LinksRetrainAndFail : Prop :=
  (∀ (s : State) (k lane bundles : Nat), k ∈ linkEnds → (s.link k).st = .up ∨ (s.link k).st = .retraining →
    (bundles < 8 → ∃ t, exec (.laneLossOfLock k lane bundles) s = .next t ∧ t = { s with links := t.links } ∧
      (∀ j, j = k ∨ j = linkPeer k → (t.link j).st = .retraining ∧ (t.link j).baseline = true ∧ (t.link j).profile = baselineWord) ∧
      (∀ (place : Nat) (p : HubPkt), k ∈ t.way place p → t.crosses place p = false) ∧
      (t.link k).badLane = lane ∧ ∀ j, j ≠ k → j ≠ linkPeer k → t.link j = s.link j) ∧
    (8 ≤ bundles → plinthLink k = true → s.boot.dev ≠ .failureStop → ∃ t, exec (.laneLossOfLock k lane bundles) s = .next t ∧
      t.boot.dev = .failureStop ∧ t.boot.stopCause = 0x13) ∧
    (8 ≤ bundles → plinthLink k = false → (s.die (linkDie k)).life = .up → ∃ t, exec (.laneLossOfLock k lane bundles) s = .next t ∧
      (t.die (linkDie k)).life ≠ .up ∧ (t.die (linkDie k)).fenceCause = 1)) ∧
  (∀ (s : State) (k peer : Nat), k ∈ linkEnds → (s.link k).st = .retraining →
    (bit 8 peer = true → (s.link k).retrainRefs.length < 4 → (s.link k).replayRefs.length < 16 → (s.link (linkPeer k)).replayRefs.length < 16 →
      (s.link k).unacked.length < 2046 →
      ∃ t cap more, exec (.linkRetrainDone k none peer) s = .next t ∧ (t.link k).st = .up ∧ (t.link (linkPeer k)).st = .up ∧ (t.link k).peerWord = peer ∧
        (k ∈ linkList → (t.link k).profile = (if s.boot.dev = .ready then negotiate (linkOwn k) peer else baselineWord)) ∧
        (k ∉ linkList → (t.link k).profile = baselineWord) ∧ cap.payload = padTo 120 (linkPkt k 0xD (linkOwn k) []).bytes ∧ cap.fseq = (s.link k).txSeq ∧
        (t.link k).sent = (s.link k).sent ++ striped (linkBundles k) 0 ((s.link k).unacked ++ cap :: more) ∧
        (t.link k).eye = some s.free ∧
        Tbl.getD (t.link k).counters 6 0 = satAdd 32 (Tbl.getD (s.link k).counters 6 0) 1) ∧
    (∀ lane, ∃ t, exec (.linkRetrainDone k (some lane) peer) s = .next t ∧ (t.link k).hardFault = true ∧ (t.link k).faultLane = lane ∧
      (plinthLink k = true → t.boot.dev = .failureStop) ∧
      (plinthLink k = false → (s.die (linkDie k)).life = .up → (t.die (linkDie k)).life = .retired))) ∧
  (∀ (s : State) (k : Nat) (counts : List Nat), k ∈ linkEnds →
    ∃ t, exec (.linkCredit k counts) s = .next t ∧ t = { s with links := t.links } ∧ t.link k = { s.link k with credits := (t.link k).credits } ∧
      (∀ j, j ≠ k → t.link j = s.link j) ∧
      ∀ c, c < 6 → Tbl.getD (t.link k).credits c 512 =
        Tbl.getD (s.link k).credits c 512 + min (counts.getD c 0 % 1024) (512 - Tbl.getD (s.link k).credits c 512)) ∧
  (∀ (s : State) (k word : Nat), k ∈ linkEnds → (s.link k).st = .up →
    (bit 8 word = true → exec (.cap k word) s = .next (s.setLink k { s.link k with peerWord := word })) ∧
    (bit 8 word = false → plinthLink k = false → (s.die (linkDie k)).life = .up → ∃ t, exec (.cap k word) s = .next t ∧
      (t.die (linkDie k)).life ≠ .up)) ∧
  (∀ (s : State) (k word n : Nat), (s.link k).st = .up →
    (flitUpTo (n % 4096) (s.link k).rxSeq = true → ∃ t, exec (.profile k word n) s = .next t ∧
      t.link k = { s.link k with profile := word, baseline := word % 2 ^ 13 == baselineWord, switchAt := none }) ∧
    (flitUpTo (n % 4096) (s.link k).rxSeq = false →
      exec (.profile k word n) s = .next (s.setLink k { s.link k with switchAt := some (n % 4096, word) }))) ∧
  (∀ (s : State) (k bundle : Nat), (s.link k).st = .up → bundle < linkBundles k → bundle ∉ (s.link k).asleep →
    (bit 9 (s.link k).profile = true →
      exec (.bundleSleep k bundle) s = .next (s.setLink k { s.link k with asleep := (s.link k).asleep ++ [bundle] })) ∧
    (bit 9 (s.link k).profile = false → exec (.bundleSleep k bundle) s = .next s))

/-- 07: R212, R213, R225; 12: R389; 16: R484; 03: R104; 05: R153. A completion reaches its requester, a control message its unit, and a die's report the logbook with
the reference count it carries. -/
def Obligations.PacketsReachTheirUnits : Prop :=
  (∀ (s : State) (k tag e pl i : Nat) (p : Pipe) (b : Batch) (q : HubPkt) (key : Nat), k < 360 → stType k ≠ 2 → (s.stage k).g.reqs = [] →
    s.crosses (queuePlace key) q = true → (s.stage k).v.stores.find? (fun x => x.1 = tag) = some (tag, e) → (s.stage k).bind = some (pl, i) → s.pipe? pl = some p → p.batch? e = some b →
    s.findPkt (fun x => x.typ = 6 && x.dst = stId k && x.tag = tag && x.specific = 0 && x.payload == []) = some (key, q) →
    ∃ t p' b', exec (.completion (stId k) tag 0 []) s = .next t ∧ t = { s with hubQ := t.hubQ, links := t.links, stages := t.stages, pipes := t.pipes } ∧
      t.hubQ = (s.unqueue key q).hubQ ∧ t.links = (s.cross (queuePlace key) q).links ∧ (t.stage k).v.stores = (s.stage k).v.stores.filter (fun x => x.1 ≠ tag) ∧
      t.pipe? pl = some p' ∧ p'.batch? e = some b' ∧ b'.stores = b.stores - 1) ∧
  (∀ (s : State) (k tag st : Nat) (data : List Byte) (key : Nat) (q : HubPkt),
    s.findPkt (fun x => x.typ = 6 && x.dst = stId k && x.tag = tag && x.specific = st && x.payload == data) = some (key, q) →
    s.crosses (queuePlace key) q = false → exec (.completion (stId k) tag st data) s = .next s) ∧
  (∀ (s : State) (k tag st e pl i : Nat) (p : Pipe) (q : HubPkt) (key : Nat), k < 360 → stType k ≠ 2 → (s.stage k).g.reqs = [] →
    s.crosses (queuePlace key) q = true → st ≠ 0 → st ≠ 2 →
    (s.stage k).v.stores.find? (fun x => x.1 = tag) = some (tag, e) → (s.stage k).bind = some (pl, i) → s.pipe? pl = some p →
    p.st ≠ .failed → p.st ≠ .releasing → (s.stage k).cause = 0 → p.stopWait = [] →
    s.findPkt (fun x => x.typ = 6 && x.dst = stId k && x.tag = tag && x.specific = st && x.payload == []) = some (key, q) →
    ∃ t p', exec (.completion (stId k) tag st []) s = .next t ∧ (t.stage k).st = .fault ∧ (t.stage k).cause = 2 ∧ t.pipe? pl = some p' ∧ p'.st = .failed) ∧
  (∀ (s : State) (dst op : Nat) (bs : List Byte), (s.die (dst / 128)).life = .up → bs.length ≤ 64 →
    exec (.controlMessage dst op bs) s = .next (s.toUnit
      { typ := 9, tc := 0, partition := 0, src := exsarUnit, dst := dst, specific := op, payload := bs })) ∧
  (∀ (s : State) (dst op : Nat) (bs : List Byte), (s.die (dst / 128)).life = .up → 64 < bs.length → fenceable (dst / 128) = true →
    ∃ t, exec (.controlMessage dst op bs) s = .next t ∧ (t.die (dst / 128)).life ≠ .up ∧ (t.die (dst / 128)).fenceCause = 4) ∧
  (∀ (s : State) (q : UnitReq) (data : List Byte), s.fromUnit q → fenceable (q.src / 128) = true → data.length < 4 ∨ 256 < data.length →
    ∃ t, exec (.memWr q data) s = .next t ∧ t.mem = s.mem ∧ (t.die (q.src / 128)).life ≠ .up ∧ (t.die (q.src / 128)).fenceCause = 4 ∧
      Tbl.getD (t.link (linkPeer (8 * (q.src / 128)))).counters 7 0 =
        satAdd 32 (Tbl.getD (s.link (linkPeer (8 * (q.src / 128)))).counters 7 0) 1) ∧
  (∀ (s : State) (src code ref : Nat) (data : List Byte), (s.die (src / 128)).life = .up → 64 < data.length → fenceable (src / 128) = true →
    ∃ t, exec (.event src code ref data) s = .next t ∧ (t.die (src / 128)).life ≠ .up ∧ (t.die (src / 128)).fenceCause = 4) ∧
  (∀ (s : State) (src code ref : Nat) (data : List Byte), (s.die (src / 128)).life = .up → data.length ≤ 64 →
    (eventInfo code = none → exec (.event src code ref data) s = .next { s with log := s.log.take code 0xFF (logSeverity code) src ref data }) ∧
    (∀ cls sev, eventInfo code = some (cls, sev) → ∃ t, exec (.event src code ref data) s = .next t ∧
      t = { s with log := t.log, helm := t.helm } ∧ t.log = s.log.take code cls sev src ref data ∧
      ∀ mb, mb < 8 → (bit cls (s.mbox mb).mask = false → t.mbox mb = s.mbox mb) ∧
        (bit cls (s.mbox mb).mask = true → (s.mbox mb).events < 256 →
          (t.mbox mb).out = (s.mbox mb).out ++ [{ kind := .event, body := eventRecord code cls sev src ref (s.mbox mb).lost data }])))

/-! ### Memory requests and atomics -/

/-- 06: R173; 07: R205, R212; 08: R238, R240, R245, R254. A request in its window is served from the package's own memory, or from a line of the plinth's cache; one
outside it is refused with status 1 and counted, one across a block with 7, one into a fixed region with 8; what leaves the package is listed.

08: R257, R258. An atomic reads its operand from memory, stores the operation's result and answers the old bytes, for each operation of the table; an
operation that is none of them is answered 7. -/
def Obligations.UnitRequestsAreServed : Prop :=
  ((∀ (s : State) (q : UnitReq) (m : Nat), s.fromUnit q → m < 256 →
    let n := m + 1
    let p := plinthOf (q.src / 128)
    let tag := s.tagOfPart q.partition
    (s.windowOk q.partition q.addr n accRead = true → s.plainRun q.addr n → ∃ t, exec (.memRd q m) s = .next t ∧ t.mem = s.mem ∧
      s.handed t (completionPkt (hubUnit (homePlinth (localOf q.addr))) q.partition q.src q.tag 0 (Store.readN s.mem (localOf q.addr) n))) ∧
    (s.windowOk q.partition q.addr n accRead = true → s.plainRun q.addr n → p = 0 → homePlinth (localOf q.addr) = 3 → ∃ t pkt,
      exec (.memRd q m) s = .next t ∧ pkt.tag = q.tag ∧
      let key := queueKey 15 7 (if parity 64 (Nat.land q.tag s.boot.seed) = 0 then 3 else 4) 2
      Tbl.getD t.hubQ key [] = Tbl.getD s.hubQ key [] ++ [pkt]) ∧
    (s.windowOk q.partition q.addr n accRead = false → ∃ t, exec (.memRd q m) s = .next t ∧ t.mem = s.mem ∧
      s.handed t (completionPkt (hubUnit (plinthOf (q.src / 128))) q.partition q.src q.tag 1 []) ∧
      Tbl.getD (t.cache p).counters 8 0 = satAdd 32 (Tbl.getD (s.cache p).counters 8 0) 1) ∧
    (s.windowOk q.partition q.addr n accRead = true → 256 < q.addr % 256 + n → ∃ t, exec (.memRd q m) s = .next t ∧ t.mem = s.mem ∧
      s.handed t (completionPkt (hubUnit (plinthOf (q.src / 128))) q.partition q.src q.tag 7 [])) ∧
    (s.windowOk q.partition q.addr n accRead = true → q.addr % 256 + n ≤ 256 → s.isLocal q.addr = false → s.fab.node ≠ none →
      (∀ l, (s.cache p).lines.find? (fun l => l.hits tag (q.addr / 256) (s.waypointOf tag)) = some l → ∃ t, exec (.memRd q m) s = .next t ∧
        s.handed t (completionPkt (hubUnit (plinthOf (q.src / 128))) q.partition q.src q.tag 0 (slice l.data (q.addr % 256) n)) ∧ t.fab.outstanding = s.fab.outstanding ∧
        Tbl.getD (t.cache p).counters 0 0 = satAdd 64 (Tbl.getD (s.cache p).counters 0 0) 1) ∧
      (∀ w, (s.cache p).lines.find? (fun l => l.hits tag (q.addr / 256) (s.waypointOf tag)) = none → s.sameBlock p q.addr = [] →
        s.chooseRoute p (nodeOf q.addr) (q.addr / 256) = some w → ∃ t r, exec (.memRd q m) s = .next t ∧ t.hubQ = s.hubQ ∧ t.mem = s.mem ∧
          t.fab.outstanding = s.fab.outstanding ++ [r] ∧ r.kind = .rd ∧ r.unit = q.src ∧ r.tag = q.tag ∧ r.addr = q.addr ∧ r.len = n ∧
          r.route = w ∧ r.plinth = p ∧ r.hallTag = tag ∧ r.waypoint = s.waypointOf tag))) ∧
  (∀ (s : State) (q : UnitReq) (data : List Byte), s.fromUnit q → 4 ≤ data.length → s.windowOk q.partition q.addr data.length accWrite = true →
    (s.plainRun q.addr data.length → s.inFixed q.addr data.length = false → ∃ t, exec (.memWr q data) s = .next t ∧
      t.mem = Store.writeMasked s.mem (localOf q.addr) data (data.map (fun _ => true)) ∧
      s.handed t (completionPkt (hubUnit (homePlinth (localOf q.addr))) q.partition q.src q.tag 0 [])) ∧
    (q.addr % 256 + data.length ≤ 256 → s.inFixed q.addr data.length = true → ∃ t, exec (.memWr q data) s = .next t ∧ t.mem = s.mem ∧
      s.handed t (completionPkt (hubUnit (plinthOf (q.src / 128))) q.partition q.src q.tag 8 []))) ∧
  (∀ (s : State) (q : UnitReq), s.fromUnit q →
    (s.windowOk q.partition q.addr 1 accRead = true → s.isLocal q.addr = true →
      s.memBusy (localOf q.addr) = false → ∃ t, exec (.hint q) s = .next t ∧ t.mem = s.mem ∧ t.hubQ = s.hubQ) ∧
    (s.windowOk q.partition q.addr 1 accRead = true → s.isLocal q.addr = false → s.fab.node ≠ none →
      let p := plinthOf (q.src / 128)
      let tag := s.tagOfPart q.partition
      ∀ w, (s.cache p).lines.find? (fun l => l.hits tag (q.addr / 256) (s.waypointOf tag)) = none → s.sameBlock p q.addr = [] →
        s.chooseRoute p (nodeOf q.addr) (q.addr / 256) = some w → ∃ t r, exec (.hint q) s = .next t ∧ t.hubQ = s.hubQ ∧
          t.fab.outstanding = s.fab.outstanding ++ [r] ∧ r.kind = .hint ∧ r.addr = q.addr ∧ r.plinth = p))) ∧
  ((∀ (s : State) (q : UnitReq) (pl : List Byte), s.fromUnit q →
    let smin := fun (w o v : Nat) => if toSigned w o < toSigned w v then o else v
    let smax := fun (w o v : Nat) => if toSigned w o < toSigned w v then v else o
    let rows : List (Instr × Nat × Nat × Nat × (Nat → Nat → Nat → Nat)) :=
      [(.addI32 q pl, 0x01, 4, 4, fun o v _ => (o + v) % 2 ^ 32), (.addI64 q pl, 0x02, 8, 8, fun o v _ => (o + v) % 2 ^ 64),
        (.addF32 q pl, 0x03, 4, 4, fun o v _ => (fAdd .fp32 o v).1), (.addF64 q pl, 0x04, 8, 8, fun o v _ => (fAdd .fp64 o v).1),
        (.minI32 q pl, 0x05, 4, 4, fun o v _ => smin 32 o v), (.maxI32 q pl, 0x06, 4, 4, fun o v _ => smax 32 o v),
        (.minI64 q pl, 0x07, 8, 8, fun o v _ => smin 64 o v), (.maxI64 q pl, 0x08, 8, 8, fun o v _ => smax 64 o v),
        (.minF32 q pl, 0x09, 4, 4, fun o v _ => fMinMax false o v), (.maxF32 q pl, 0x0A, 4, 4, fun o v _ => fMinMax true o v),
        (.and64 q pl, 0x0B, 8, 8, fun o v _ => Nat.land o v), (.or64 q pl, 0x0C, 8, 8, fun o v _ => Nat.lor o v),
        (.xor64 q pl, 0x0D, 8, 8, fun o v _ => Nat.xor o v), (.swap32 q pl, 0x0E, 4, 4, fun _ v _ => v), (.swap64 q pl, 0x0F, 8, 8, fun _ v _ => v),
        (.cas32 q pl, 0x10, 4, 8, fun o v u => if o = v then u else o), (.cas64 q pl, 0x11, 8, 16, fun o v u => if o = v then u else o),
        (.cas128 q pl, 0x12, 16, 32, fun o v u => if o = v then u else o)]
    ∀ r ∈ rows,
      let n := r.2.2.1
      let f := r.2.2.2.2
      pl.length = r.2.2.2.1 → q.addr % n = 0 → s.plainRun q.addr n → s.windowOk q.partition q.addr n accAtomic = true → s.inFixed q.addr n = false →
      let old := Store.readN s.mem (localOf q.addr) n
      let new := f (leNat old) (field pl 0 n) (field pl n n)
      (∃ t, exec r.1 s = .next t ∧ t.mem = Store.writeN s.mem (localOf q.addr) (leBytes n new) ∧ s.handed t (completionPkt (hubUnit (homePlinth (localOf q.addr))) q.partition q.src q.tag 0 old)) ∧
      (∃ t, exec (.atomicRequest q r.2.1 pl) s = .next t ∧ t.mem = Store.writeN s.mem (localOf q.addr) (leBytes n new) ∧
        s.handed t (completionPkt (hubUnit (homePlinth (localOf q.addr))) q.partition q.src q.tag 0 old))) ∧
  (∀ (s : State) (q : UnitReq) (op : Nat) (pl : List Byte), s.fromUnit q → op = 0 ∨ 0x12 < op → pktOk 4 pl.length = true → s.windowOk q.partition q.addr 1 accAtomic = true →
    ∃ t, exec (.atomicRequest q op pl) s = .next t ∧ t.mem = s.mem ∧ s.handed t (completionPkt (hubUnit (plinthOf (q.src / 128))) q.partition q.src q.tag 7 [])))

/-! ### Requests of other packages, completions, twins -/

/-- 06: R190; 08: R239, R242, R243, R257, R271 to R273. Another package's request is served at its home and answered; a home that is not ready answers 5, one in
STANDBY 0x0A, one outside its export 1 and counts it. A twin's writes are applied and acknowledged in STANDBY and discarded elsewhere. -/
def Obligations.OtherPackagesAreServed : Prop :=
  (∀ (s : State) (q : FabReq), s.atHome q →
    let l := localOf q.addr
    let n := q.arg + 1
    (s.homeStop q n accRead (decide (q.addr % 256 + n ≤ 256)) = none → s.isPoison l = false → ∃ t u, exec (.rd q) s = .next t ∧ u.mem = s.mem ∧
      u.poison = s.poison ∧ s.repliedFrom t u q 0 (Store.readN s.mem l n)) ∧
    (s.isReady = false → ∃ t u, exec (.rd q) s = .next t ∧ u.mem = s.mem ∧ u.hbmStacks = s.hbmStacks ∧ s.repliedFrom t u q 5 []) ∧
    (s.isReady = true → s.fab.twin = .standby → q.twin = false → ∃ t u, exec (.rd q) s = .next t ∧ u.mem = s.mem ∧ u.hbmStacks = s.hbmStacks ∧
      s.repliedFrom t u q 0xA []) ∧
    (s.isReady = true → s.fab.twin ≠ .standby → s.exportOk (s.partOfTag q.hallTag) q.addr n accRead = false →
      ∃ t, exec (.rd q) s = .next t ∧ t.mem = s.mem ∧
        Tbl.getD (t.cache (homePlinth l)).counters 8 0 = satAdd 32 (Tbl.getD (s.cache (homePlinth l)).counters 8 0) 1)) ∧
  (∀ (s : State) (q : FabReq), s.homeStop q (q.arg + 1) accRead (decide (q.addr % 256 + (q.arg + 1) ≤ 256)) = none →
    s.memBusy (localOf q.addr) = true → ∃ t n, exec (.rd q) s = .next t ∧ t.mem = s.mem ∧ t.hbmStacks = s.hbmStacks ∧
      t.relayWait = s.relayWait ++ [{ id := some n, cmd := .rd q, block := some (localOf q.addr / 256) }]) ∧
  (∀ (s : State) (q : FabReq) (bs data : List Byte) (mask : List Bool), s.atHome q → wrPayload q.addr bs = some (data, mask) →
    let base := q.addr / 256 * 256
    s.homeStop { q with addr := base } 256 accWrite true = none → s.mirrors (localOf base) 256 = false →
    ∃ t u, exec (.wr q bs) s = .next t ∧ u.mem = Store.writeMasked s.mem (localOf base) data mask ∧ s.repliedFrom t u q 0 []) ∧
  (∀ (s : State) (q : FabReq) (pl : List Byte) (n : Nat), s.atHome q → atomicSize q.arg = some n → atomicOk q.addr q.arg pl = true →
    s.homeStop q n accAtomic true = none → s.isPoison (localOf q.addr) = false → s.mirrors (localOf q.addr) n = false →
    let old := Store.readN s.mem (localOf q.addr) n
    ∃ t u, exec (.fabricAtomic q pl) s = .next t ∧
      u.mem = Store.writeN s.mem (localOf q.addr) (leBytes n (atomicNew q.arg (leNat old) (field pl 0 n) (field pl n n))) ∧ s.repliedFrom t u q 0 old) ∧
  (∀ (s : State) (q : FabReq), s.atHome q → s.homeStop q 1 accRead true = none → s.isPoison (localOf q.addr) = false →
    ∃ t, exec (.fabricHint q) s = .next t ∧ t = { s with hbmStacks := t.hbmStacks, skew := t.skew, fab := { s.fab with arrived := t.fab.arrived } }) ∧
  (∀ (s : State) (q : FabReq) (bs : List Byte),
    (s.fab.twin ≠ .standby → ∃ t, exec (.mirrorWr q bs) s = .next t ∧
      t = { s with fab := { s.fab with arrived := t.fab.arrived, mirrorDiscards := s.fab.mirrorDiscards + 1 } }) ∧
    (∀ data mask, s.fab.twin = .standby → s.memBusy (localOf q.addr) = false → wrPayload q.addr bs = some (data, mask) →
      ∃ t, exec (.mirrorWr q bs) s = .next t ∧ t.mem = Store.writeMasked s.mem (localOf q.addr / 256 * 256) data mask) ∧
    (s.fab.twin = .standby → s.memBusy (localOf q.addr) = true → ∃ t n, exec (.mirrorWr q bs) s = .next t ∧ t.mem = s.mem ∧
      t.relayWait = s.relayWait ++ [{ id := some n, cmd := .mirrorWr q bs, block := some (localOf q.addr / 256) }]))

/-- 08: R244, R246, R247, R251, R253, R255, R272, R274; 10: R337. A completion delivers its bytes, fills the cache where the lease still stands and frees its identifier; one that never comes ends
LINK_LOST, a mirrored change MIRROR_LOST. Old leases are swept, and a resync that has copied everything is done. -/
def Obligations.CompletionsFillAndTimeOut : Prop :=
  (∀ (s : State) (id : Nat) (data : List Byte) (r : OutReq), s.fab.outstanding.find? (fun x => x.reqId == id && !x.twin) = some r → r.kind = .rd →
    s.noneWait → r.unit ≠ exsarUnit → r.fromNode = none → (s.die (r.unit / 128)).life = .up →
    ∃ t, exec (.fabricCompletion id 0 data) s = .next t ∧ s.handed t (completionPkt (hubUnit r.plinth) r.partition r.unit r.tag 0 (slice data (r.addr % 256) r.len)) ∧ t.mem = s.mem ∧
      (∀ x ∈ t.fab.outstanding, x.reqId ≠ id) ∧
      (∀ w, r.waypoint = some w → r.stale = false → s.waypointOf r.hallTag = some w →
        ∃ l ∈ (t.cache r.plinth).lines, l.hallTag = r.hallTag ∧ l.block = r.addr / 256 ∧ l.data = padTo 256 data ∧
          l.st = (if s.fixedFill r.hallTag r.addr && s.fixedLimit != 0 then .fixed else .leased w)) ∧
      (∀ w, r.waypoint = some w → r.stale = true ∨ s.waypointOf r.hallTag ≠ some w → (t.cache r.plinth).lines = (s.cache r.plinth).lines ∧
        Tbl.getD (t.cache r.plinth).counters 3 0 = satAdd 64 (Tbl.getD (s.cache r.plinth).counters 3 0) 1)) ∧
  (∀ (s : State) (id st : Nat) (data : List Byte) (c : Nat × Nat), (∀ x ∈ s.fab.outstanding, x.reqId ≠ id) →
    s.fab.closedIds.find? (fun x => x.1 == id) = some c → ∃ t, exec (.fabricCompletion id st data) s = .next t ∧ t.mem = s.mem ∧ t.hubQ = s.hubQ ∧
      Tbl.getD (t.cache c.2).counters 7 0 = satAdd 64 (Tbl.getD (s.cache c.2).counters 7 0) 1) ∧
  (∀ (s : State) (id : Nat) (r : OutReq), s.fab.outstanding.find? (fun x => x.reqId == id) = some r → r.kind ≠ .hint → s.noneWait →
    r.unit ≠ exsarUnit → r.fromNode = none → (s.die (r.unit / 128)).life = .up →
    ∃ t, exec (.completionTimeoutExpiry id) s = .next t ∧ t.mem = s.mem ∧ (∀ x ∈ t.fab.outstanding, x.reqId ≠ id) ∧
      t.fab.closedIds = s.fab.closedIds ++ [(id, r.plinth)] ∧ s.handed t (completionPkt (hubUnit r.plinth) r.partition r.unit r.tag (if r.twin then 9 else 3) [])) ∧
  (∀ (s : State) (id : Nat), (∀ x ∈ s.fab.outstanding, x.reqId ≠ id) → exec (.completionTimeoutExpiry id) s =
    .next { s with fab := { s.fab with closedIds := s.fab.closedIds.filter (fun c => c.1 ≠ id) } }) ∧
  (∀ (s : State) (id : Nat) (r : OutReq), s.fab.outstanding.find? (fun x => x.reqId == id && x.twin) = some r → s.noneWait →
    r.unit ≠ exsarUnit → r.fromNode = none → (s.die (r.unit / 128)).life = .up →
    ∃ t, exec (.mirrorAck id) s = .next t ∧ t.mem = s.mem ∧ (∀ x ∈ t.fab.outstanding, x.reqId ≠ id) ∧
      s.handed t (completionPkt (hubUnit r.plinth) r.partition r.unit r.tag 0 r.data)) ∧
  (∀ (s : State) (p : Nat), ∃ t n, exec (.leaseSweep p) s = .next t ∧ t = { s with caches := t.caches } ∧
    (∀ l, l ∈ (t.cache p).lines ↔ l ∈ (s.cache p).lines ∧ ∀ w, l.st = .leased w → s.waypointOf l.hallTag = some w) ∧
    n + (t.cache p).lines.length = (s.cache p).lines.length ∧
    Tbl.getD (t.cache p).counters 5 0 = satAdd 64 (Tbl.getD (s.cache p).counters 5 0) n) ∧
  (∀ (s : State) (y : Resync), s.fab.resync = some y → y.done = false → y.failed = false → s.fab.twin = .resync →
    (∀ t ∈ y.todo, t.2 = [] ∧ (s.chan t.1).st = .idle) →
    ∃ t, exec .resyncDone s = .next t ∧ t = { s with fab := t.fab, log := t.log, helm := t.helm } ∧ t.fab = { s.fab with resync := some { y with done := true } })

/-! ### Waypoints, regions and collectives -/

/-- 08: R246, R253, R261 to R263, R265, R276, R593; 10: R341. A package whose stores are home and whose children have arrived has arrived itself; a commit moves its waypoint, puts its
armed regions into effect and answers the command, and an abort leaves it where it was. A member that hears nothing drops its leases and asks the root. -/
def Obligations.AdvancesArriveCommitAndAbort : Prop :=
  (∀ (s : State) (tag : Nat) (a : Advance), (s.tagSt tag).advance = some a → a.entered = true →
    let g := s.tagSt tag
    let here := fun (as : List Nat) => (g.children a.root s.ownNode).all (fun k => as.contains k)
    (s.storesDone tag = true → ∃ t, exec (.waypointStoresDrained tag) s = .next t ∧ t.mem = s.mem ∧
      t.tagSt tag = { g with advance := some { a with drained := true, arrived := a.arrived || here a.arrivals } } ∧
      ∀ k, k ≠ tag → t.tagSt k = s.tagSt k) ∧
    (s.storesDone tag = false → exec (.waypointStoresDrained tag) s = .next s) ∧
    (∀ child, g.member = true → child ∉ a.arrivals → ∃ t, exec (.arrive tag child) s = .next t ∧ t.mem = s.mem ∧
      t.tagSt tag = { g with advance := some { a with
        arrivals := a.arrivals ++ [child], arrived := a.arrived || (a.drained && here (a.arrivals ++ [child])) } } ∧
      ∀ k, k ≠ tag → t.tagSt k = s.tagSt k)) ∧
  (∀ (s : State) (tag child : Nat), (s.tagSt tag).member = true → (s.tagSt tag).advance = none → child ∉ (s.tagSt tag).early →
    ∃ t, exec (.arrive tag child) s = .next t ∧ t.tagSt tag = { s.tagSt tag with early := (s.tagSt tag).early ++ [child] }) ∧
  (∀ (s : State) (tag value : Nat) (seeds : List (Nat × Nat)) (draws : List (List Nat)) (a : Advance), (s.tagSt tag).advance = some a →
    a.arrived = true → a.target = value → tag ≠ 0 → (s.tagSt tag).regionOp = none →
    ∃ t, exec (.waypointCommit tag value seeds draws) s = .next t ∧ t.mem = s.mem ∧ (t.tagSt tag).advance = none ∧
      (t.tagSt tag).waypoint = some value ∧ (t.tagSt tag).regions = regionsAfter (s.tagSt tag).regions ∧
      (∀ k, k ≠ tag → (t.tagSt k).waypoint = (s.tagSt k).waypoint) ∧
      ∀ w, a.waiter = some w → s.awaits w → t.answered w.1 0x0043 0 w.2 (leBytes 6 value)) ∧
  (∀ (s : State) (value : Nat) (seeds : List (Nat × Nat)) (draws : List (List Nat)) (a : Advance), (s.tagSt 0).advance = some a →
    a.arrived = true → a.target = value → s.upd.castArm = none → s.upd.updArm = none → s.fab.twinArm = none → (Tbl.keys s.tags).Nodup →
    ∃ t, exec (.waypointCommit 0 value seeds draws) s = .next t ∧ (t.tagSt 0).waypoint = some value ∧ (t.tagSt 0).advance = none ∧
      (∀ k, k ≠ 0 → (s.tagSt k).member = true → (t.tagSt k).waypoint = (s.tagSt k).waypoint.map (fun v => addMod 48 v 1)) ∧
      (∀ i, i < seeds.length → Tbl.getD t.fab.s0 i 0 = (seeds.getD i (0, 0)).1 % 2 ^ 64 ∧
        Tbl.getD t.fab.s1 i 0 = (seeds.getD i (0, 0)).2 % 2 ^ 64)) ∧
  (∀ (s : State) (tag : Nat) (a : Advance), (s.tagSt tag).advance = some a →
    let g := s.tagSt tag
    let kept := leBytes 6 (g.waypoint.getD 0)
    (∀ missing, a.root ≠ s.ownNode → ∃ t, exec (.waypointAbort tag missing) s = .next t ∧ t.mem = s.mem ∧ (t.tagSt tag).advance = none ∧
      (t.tagSt tag).early = [] ∧ (t.tagSt tag).waypoint = g.waypoint ∧
      (tag ≠ 0 → (t.tagSt tag).regions = g.regions.map (fun r => { r with afterNext := false })) ∧
      ∀ w, a.waiter = some w → s.awaits w → t.answered w.1 0x0043 0x10 w.2 (kept ++ leBytes 2 missing.length)) ∧
    (a.root = s.ownNode → a.entered = true → a.arrived = false →
      let missing := (if a.drained then [] else [s.ownNode]) ++
        ((g.children a.root s.ownNode).filter (fun k => !a.arrivals.contains k)).flatMap (g.subtree a.root 4)
      ∃ t, exec (.rootWaypointTimeout tag) s = .next t ∧ t.mem = s.mem ∧ (t.tagSt tag).advance = none ∧ (t.tagSt tag).lastMissing = missing ∧
        (t.tagSt tag).waypoint = g.waypoint ∧
        ∀ w, a.waiter = some w → s.awaits w → t.answered w.1 0x0043 0x10 w.2 (kept ++ leBytes 2 missing.length)) ∧
    (a.root ≠ s.ownNode → a.arrived = true → a.asking = false → ∃ t, exec (.memberWaypointTimeout tag) s = .next t ∧
      (t.tagSt tag).advance = some { a with asking := true } ∧ (t.tagSt tag).waypoint = g.waypoint ∧ t.mem = s.mem ∧
      ∀ p, p < 4 → ∀ l, l ∈ (t.cache p).lines ↔ l ∈ (s.cache p).lines ∧ (l.isFixed = true ∨ (s.tagsOf tag).contains l.hallTag = false)) ∧
    (∀ w, a.root ≠ s.ownNode → a.arrived = true → a.asking = true → a.waiter = some w → s.awaits w →
      ∃ t, exec (.memberWaypointTimeout tag) s = .next t ∧ (t.tagSt tag).advance = some { a with waiter := none, answered := true } ∧
        t.answered w.1 0x0043 0x10 w.2 (kept ++ leBytes 2 0xFFFF))) ∧
  (∀ (s : State) (tag : Nat) (missing : List Nat), (s.tagSt tag).advance = none → (s.tagSt tag).member = true → s.abortRoot tag ≠ s.ownNode → tag ≠ 0 →
    (s.tagSt 0).advance = none →
    ∃ t, exec (.waypointAbort tag missing) s = .next t ∧ t.mem = s.mem ∧ (t.tagSt tag).waypoint = (s.tagSt tag).waypoint ∧ (t.tagSt tag).early = [] ∧
      (t.tagSt tag).advance = none) ∧
  (∀ (s : State) (tag asker v : Nat), (s.tagSt tag).member = true → ((s.tagSt tag).advance = none ∨ s.outcomeAsked tag asker = false) →
    s.waypointHeld tag = some v →
    ∃ t u, exec (.waypointReportRequest tag asker) s = .next t ∧ s.arrivedFrom u ∧
      t = u.sendCtl asker opReport tag v (missingBytes (s.tagSt tag).lastMissing)) ∧
  (∀ (s : State) (tag asker : Nat), (s.tagSt tag).advance ≠ none → s.outcomeAsked tag asker = true →
    ∃ t, exec (.waypointReportRequest tag asker) s = .next t ∧ s.arrivedFrom t) ∧
  (∀ (s : State) (tag value : Nat) (missing : List Nat) (seeds : List (Nat × Nat)) (draws : List (List Nat)),
    ((s.tagSt tag).asking = true → ∃ t, exec (.waypointReport tag value missing seeds draws) s = .next t ∧
      t.tagSt tag = { s.tagSt tag with waypoint := some (value % 2 ^ 48), asking := false } ∧ ∀ k, k ≠ tag → t.tagSt k = s.tagSt k) ∧
    (∀ a, (s.tagSt tag).asking = false → (s.tagSt tag).advance = some a → a.asking = true → tag ≠ 0 →
      ∃ t, exec (.waypointReport tag value missing seeds draws) s = .next t ∧ (t.tagSt tag).advance = none ∧
        (t.tagSt tag).waypoint = (if value = a.target then some value else (s.tagSt tag).waypoint))) ∧
  (∀ (s : State) (tag : Nat), ((s.tagSt tag).asking = true → exec (.membershipRequestRetry tag) s =
      .next (s.sendCtl (s.tagSt tag).rootNode opReportRequest tag 0 [])) ∧
    ((s.tagSt tag).asking = false → exec (.membershipRequestRetry tag) s = .next s))

/-- 08: R252 to R256, R276; 13: R416. A member arms a region once and acknowledges one it holds; an unfix takes its lines, then its row; the acknowledgements end the
command that asked, and its timeout ends it too.

08: R266 to R270. Packets of other members gather, phase 0 takes in the own contribution, each phase begins once the one before it has made its exchanges,
the last one's end stores the result and posts the record, and an error or the timeout ends the collective with its status. -/
def Obligations.RegionsAndCollectivesRun : Prop :=
  ((∀ (s : State) (tag node base len asker : Nat), (s.tagSt tag).member = true →
    let g := s.tagSt tag
    ((∀ r ∈ g.regions, r.same node base len = true → r.st = .unfixing) → ∃ t, exec (.fix tag node base len asker) s = .next t ∧
      t.tagSt tag = { g with regions := g.regions.filter (fun r => !r.same node base len) ++
        [{ node := node, base := base, length := len, st := .armed, asker := asker
           afterNext := (g.advance.map (·.entered)).getD false || ((s.tagSt 0).advance.map (·.entered)).getD false }] } ∧
      (∀ k, k ≠ tag → t.tagSt k = s.tagSt k) ∧ t.caches = s.caches) ∧
    (asker ≠ s.ownNode → (∃ r ∈ g.regions, r.same node base len = true ∧ r.st ≠ .unfixing) →
      ∃ t u, exec (.fix tag node base len asker) s = .next t ∧ s.arrivedFrom u ∧ t = u.sendCtl asker opFixAck tag 1 []) ∧
    (asker ≠ s.ownNode → ∃ t, exec (.unfixInvalidate tag node base len asker) s = .next t ∧ t.mem = s.mem ∧
      t.tagSt tag = { g with regions := g.regions.map (fun r => if r.same node base len then { r with st := .unfixing } else r) } ∧
      ∀ p, p < 4 → ∀ l, l ∈ (t.cache p).lines ↔ l ∈ (s.cache p).lines ∧ ¬(l.hallTag = tag ∧ l.isFixed = true ∧ nodeOf (256 * l.block) = node ∧
        base < localOf (256 * l.block) + 256 ∧ localOf (256 * l.block) < base + len)) ∧
    (asker ≠ s.ownNode → ∃ t, exec (.unfixRelease tag node base len asker) s = .next t ∧ t.caches = s.caches ∧
      t.tagSt tag = { g with regions := g.regions.filter (fun r => !r.same node base len) })) ∧
  (∀ (s : State) (tag member phase : Nat) (o : RegionOp), (s.tagSt tag).regionOp = some o → o.phase = phase → s.awaits o.waiter →
    let g := s.tagSt tag
    let acked := if o.acked.contains member then o.acked else o.acked ++ [member]
    ((∃ n ∈ g.nodes, n ∉ acked) → ∃ t, exec (.fixAck tag member phase) s = .next t ∧
      t.tagSt tag = { g with regionOp := some { o with acked := acked } }) ∧
    ((∀ n ∈ g.nodes, n ∈ acked) → (o.unfix = false ∨ phase ≠ 1) → ∃ t, exec (.fixAck tag member phase) s = .next t ∧
      t.tagSt tag = { g with regionOp := none } ∧ t.answered o.waiter.1 (if o.unfix then 0x0046 else 0x0045) 0 o.waiter.2 []) ∧
    ((∀ n ∈ g.nodes, n ∈ acked) → o.unfix = true → phase = 1 → (∃ n ∈ g.nodes, n ≠ s.ownNode) →
      ∃ t, exec (.fixAck tag member phase) s = .next t ∧ t.tagSt tag =
        { g with regionOp := some { o with phase := 2, acked := [s.ownNode] }
                 regions := g.regions.filter (fun r => !r.same o.node o.base o.length) })) ∧
  (∀ (s : State) (tag : Nat) (o : RegionOp), (s.tagSt tag).regionOp = some o → s.awaits o.waiter →
    ∃ t, exec (.regionFixTimeout tag) s = .next t ∧ t.tagSt tag = { s.tagSt tag with regionOp := none } ∧
      t.answered o.waiter.1 (if o.unfix then 0x0046 else 0x0045) 0x10 o.waiter.2 [] ∧ t = { s with tags := t.tags, helm := t.helm })) ∧
  ((∀ (s : State) (id member : Nat) (data : List Byte) (c : Coll), s.coll? id = some c → member ≠ s.collMe c →
    member < (s.collNodes c).length →
    ∃ t c', exec (.collData id member data) s = .next t ∧ t.mem = s.mem ∧ t.coll? id = some c' ∧ c'.phase = c.phase ∧ c.step ≤ c'.step ∧
      (c.steps ≤ c.step → c' = { c with inq := Tbl.upd c.inq member [] (fun q => q ++ [data]) })) ∧
  (∀ (s : State) (id st : Nat) (c : Coll), s.coll? id = some c → st ≠ 0 →
    ∃ t, exec (.collectivePhaseDone id st) s = .next t ∧ t.coll? id = none ∧
      t.completed (8 * c.partition + c.mailbox) 0x0002 collUnit (leBytes 8 id ++ leBytes 1 st)) ∧
  (∀ (s : State) (id : Nat) (c : Coll), s.coll? id = some c →
    let n := (s.collNodes c).length
    let me := s.collMe c
    (0 < c.phase → c.steps ≤ c.step → c.phase < c.phases.length → ∃ t c', exec (.collectivePhaseDone id 0) s = .next t ∧ t.mem = s.mem ∧
      t.coll? id = some c' ∧ c'.phase = c.phase + 1 ∧ (c'.step = 0 → c'.items = c.items.filter (fun x => c.holds n c.phase me x.1))) ∧
    (0 < c.phase → c.step < c.steps → ∃ t c', exec (.collectivePhaseDone id 0) s = .next t ∧ t.mem = s.mem ∧ t.coll? id = some c' ∧ c'.phase = c.phase ∧
      c.step ≤ c'.step) ∧
    (c.phase = 0 →
      let len := if c.op = 1 then 0 else c.count
      (len ≠ 0 → s.windowOk c.partition c.src len accRead = true) → s.runBusy (localOf c.src) len = false →
      ((∃ b ∈ blocksOf (localOf c.src) len, s.isPoison (256 * b) = true) → ∃ t, exec (.collectivePhaseDone id 0) s = .next t ∧ t.coll? id = none ∧
        t.completed (8 * c.partition + c.mailbox) 0x0002 collUnit (leBytes 8 id ++ leBytes 1 2)) ∧
      ((∀ b ∈ blocksOf (localOf c.src) len, s.isPoison (256 * b) = false) →
      ∃ t c', exec (.collectivePhaseDone id 0) s = .next t ∧ t.mem = s.mem ∧ t.coll? id = some c' ∧ c'.phase = 1 ∧
        (c'.step = 0 → c'.items = c.ownItems n me (Store.readN s.mem (localOf c.src) len)))) ∧
    (0 < c.phase → c.steps ≤ c.step → c.phases.length ≤ c.phase → c.stored = false → s.fab.twin = .none →
      s.collStores c = false →
      let len := c.outLen n me
      let data := (c.result n me).take len
      s.windowOk c.partition c.dst len accWrite = true → s.inFixed c.dst len = false → s.runBusy (localOf c.dst) len = false →
      data ≠ [] → localOf c.dst % 256 + data.length ≤ 256 →
      ∃ t, exec (.collectivePhaseDone id 0) s = .next t ∧ t.coll? id = none ∧
        t.mem = Store.writeMasked s.mem (localOf c.dst) data (data.map (fun _ => true)) ∧
        t.completed (8 * c.partition + c.mailbox) 0x0002 collUnit (leBytes 8 id ++ leBytes 1 0))) ∧
  (∀ (s : State) (id : Nat) (c : Coll), s.coll? id = some c → ∃ t, exec (.collTimeoutExpiry id) s = .next t ∧ t.coll? id = none ∧
    t.completed (8 * c.partition + c.mailbox) 0x0002 collUnit (leBytes 8 id ++ leBytes 1 3)))

/-! ### Beacons -/

/-- 09: R284, R289 to R294, R306. A locked ring's loop takes one proportional-integral step per band and set-point, is UNLOCKED after ten steps out of range and locked again by the first
in range; a feed-forward notice ramps every ring; a missed heartbeat freezes the controller; a fit replaces a bank's matrix unless a ring of it sweeps. -/
def Obligations.RingLoopsAndMatricesAct : Prop :=
  (∀ (s : State) (b k m : Nat), s.beaconOn b = true → (s.beacon b).frozen = false → k < 576 → m < 4096 → (s.ring b k).retired = false →
    let r := s.ring b k
    let e := s.beacon b
    let kp : Int := if e.band = 0 then 2400 else if e.band = 1 then 2000 else 1600
    let ki : Int := if e.band = 0 then 300 else if e.band = 1 then 260 else 220
    let set : Int := if e.band < 2 then (if lineSide k = 0 then 50 else 90) else (if lineSide k = 0 then 55 else 88)
    let err : Int := set * r.peak - 100 * m
    let ok := 0 < r.peak ∧ r.peak ≤ 5 * m ∧ m ≤ r.peak
    (r.st = .locked → 0 < r.peak → r.rampSteps = 0 → (ok ∨ r.steps < 9) → ∃ t, exec (.heaterLoopStep b k m) s = .next t ∧
      t = { s with beacons := t.beacons } ∧ (t.ring b k).st = .locked ∧ (t.ring b k).integ = r.integ + 256 * ki * err / (100 * r.peak) ∧
      (t.ring b k).out = (t.ring b k).integ / 256 + kp * err / (100 * r.peak) ∧ (ok → (t.ring b k).steps = 0) ∧
      (¬ok → (t.ring b k).steps = r.steps + 1) ∧ ∀ j, j ≠ k → t.ring b j = s.ring b j) ∧
    (r.st = .locked → ¬ok → 9 ≤ r.steps → r.attempts < 2 → ∃ t, exec (.heaterLoopStep b k m) s = .next t ∧ (t.ring b k).st = .sweeping ∧
      (t.ring b k).unlockSeen = true ∧ (t.ring b k).attempts = r.attempts + 1 ∧
      Tbl.getD (t.ring b k).counters 1 0 = satAdd 32 (Tbl.getD r.counters 1 0) 1 ∧
      ((s.lane b k).st = .active → (t.lane b k).st = .withdrawn)) ∧
    (r.st = .sweeping → k ∉ e.sights → ok → ∃ t, exec (.heaterLoopStep b k m) s = .next t ∧ (t.ring b k).st = .locked ∧
      (t.ring b k).attempts = 0 ∧ (t.ring b k).heater = r.lineCode) ∧
    (r.st = .sweeping → k ∉ e.sights → ¬ok → r.steps < 42 →
      exec (.heaterLoopStep b k m) s = .next (s.setRing b k { r with steps := r.steps + 1 }))) ∧
  (∀ (s : State) (b k m : Nat), (s.beacon b).frozen = true → exec (.heaterLoopStep b k m) s = .next s) ∧
  (∀ (s : State) (b rate : Nat), s.beaconOn b = true → ∃ t, exec (.feedForwardNotice b rate) s = .next t ∧
    t = { s with beacons := t.beacons, hubQ := t.hubQ } ∧ (t.beacon b).spoiled = (s.beacon b).sights ∧
    ∀ k, k < 576 → (s.ring b k).retired = false → t.ring b k = { s.ring b k with
      ramp := (s.ring b k).ramp - ((256 * ffCoef (s.beacon b).band * rate * Config.codesPerDegree b k / 400 : Nat) : Int), rampSteps := 100 }) ∧
  (∀ (s : State) (b : Nat), s.beaconOn b = true →
    exec (.exsarHeartbeatMiss b) s = .next (s.setBeacon b { s.beacon b with frozen := true, autonomous := false }) ∧
    (∃ t, exec (.exsarHeartbeat b) s = .next t ∧ (t.beacon b).frozen = false ∧ (t.beacon b).autonomous = false ∧ (t.beacon b).owed = [] ∧
      ∀ k ∈ (s.beacon b).owed, (t.lane b k).st = .retired) ∧
    ((s.beacon b).frozen = true → ∃ t, exec (.heartbeatAutonomyTimeout b) s = .next t ∧ (t.beacon b).frozen = false ∧
      (t.beacon b).autonomous = true ∧ ∀ k ∈ (s.beacon b).owed, (t.lane b k).st = .retired)) ∧
  (∀ (s : State) (b bank : Nat), s.beaconActs b = true →
    (bank < 32 → (∀ m ∈ Tbl.vals (s.beacon b).matrices, m.fitting = false) → s.bankSweeps b bank = false → ∃ t, exec (.matrixFit b bank) s = .next t ∧
      t = { s with beacons := t.beacons } ∧ t.matrix b bank = { s.matrix b bank with fitting := true } ∧
      ∀ j, j ≠ bank → t.matrix b j = s.matrix b j) ∧
    (∀ res entries, (s.matrix b bank).fitting = true → entries.length = 324 →
      (s.bankSweeps b bank = true → exec (.matrixFitDone b bank res entries) s = .next s) ∧
      (s.bankSweeps b bank = false → ∃ t, exec (.matrixFitDone b bank res entries) s = .next t ∧ t = { s with beacons := t.beacons } ∧
        (t.matrix b bank).fitting = false ∧ (t.matrix b bank).fitCount = addMod 16 (s.matrix b bank).fitCount 1 ∧
        (t.matrix b bank).residual = res % 65536 ∧ ∀ i, i < 324 → t.matrixEntry b bank i = entries.getD i 0 % 65536)))

/-- 09: R292, R295 to R297, R303, R306, R308; 04: R141. The oldest ring with a window is sighted and takes its line and peak when the sight is done; notices and idle ports open
windows, and a ring past its age forces one. -/
def Obligations.SightsAreTaken : Prop :=
  (∀ (s : State) (b k : Nat), s.beaconActs b = true → k < 576 →
    let e := s.beacon b
    (s.sightable b k = true → e.sights.length < s.setting 0x00030003 →
      (∀ j, j < 576 → s.sightable b j = true → (s.ring b k).lastSight ≤ (s.ring b j).lastSight) → ∃ t, exec (.sight b k) s = .next t ∧
        (t.beacon b).sights = e.sights ++ [k] ∧ (t.ring b k).st = .sweeping ∧
        ((s.lane b k).st = .active → (t.lane b k).st = .withdrawn ∧ (t.lane b k).sighted = true) ∧ t.mem = s.mem) ∧
    (s.setting 0x00030003 ≤ e.sights.length → exec (.sight b k) s = .next s) ∧
    (∀ peak code, k ∈ e.sights → lineSide k = 1 → (s.lane b k).st = .withdrawn → (s.lane b k).sighted = true → (s.lane b k).clean < 32 →
      exec (.sightDone b k peak code) s = .next s) ∧
    (∀ peak code, k ∈ e.sights → k ∉ e.spoiled → (∀ w ∈ e.laneWaits, w.1 ≠ k) → (lineSide k = 1 → 32 ≤ (s.lane b k).clean) → ∃ t, exec (.sightDone b k peak code) s = .next t ∧
      (t.ring b k).st = .locked ∧ (t.ring b k).peak = peak ∧ (t.ring b k).lineCode = code ∧ (t.ring b k).heater = code ∧
      (t.ring b k).lastSight = s.now (16 + b) ∧ (t.beacon b).sights = e.sights.filter (fun x => x ≠ k) ∧
      Tbl.getD (t.ring b k).counters 2 0 = satAdd 32 (Tbl.getD (s.ring b k).counters 2 0) 1 ∧
      ((s.lane b k).st = .withdrawn → (s.lane b k).sighted = true → (t.lane b k).st = .active)) ∧
    (∀ peak code, k ∈ e.sights → k ∈ e.spoiled → (lineSide k = 1 → 32 ≤ (s.lane b k).clean) → exec (.sightDone b k peak code) s =
      .next (s.setBeacon b { e with spoiled := e.spoiled.filter (fun x => x ≠ k) })) ∧
    (∀ peak code w, k ∈ e.sights → k ∉ e.spoiled → (s.lane b k).st ≠ .withdrawn → e.laneWaits.find? (fun x => x.1 == k) = some (k, w) → s.awaits w →
      ∃ t, exec (.sightDone b k peak code) s = .next t ∧ (t.lane b k).st = .spare ∧ (t.ring b k).st = .locked ∧
        t.answered w.1 0x004A 0 w.2 (leBytes 1 (t.linesIn b (linePort k) (lineSide k) .active).length ++ leBytes 3 0)) ∧
    ((s.ring b k).st = .locked → (s.ring b k).retired = false → k ∉ e.sights →
      (s.lane b k).degraded = true ∨ s.setting 0x00030001 * 156250 < subMod 64 (s.now (16 + b)) (s.ring b k).lastSight →
      (s.setting 0x00030003 ≤ e.sights.length → ∃ t, exec (.forcedSight b k) s = .next t ∧ k ∈ (t.beacon b).forced ∧ t.ring b k = s.ring b k ∧
        (t.beacon b).counters = e.counters) ∧
      (e.sights.length < s.setting 0x00030003 → (∀ x ∈ e.sights, linePort x ≠ linePort k) → ∃ t, exec (.forcedSight b k) s = .next t ∧
        (t.beacon b).sights = e.sights ++ [k] ∧ (t.ring b k).st = .sweeping ∧
        Tbl.getD (t.beacon b).counters 1 0 = satAdd 32 (Tbl.getD e.counters 1 0) 1))) ∧
  (∀ (s : State) (b pl hold : Nat) (p : Pipe), s.beaconOn b = true → s.pipe? pl = some p → p.gap = .opened → b ∉ p.gapReleased →
    ∃ t, exec (.gapNotice b pl hold) s = .next t ∧ t = { s with beacons := t.beacons, hubQ := t.hubQ } ∧
      t.beacon b = { s.beacon b with notices := (s.beacon b).notices.filter (fun n => n.1 ≠ pl) ++ [(pl, hold, s.now (16 + b))] }) ∧
  (∀ (s : State) (b q : Nat), s.beaconOn b = true → q ∉ (s.beacon b).idlePorts →
    exec (.idleWindowExpiry b q) s = .next (s.setBeacon b { s.beacon b with idlePorts := (s.beacon b).idlePorts ++ [q] }))

/-- 09: R279, R280, R282, R283, R295, R301, R304, R305; 10: R315. A receive line's errors, tags and silence: codewords are counted and their blocks wait for those of the other
lanes, 32 clean ones bring a lane back, a fourth wrong tag is a mislock, a lane whose ratio or whose uncorrectable codewords pass the limit is withdrawn and at its third
failure retired. Blocks go out round the active lanes in their order.

09: R286, R287, R298 to R300; 10: R334, R338; 13: R417. A re-point goes through its steps, its banks down from the first; the far end's lane list and the laser module's flags
are taken, and a module that does not answer takes the transmit directions down. -/
def Obligations.LanesAndModulesAreWatched : Prop :=
  (∀ (s : State) (b q : Nat) (block : List Byte), let e := s.tx b q
    let n := e.rota.length
    e.block ≠ 0 → 0 < n →
    ((s.putBlock b q block).tx b q).block = (e.block + 1) % (64 * n) ∧
    ((s.putBlock b q block).tx b q).words.getLast? = some { line := e.rota.getD (e.block % n) 0, place := e.block / n
                                                            header := wordHeader (e.rota.getD (e.block % n) 0) (e.block / n == 0) false, block := block }) ∧
  ((∀ (s : State) (b k : Nat), s.beaconOn b = true → lineSide k = 1 → k < 576 →
    let l := s.lane b k
    let r := s.ring b k
    (l.st = .active → berAbove l.farWords l.farErrs (s.setting 0x00030004) = false →
      exec (.laneBerEvaluation b k true) s = .next (s.setLane b k { l with farWords := 0, farErrs := 0, degraded := false })) ∧
    (l.st = .active → berAbove l.farWords l.farErrs (s.setting 0x00030004) = true → l.degraded = false →
      ∃ t, exec (.laneBerEvaluation b k true) s = .next t ∧ (t.lane b k).degraded = true ∧
        k ∈ (t.beacon b).forced ∧ k - 288 ∈ (t.beacon b).forced ∧ (t.lane b k).st = .active) ∧
    (l.st = .active → l.nearLost ≤ 16 → berAbove l.nearWords l.nearErrs 3 = false →
      exec (.laneBerEvaluation b k false) s = .next (s.setLane b k { l with nearWords := 0, nearErrs := 0, nearLost := 0 })) ∧
    (l.st = .active → (16 < l.nearLost ∨ berAbove l.nearWords l.nearErrs 3 = true) → l.fails = [] → r.attempts < 2 →
      ∃ t, exec (.laneBerEvaluation b k false) s = .next t ∧ (t.lane b k).st = .withdrawn ∧
        (t.lane b k).fails = [s.now (16 + b)] ∧ (t.ring b k).st = .sweeping) ∧
    (l.st = .active → 16 < l.nearLost → l.fails.length = 2 → (∀ x ∈ l.fails, subMod 64 (s.now (16 + b)) x < 10 * 156250000) →
      (s.beacon b).frozen = false →
      ∃ t, exec (.laneBerEvaluation b k false) s = .next t ∧ (t.lane b k).st = .retired ∧ (t.ring b k).retired = true) ∧
    (∀ header errors bs, l.st ≠ .retired → 7 < errors → ∃ t, exec (.codewordRx b k header errors bs) s = .next t ∧
      Tbl.getD (t.lane b k).counters 0 0 = satAdd 64 (Tbl.getD l.counters 0 0) 1 ∧
      (((t.lane b k).good = 0 ∧ (t.lane b k).clean = 0 ∧ Tbl.getD (t.lane b k).counters 2 0 = satAdd 32 (Tbl.getD l.counters 2 0) 1) ∨
        Tbl.getD (t.lane b k).counters 2 0 = Tbl.getD l.counters 2 0)) ∧
    (∀ header bs p, l.st = .active → l.frameLock = true → l.mark = some p → l.inq = [] → (s.rx b (linePort k)).rota = List.range 16 → k % 18 < 15 →
      (s.lane b (lineKey 1 (linePort k) 15)).inq = [] → (∀ i, (s.lane b (lineKey 1 (linePort k) i)).inq.length ≤ 2) → p ≠ 0 → (s.rx b (linePort k)).place ≠ 0 →
      parity 10 (header % 1024) = 0 → header % 32 = lineIdx k → headerMark header = false → headerFill header = false →
      ∃ t, exec (.codewordRx b k header 0 bs) s = .next t ∧ (t.lane b k).mark = some ((p + 1) % 64) ∧
        (t.lane b k).inq = [(p, some (scramble (lineIdx k) p bs))]) ∧
    (∀ header errors bs, l.st = .active → errors ≤ 7 → header % 32 = lineIdx k → ∃ t, exec (.codewordRx b k header errors bs) s = .next t ∧
      (t.lane b k).good = (if parity 10 (header % 1024) = 0 then l.good + 1 else 0) ∧ (t.lane b k).wrong = 0 ∧
      (t.lane b k).frameLock = (l.frameLock || (decide (parity 10 (header % 1024) = 0) && decide (3 ≤ l.good))) ∧
      (t.lane b k).st = .active ∧ t.ring b k = r ∧ Tbl.getD (t.lane b k).counters 1 0 = satAdd 64 (Tbl.getD l.counters 1 0) errors) ∧
    (∀ header errors bs, l.st = .withdrawn → errors ≤ 7 → header % 32 = lineIdx k → 31 ≤ l.clean → r.st = .locked →
      ∃ t, exec (.codewordRx b k header errors bs) s = .next t ∧ (t.lane b k).st = .active ∧ (t.lane b k).sighted = false) ∧
    (∀ header errors bs, l.st = .active → errors ≤ 7 → header % 32 ≠ lineIdx k → 3 ≤ l.wrong → r.st = .locked → r.mislocks = [] → r.attempts < 2 →
      ∃ t, exec (.codewordRx b k header errors bs) s = .next t ∧ (t.ring b k).mislockSeen = true ∧ (t.ring b k).st = .sweeping ∧
        (t.lane b k).st = .withdrawn ∧ Tbl.getD (t.ring b k).counters 0 0 = satAdd 32 (Tbl.getD r.counters 0 0) 1 ∧
        Tbl.getD (t.lane b k).counters 3 0 = satAdd 32 (Tbl.getD l.counters 3 0) 1) ∧
    (r.st = .locked → r.retired = false → l.st = .active → l.fails = [] → r.attempts < 2 →
      ∃ t, exec (.silentLaneTimeout b k none) s = .next t ∧ (t.lane b k).frameLock = false ∧ (t.lane b k).st = .withdrawn ∧
        (t.ring b k).st = .sweeping) ∧
    (∀ j, r.st = .locked → r.retired = false → (s.ring b j).st = .locked → (s.ring b j).retired = false → (s.ring b j).mislocks = [] →
      (s.ring b j).attempts < 2 → ∃ t, exec (.silentLaneTimeout b k (some j)) s = .next t ∧ (t.ring b j).mislockSeen = true ∧
        (t.ring b j).st = .sweeping))) ∧
  ((∀ (s : State) (b cfg : Nat), s.beaconActs b = true → (s.beacon b).repointTo = some cfg →
    let e := s.beacon b
    (e.repointStep = 0 → (∀ q ∈ e.quiesce, (s.tx b q).unacked = []) → ∃ t, exec (.repoint b 1) s = .next t ∧ (t.beacon b).repointStep = 1 ∧
      (t.beacon b).repointTo = some cfg ∧ ∀ q ∈ e.quiesce, (t.tx b q).st = .down) ∧
    (e.repointStep = 0 → (∃ q ∈ e.quiesce, (s.tx b q).unacked ≠ []) → exec (.repoint b 1) s = .next s) ∧
    (e.repointStep = 0 → ∃ t, exec (.hallRepointRelease b) s = .next t ∧ (t.beacon b).repointStep = 1 ∧
      ∀ q ∈ e.quiesce, (t.tx b q).st = .down) ∧
    (e.repointStep = 1 → exec (.repoint b 2) s = .next (s.setBeacon b { e with repointStep := 2, config := cfg, fibres := s.switchCfg b cfg })) ∧
    (e.repointStep = 2 → exec (.repoint b 3) s = .next (s.setBeacon b { e with repointStep := 3 })) ∧
    (e.repointStep = 3 → s.noneWait → ∃ t, exec (.repoint b 4) s = .next t ∧ (t.beacon b).repointTo = none ∧ (t.beacon b).quiesce = [] ∧
      (t.beacon b).config = e.config ∧ Tbl.getD (t.beacon b).counters 2 0 = satAdd 32 (Tbl.getD e.counters 2 0) 1 ∧
      ∀ w, e.repointWait = some w → s.awaits w → t.answered w.1 0x0049 0 w.2 [])) ∧
  (∀ (s : State) (b q mask : Nat),
    ((s.tx b q).st = .down → exec (.linkLanes b q 1 mask) s = .next (s.setTx b q { s.tx b q with unusable := mask % 2 ^ 18 })) ∧
    ((s.rx b q).st = .down → exec (.linkLanes b q 0 mask) s = .next (s.setRx b q { s.rx b q with unusable := mask % 2 ^ 18 })) ∧
    (let u := s.setTx b q { s.tx b q with unusable := mask % 2 ^ 18 }
     let n := (u.agreed b q 0).length
     (s.tx b q).st ≠ .down → ∃ t, exec (.linkLanes b q 1 mask) s = .next t ∧ (t.tx b q).unusable = mask % 2 ^ 18 ∧ (t.tx b q).lanes = n ∧
       (t.tx b q).st = (if n < 8 then .down else (s.tx b q).st))) ∧
  (∀ (s : State) (b flags : Nat) (lost : List Nat), s.beaconOn b = true →
    (∀ i ∈ [Instr.cmisFlagPoll b flags [] [], Instr.lsmInterrupt b flags [] []], exec i s =
      .next (s.setBeacon b { s.beacon b with laserFlags := flags, laserFault := false, darkFeeds := [] })) ∧
    (lost ≠ [] → ∀ i ∈ [Instr.cmisFlagPoll b flags lost [], Instr.lsmInterrupt b flags lost []], ∃ t, exec i s = .next t ∧
      (t.beacon b).laserFlags = flags ∧ Tbl.getD (t.beacon b).counters 3 0 = satAdd 32 (Tbl.getD (s.beacon b).counters 3 0) 1) ∧
    ((s.beacon b).laserFault = false → ∃ t, exec (.laserModuleTimeout b) s = .next t ∧ (t.beacon b).laserFault = true ∧
      ∀ q, q < 16 → (t.tx b q).st = .down)))

/-! ### The fabric link layer -/

/-- 10: R313, R314, R316, R323 to R326, R332, R342; 09: R300. A DATA flit in order brings its units to their home, a repeated one is counted and acknowledged, a bad one is counted; acknowledgements free what
they cover, a NAK in direct mode sends the rest again, and credits only grow. -/
def Obligations.FabricFlitsAndAcknowledgementsAct : Prop :=
  (∀ (s : State) (b q : Nat) (flit : List Byte), (s.die (16 + b)).life = .up → (s.rx b q).st = .up → flit.length = 256 →
    let e := s.rx b q
    let fseq := field flit 0 4 % 2 ^ 20
    let h := field flit 8 4
    let mine := e.ident = some { node := bits 13 0 h, beacon := bits 16 14 h, port := bits 20 17 h, session := bits 28 21 h }
    (crc32c (flit.take 252) ≠ field flit 252 4 → ∃ t, exec (.fabricFlitRx b q flit) s = .next t ∧ (t.rx b q).crcSeen = true ∧
      (t.rx b q).expect = e.expect ∧ t.fab.arrived = s.fab.arrived ∧
      Tbl.getD (t.rx b q).counters 4 0 = satAdd 32 (Tbl.getD e.counters 4 0) 1) ∧
    (crc32c (flit.take 252) = field flit 252 4 → bits 23 20 (field flit 0 4) = 1 → bits 21 20 (field flit 4 4) = 0 → mine →
      (∀ u more, fseq = e.expect → splitUnits 60 (e.partialIn ++ slice flit 12 240) = ([u], more) → nhopsOf u.route ≤ nextOf u.route →
        s.fab.node = some u.pkt.dstNode → u.pkt.ftype < 16 → ∃ t, exec (.fabricFlitRx b q flit) s = .next t ∧
          t.fab.arrived = s.fab.arrived ++ [u.pkt] ∧ (t.rx b q).expect = (fseq + 1) % 2 ^ 20 ∧ (t.rx b q).partialIn = more ∧
          (t.rx b q).nakOut = false ∧ q ∉ (t.beacon b).idlePorts ∧
          Tbl.getD (t.rx b q).counters 0 0 = satAdd 64 (Tbl.getD e.counters 0 0) 1) ∧
      (fseq ≠ e.expect → serialNewer 20 e.expect fseq = true → ∃ t, exec (.fabricFlitRx b q flit) s = .next t ∧
        t.fab.arrived = s.fab.arrived ∧ (t.rx b q).expect = e.expect ∧ (t.rx b q).ackDue = 0 ∧
        Tbl.getD (t.rx b q).counters 5 0 = satAdd 32 (Tbl.getD e.counters 5 0) 1))) ∧
  (∀ (s : State) (b q : Nat) (c : ChanId), (s.rx b q).st = .up → (s.rx b q).ident = some c →
    (∃ t p, exec (.fabricAckTimer b q) s = .next t ∧ (t.rx b q).ackDue = 0 ∧ (t.tx b q).links = (s.tx b q).links ++ [p] ∧ p.ftype = 0x11 ∧
      p.dstNode = c.node ∧ p.payload = linkHead c.beacon c.port c.session ++ leBytes 4 (subMod 20 (s.rx b q).expect 1) ++ leBytes 4 0 ++
        leBytes 8 (s.rx b q).tRef) ∧
    (∃ t p, exec (.creditReportTimer b q) s = .next t ∧ (t.rx b q).reported = (s.rx b q).freed ∧ (t.tx b q).links = (s.tx b q).links ++ [p] ∧
      p.ftype = 0x12 ∧ p.dstNode = c.node ∧ p.payload = linkHead c.beacon c.port c.session ++
        (List.range 6).flatMap (fun i => leBytes 4 (Tbl.getD (s.rx b q).freed i 0)))) ∧
  (∀ (s : State) (b q session ack echo : Nat), (s.tx b q).session = session → (s.tx b q).waiting = [] → (∀ x ∈ s.rxEnds, x.2.pool = []) →
    s.noneWait →
    let e := s.tx b q
    let n := ackedCount ack e.unacked
    (e.st = .up → 0 < n → ∃ t, exec (.linkAck b q session ack 0 echo) s = .next t ∧ (t.tx b q).unacked = e.unacked.drop n ∧
      (t.tx b q).spilled = e.spilled - n ∧ (t.tx b q).expiries = 0 ∧ (t.tx b q).st = .up) ∧
    (e.st = .up → e.hall = false → n < e.unacked.length → ∃ t, exec (.linkAck b q session ack 2 echo) s = .next t ∧
      (t.tx b q).unacked = e.unacked.drop n ∧ (t.tx b q).sent = e.sent ++ e.unacked.drop n ∧
      Tbl.getD (t.tx b q).counters 4 0 = satAdd 32 (Tbl.getD e.counters 4 0) 1) ∧
    (e.st = .up → ∃ t, exec (.linkAck b q session ack 1 echo) s = .next t ∧ (t.tx b q).st = .down) ∧
    (e.st = .bringup → e.echoes.length < 8 → ∃ t, exec (.linkAck b q session ack 0 echo) s = .next t ∧
      (t.tx b q).echoes = e.echoes ++ [subMod 64 (s.now (16 + b)) echo] ∧
      (∀ x ∈ (t.tx b q).echoes, (t.tx b q).rttMeas ≤ x) ∧ (e.echoes.length = 7 → e.granted ≠ [] → (t.tx b q).st = .up))) ∧
  (∀ (s : State) (b q session : Nat) (granted : List Nat), (s.tx b q).session = session → (s.tx b q).st ≠ .down →
    ∃ t, exec (.fabricLinkCredit b q session granted) s = .next t ∧ (t.tx b q).st ≠ .down ∧
      ∀ c, c < 6 → Tbl.getD (t.tx b q).granted c 0 =
        (if Tbl.has (s.tx b q).granted c && !serialNewer 32 (granted.getD c 0 % 2 ^ 32) (Tbl.getD (s.tx b q).granted c 0)
          then Tbl.getD (s.tx b q).granted c 0 else granted.getD c 0 % 2 ^ 32)) ∧
  (∀ (s : State) (b q session ack flags echo : Nat), (s.tx b q).st = .down ∨ session ≠ (s.tx b q).session →
    exec (.linkAck b q session ack flags echo) s = .next s)

/-- 10: R318 to R321, R327, R329, R333 to R337, R343. Channels come up by their hello, start a new session from DOWN, replay on their timer and go down at its eighth expiry; a stalled
pool drops its oldest packet, spill takes the oldest flits, and failed routes are held and let go. -/
def Obligations.ChannelsComeUpAndGoDown : Prop :=
  (∀ (s : State) (b q lanes : Nat), 8 ≤ lanes →
    ((s.tx b q).st = .down → s.canBring b q 0 = true → s.lit b q = true → ∃ t, exec (.channelBringup b q lanes true) s = .next t ∧
      (t.tx b q).st = .bringup ∧ (t.tx b q).session = ((s.tx b q).session + 1) % 256 ∧ (t.tx b q).next = 0 ∧ (t.tx b q).unacked = [] ∧
      (t.tx b q).granted = [] ∧ (t.tx b q).lanes = (s.agreed b q 0).length ∧ (∃ p p', (t.tx b q).links = (s.tx b q).links ++ [p, p'] ∧
        p.ftype = 0x13 ∧ p'.ftype = 0x10)) ∧
    ((s.rx b q).st = .down → s.canBring b q 1 = true → ∃ t, exec (.channelBringup b q lanes false) s = .next t ∧ (t.rx b q).st = .bringup ∧
      (t.rx b q).lanes = (s.agreed b q 1).length)) ∧
  (∀ (s : State) (b q lanes : Nat) (sender : Bool), lanes < 8 → exec (.channelBringup b q lanes sender) s = .next s) ∧
  (∀ (s : State) (b q : Nat) (h : Hello), (s.rx b q).st ≠ .down →
    let c : ChanId := { node := h.node, beacon := h.beacon, port := h.port, session := h.session }
    let e := s.rx b q
    (e.hall = true ∨ h.mode = 0 → e.ident ≠ some c → (∀ x ∈ s.rxEnds, x.2.pool = []) → s.noneWait →
      ∃ t, exec (.linkHello b q h) s = .next t ∧ (t.rx b q).st = .up ∧ (t.rx b q).ident = some c ∧ (t.rx b q).expect = 0 ∧
        (t.rx b q).tRef = h.tRef ∧ (t.rx b q).partialIn = [] ∧
        ∀ k, k < 6 → 1024 - e.poolUse k ≤ Tbl.getD (t.rx b q).freed k 0) ∧
    (e.hall = true ∨ h.mode = 0 → e.ident = some c → ∃ t, exec (.linkHello b q h) s = .next t ∧ (t.rx b q).tRef = h.tRef ∧
      (t.rx b q).expect = e.expect ∧ (t.rx b q).ackDue = 0) ∧
    (e.hall = false → h.mode ≠ 0 → e.ident ≠ none → e.ident ≠ some c → ∃ t, exec (.linkHello b q h) s = .next t ∧ (t.rx b q).st = .down ∧
      (t.rx b q).ident = none) ∧
    (e.hall = false → h.mode ≠ 0 → e.ident = none ∨ e.ident = some c → ∃ t, exec (.linkHello b q h) s = .next t ∧ t = { s with log := t.log, helm := t.helm } ∧
      t.log = s.log.take 0x002A 4 2 (portUnit b q) (s.now (portUnit b q / 128)) (leBytes 1 b ++ leBytes 1 q))) ∧
  (∀ (s : State) (b q : Nat), (s.rx b q).st ≠ .down → s.lockedLanes b q < 8 → ∃ t, exec (.lockLossTimeout b q) s = .next t ∧ (t.rx b q).st = .down ∧
    (t.rx b q).ident = none ∧ ((s.tx b q).hall = false → (t.tx b q).st = .down)) ∧
  (∀ (s : State) (b q : Nat), (s.tx b q).unacked ≠ [] → (s.tx b q).st = .up →
    ((s.tx b q).expiries < 7 → ∃ t, exec (.replayTimerExpiry b q) s = .next t ∧ (t.tx b q).expiries = (s.tx b q).expiries + 1 ∧
      (t.tx b q).sent = (s.tx b q).sent ++ (s.tx b q).unacked ∧ (t.tx b q).unacked = (s.tx b q).unacked ∧
      Tbl.getD (t.tx b q).counters 5 0 = satAdd 32 (Tbl.getD (s.tx b q).counters 5 0) 1) ∧
    (7 ≤ (s.tx b q).expiries → ∃ t, exec (.replayTimerExpiry b q) s = .next t ∧ (t.tx b q).st = .down ∧ (t.tx b q).unacked = [])) ∧
  (∀ (s : State) (b q count : Nat),
    let e := s.tx b q
    let n := min (min count (s.replayCap b q - 6144 - e.spilled)) (e.unacked.length - e.spilled - 6144)
    (0 < n → ∃ t, exec (.spillMove b q count) s = .next t ∧ (t.tx b q).spilled = e.spilled + n ∧ (t.tx b q).spilling = true ∧
      Tbl.getD (t.tx b q).counters 2 0 = satAdd 64 (Tbl.getD e.counters 2 0) n ∧ (t.tx b q).unacked = e.unacked) ∧
    (n = 0 → exec (.spillMove b q count) s = .next s)) ∧
  (∀ (s : State) (b q : Nat) (u : FabUnit) (us : List FabUnit), (s.rx b q).pool = u :: us → ∃ t, exec (.poolStallExpiry b q) s = .next t ∧
    (t.rx b q).pool = us ∧ Tbl.getD (t.beacon b).counters 5 0 = satAdd 32 (Tbl.getD (s.beacon b).counters 5 0) 1) ∧
  (∀ (s : State) (cause hop word : Nat), ∃ t, exec (.routeFail cause hop word) s = .next t ∧ t = { s with fab := t.fab } ∧
    (∀ x ∈ s.fab.heldWords, x ∈ t.fab.heldWords) ∧ (∀ p ∈ s.placesOf (wordKey word), (p, wordKey word) ∈ t.fab.heldWords ∧
      t.wordUsable p word = false)) ∧
  (∀ (s : State) (word : Nat), s.noneWait → ∃ t, exec (.routeFailHoldExpiry word) s = .next t ∧
    t = { s with fab := { s.fab with heldWords := t.fab.heldWords } } ∧ ∀ x, x ∈ t.fab.heldWords ↔ x ∈ s.fab.heldWords ∧ x.2 ≠ wordKey word)

/-! ### Tender descriptors -/

/-- 11: R352, R355 to R359, R363, R364, R591. A channel takes its descriptor, a malformed one ends BAD without moving a byte, a pattern is written into the
local store it names, and a line grants what its source holds. The other host channels of the plinth rest. -/
def Obligations.DescriptorsAreTakenAndServed : Prop :=
  (∀ (s : State) (plinth chan : Nat),
    let k := 64 * plinth + chan
    let c := s.chan k
    let d := Tbl.getD c.slots c.slot (List.replicate 64 0)
    chan < 48 → s.restOf plinth k → c.desc = [] → c.st = .running →
    (c.inlineCur = true → s.malformed plinth c.owner d = true →
      ∃ t, exec (.descriptorStart plinth chan) s = .next t ∧ t = s.setChan k (c.begins d true) ∧ (t.chan k).err = some 7 ∧
        (t.chan k).st = .running ∧ (t.chan k).desc = d) ∧
    (c.inlineCur = true → s.malformed plinth c.owner d = false → ∀ line, dLine d = some line →
      ∃ t, exec (.descriptorStart plinth chan) s = .next t ∧ t.chan k = c.begins d false ∧ (t.chan k).credit = 0 ∧
        Tbl.getD (t.tender plinth).lines line [] = Tbl.getD (s.tender plinth).lines line [] ++ [chan] ∧
        t = { s with chans := t.chans, tenders := t.tenders } ∧ ∀ j, j ≠ k → t.chan j = s.chan j) ∧
    (c.inlineCur = false → c.curDesc % 64 ≠ 0 → c.waiters = [] →
      ∃ t, exec (.descriptorStart plinth chan) s = .next t ∧ (t.chan k).st = .error ∧ (t.chan k).desc = [] ∧
        t = { s with chans := t.chans, log := t.log, helm := t.helm } ∧ ∀ j, j ≠ k → t.chan j = s.chan j) ∧
    (c.inlineCur = true → s.malformed plinth c.owner d = false → dSrcSpace d = 3 → dDstSpace d = 1 → dLine d = none → dExtra d = 0 →
      lsOffset (dDst d) % 256 + dLen d ≤ 256 → 1 ≤ c.weight → 256 ≤ s.setting 0x00040001 → s.slotsUsed plinth < 4096 →
      (s.die (lsDie (dDst d))).life = .up →
      ∃ t, exec (.descriptorStart plinth chan) s = .next t ∧
        (t.stage (lsStage (dDst d))).store =
          Store.writeN (s.stage (lsStage (dDst d))).store (lsOffset (dDst d)) (patternBytes (dSrc d) (dDst d) (dLen d)) ∧
        (t.chan k).issued = dLen d ∧ (t.chan k).sentUpTo = dLen d ∧
        Tbl.getD (t.chan k).counters 0 0 = satAdd 64 (Tbl.getD c.counters 0 0) (dLen d) ∧
        (∃ r, (t.chan k).stores = [r] ∧ r.off = 0 ∧ r.len = dLen d) ∧ t.mem = s.mem ∧
        ∀ q, q ≠ lsStage (dDst d) → t.stage q = s.stage q)) ∧
  (∀ (s : State) (plinth chan : Nat), 48 ≤ chan ∨ (s.chan (64 * plinth + chan)).desc ≠ [] ∨ (s.chan (64 * plinth + chan)).st = .idle ∨
    (s.chan (64 * plinth + chan)).st = .error → exec (.descriptorStart plinth chan) s = .next s) ∧
  (∀ (s : State) (plinth line ch : Nat) (cs : List Nat) (data : List Byte),
    let k := 64 * plinth + ch
    let c := s.chan k
    Tbl.getD (s.tender plinth).lines line [] = ch :: cs → s.restOf plinth k → c.moves = true → c.st = .running →
    s.setting 0x00040001 < c.holds + 256 →
    c.sendable = 0 →
    let count := if line < 16 then ((Tbl.get? s.helm.bulk line).map BulkStream.held).getD 0 else data.length
    let n := min (min (if dPaced c.desc then dBurst c.desc else count) count) (dLen c.desc - c.issued - c.credit)
    (dSrcSpace c.desc ≠ 2 ∨ line < 16 →
      ∃ t, exec (.requestLineAssert plinth line data) s = .next t ∧ t = s.setChan k { c with credit := c.credit + n }) ∧
    (dSrcSpace c.desc = 2 → 16 ≤ line → s.setting 0x00040001 ≤ c.holds →
      exec (.requestLineAssert plinth line data) s = .next s)) ∧
  (∀ (s : State) (plinth line ch : Nat) (cs : List Nat) (data : List Byte),
    let k := 64 * plinth + ch
    let c := s.chan k
    let m := min (min (min (if dPaced c.desc then dBurst c.desc else data.length) data.length) (dLen c.desc - c.issued - c.credit))
      (s.setting 0x00040001 - c.holds)
    let c' := ({ c with issued := c.issued + m } : Chan).takeIn c.issued (data.take m)
    Tbl.getD (s.tender plinth).lines line [] = ch :: cs → s.restOf plinth k → c.moves = true → c.st = .running →
    dSrcSpace c.desc = 2 → 16 ≤ line → 0 < m → s.setting 0x00040001 < c'.holds + 256 → c'.sendable = 0 →
      ∃ t, exec (.requestLineAssert plinth line data) s = .next t ∧ t.chan k = { c' with counters := bumpTbl c.counters 0 64 m } ∧
        t = { s with chans := t.chans } ∧ ∀ j, j ≠ k → t.chan j = s.chan j) ∧
  (∀ (s : State) (plinth line : Nat) (data : List Byte), Tbl.getD (s.tender plinth).lines line [] = [] →
    exec (.requestLineAssert plinth line data) s = .next s)

/-- 11: R354 to R356, R360, R362, R363, R365, R368. Source data goes into the transfer in order, an error drops the rest of it, stores done move its edge, and
the end of a descriptor writes back what became of it; a pause stands once nothing is outstanding, and a power pause that lasts ends the descriptor. -/
def Obligations.DescriptorsMoveAndEnd : Prop :=
  (∀ (s s' : State) (plinth chan tag status : Nat) (data : List Byte) (r : TReq),
    let k := 64 * plinth + chan
    let c := s.chan k
    s.takeDone (tenderUnit plinth) tag status data = some s' → s.restOf plinth k → c.reads.find? (fun r => r.tag = tag) = some r →
    (status ≠ 0 → c.err = none → chan < 64 → ∃ t, exec (.tenderReadCompletion plinth chan tag status data) s = .next t ∧
      t = s'.setChan k { c with reads := [], early := [], ready := [], merging := [], err := some status }) ∧
    (let c' := { c with reads := c.reads.filter (fun x => x.tag ≠ tag) }.takeIn r.off (slice data r.skip r.len)
     status = 0 → r.merge = false → chan < 64 → c.issued = dLen c.desc → c'.sendable = 0 →
      ∃ t, exec (.tenderReadCompletion plinth chan tag status data) s = .next t ∧
        t.chan k = { c' with counters := bumpTbl c.counters 0 64 r.len } ∧ t = { s' with chans := t.chans } ∧
        ∀ j, j ≠ k → t.chan j = s.chan j)) ∧
  (∀ (s s' : State) (plinth chan tag status : Nat) (r : TReq),
    let k := 64 * plinth + chan
    let c := s.chan k
    s.takeDone (tenderUnit plinth) tag status [] = some s' → s.restOf plinth k → c.stores.find? (fun r => r.tag = tag) = some r →
    let left := c.stores.filter (fun x => x.tag ≠ tag)
    (status ≠ 0 → c.err = none → ∃ t, exec (.tenderStoreCompletion plinth chan tag status) s = .next t ∧
      t = s'.setChan k { c with stores := left, reads := [], early := [], ready := [], merging := [], err := some status }) ∧
    (status = 0 → chan < 64 → dSrcSpace c.desc ≠ 4 → c.issued = dLen c.desc → c.sendable = 0 →
      ∃ t, exec (.tenderStoreCompletion plinth chan tag status) s = .next t ∧ (t.chan k).stores = left ∧
        (t.chan k).counters = bumpTbl c.counters 1 64 r.len ∧ t = { s' with chans := t.chans } ∧
        (c.doneRuns = [] → c.written = r.off → 0 < r.len → (t.chan k).written = r.off + r.len ∧ (t.chan k).doneRuns = []) ∧
        (c.doneRuns = [] → c.written < r.off → (t.chan k).written = c.written ∧ (t.chan k).doneRuns = [(r.off, r.len)]) ∧
        ∀ j, j ≠ k → t.chan j = s.chan j)) ∧
  (∀ (s : State) (plinth chan status : Nat),
    let k := 64 * plinth + chan
    let c := s.chan k
    let d := c.desc
    c.endsAs = some status → chan < 64 → s.restOf plinth k → c.inlineCur = true → s.fab.resync = none → dNextKind d = 0 → c.waiters = [] →
      ∃ t, exec (.descriptorEnd plinth chan) s = .next t ∧ (t.chan k).st = .idle ∧ (t.chan k).desc = [] ∧
        Tbl.getD (t.chan k).slots c.slot [] = d.take 4 ++ leBytes 1 status ++ leBytes 1 (if status = 2 then c.err.getD 0 else 0) ++
          slice d 6 0x22 ++ leBytes 8 (min c.written (dLen d)) ++ slice d 0x30 8 ++
          leBytes 8 (if status = 1 ∨ status = 5 then crcResult (dCrcMode d) c.crcRun else 0) ∧
        (t.chan k).badSeen = (c.badSeen || status == 2) ∧
        (∀ i w, (status = 1 ∨ status = 5) ∧ i = 2 ∧ w = 64 ∨ status = 2 ∧ i = 4 ∧ w = 32 ∨ status = 4 ∧ i = 6 ∧ w = 32 →
          (t.chan k).counters = bumpTbl c.counters i w 1) ∧
        (∀ j, j ≠ k → t.chan j = s.chan j) ∧ (status = 1 ∨ status = 5 → t.mem = s.mem ∧ t.stages = s.stages) ∧
        ∀ x ∈ (t.tender plinth).lines, chan ∉ x.2) ∧
  (∀ (s : State) (plinth chan : Nat), (s.chan (64 * plinth + chan)).endsAs = none → exec (.descriptorEnd plinth chan) s = .next s) ∧
  (∀ (s : State) (plinth chan : Nat),
    let k := 64 * plinth + chan
    (s.chan k).stands = true → (s.chan k).waiters = [] → ∃ t, exec (.channelPaused plinth chan) s = .next t ∧
      t.chan k = { s.chan k with st := .paused } ∧ (∀ j, j ≠ k → t.chan j = s.chan j) ∧ t.mem = s.mem) ∧
  (∀ (s : State) (plinth chan : Nat), (s.chan (64 * plinth + chan)).stands = false → exec (.channelPaused plinth chan) s = .next s) ∧
  (∀ (s : State) (plinth chan : Nat),
    let k := 64 * plinth + chan
    let c := s.chan k
    c.st = .pausing → c.pausePwr = true → c.waiters = [] →
    (c.desc = [] → c.inlineCur = false → c.curDesc % 64 ≠ 0 → ∃ t, exec (.pausePwrTimeout plinth chan) s = .next t ∧ (t.chan k).st = .error) ∧
    (c.desc ≠ [] → c.inlineCur = true → s.fab.resync = none → dNextKind c.desc = 0 →
      ∃ t, exec (.pausePwrTimeout plinth chan) s = .next t ∧ (t.chan k).st = .idle ∧ (t.chan k).desc = [] ∧ (t.chan k).powerSeen = true ∧
        Tbl.getD (t.chan k).slots c.slot [] = c.desc.take 4 ++ leBytes 1 3 ++ leBytes 1 0 ++ slice c.desc 6 0x22 ++
          leBytes 8 (min c.written (dLen c.desc)) ++ slice c.desc 0x30 8 ++ leBytes 8 0 ∧
        Tbl.getD (t.chan k).counters 5 0 = satAdd 32 (Tbl.getD c.counters 5 0) 1)) ∧
  (∀ (s : State) (plinth chan : Nat), (s.chan (64 * plinth + chan)).pausePwr = false → exec (.pausePwrTimeout plinth chan) s = .next s)

/-! ### Temperature, power and the gates -/

/-- 15: R448, R450, R452 to R455, R457 to R459, R469, R471. A sample of sensors in range and near their median gives Tj, g, the rate of sampling and the
cooling's duty; a fast rise trips a die until it has passed; at 115 °C the package shuts down. -/
def Obligations.TemperatureIsWatched : Prop :=
  (∀ (s : State) (die : Nat) (samples : List Int),
    let rs := samples.take (sensorCount die)
    s.watches = true → (s.die die).life = .up → (s.die die).excluded = [] → rs ≠ [] →
    (∀ v ∈ rs, -160 ≤ v ∧ v ≤ 600 ∧ farOff (median2 rs) v = false) →
    ∃ t tj, exec (.sensorSample die samples) s = .next t ∧ tj ∈ rs ∧ (∀ v ∈ rs, v ≤ tj) ∧ (t.die die).tj = tj ∧ (t.die die).excluded = [] ∧
      (t.die die).g = (if tj ≤ s.throttleStart then 12800
        else max 3200 (12800 - 16 * s.setting 0x00050002 * (tj - s.throttleStart).toNat)) ∧
      (s.throttleStart - 32 ≤ tj → (t.die die).fast = true) ∧
      ((t.die die).g < 12800 → (t.die die).throttling = true) ∧
      ((s.die die).throttling = false → tj ≤ s.throttleStart → (s.die die).tripped = false → (t.die die).throttling = false) ∧
      (die < 12 → (t.die die).fThermal = t.thermalOf die ∧ t = { s with dies := t.dies, log := t.log, helm := t.helm, pins := t.pins } ∧
        ∀ j, j ≠ die → t.die j = s.die j) ∧
      (die < 12 → s.boot.gap = false → s.boot.dev ≠ .failureStop → t.pins.coolDuty = t.coolingDuty ∧
        (t.throttleStart ≤ t.highestTj → t.pins.coolDuty = 200)) ∧
      (s.boot.gap = true → t.pins.coolDuty = s.pins.coolDuty)) ∧
  (∀ (s : State) (die : Nat) (samples : List Int), s.watches = false ∨ (s.die die).life ≠ .up → exec (.sensorSample die samples) s = .next s) ∧
  (∀ (s : State) (die : Nat) (tj before : Int), die < 12 → s.detects = true → (s.die die).life = .up → (s.die die).rise[4]? = some before →
    (2 * s.setting 0x00050003 ≤ 4 * (tj - before) → (s.die die).tripped = false →
      ∃ t, exec (.rateMonitorEvaluation die tj) s = .next t ∧ (t.die die).tripped = true ∧ (t.die die).fast = true ∧
        (t.die die).fThermal ≤ 3200 ∧ (t.die die).rise = (tj :: (s.die die).rise).take 5 ∧ (t.die die).throttling = true ∧
        Tbl.getD (t.die die).counters 2 0 = satAdd 32 (Tbl.getD (s.die die).counters 2 0) 1 ∧
        t = { s with dies := t.dies, log := t.log, helm := t.helm, hubQ := t.hubQ } ∧ ∀ j, j ≠ die → t.die j = s.die j) ∧
    (4 * (tj - before) < 2 * s.setting 0x00050003 → (s.die die).tripped = true →
      ∃ t, exec (.rateMonitorEvaluation die tj) s = .next t ∧ (t.die die).tripped = false ∧ (t.die die).fThermal = t.thermalOf die ∧
        t = { s with dies := t.dies } ∧ ∀ j, j ≠ die → t.die j = s.die j)) ∧
  (∀ (s : State) (die : Nat) (tj : Int), die < 12 → s.detects = true → (s.die die).life = .up → (s.die die).rise.length < 5 →
    exec (.rateMonitorEvaluation die tj) s = .next (s.setDie die { s.die die with rise := tj :: (s.die die).rise })) ∧
  (∀ (s : State) (die : Nat) (tj : Int) (runs : Bool), s.pins.shutdownLatch = false → s.pins.aux = true → s.pins.mainRails = true →
    (460 ≤ tj → ∃ t, exec (.shutdownTrip die tj runs) s = .next t ∧ t.pins.shutdownLatch = true ∧ t.pins.thermtripN = false ∧
      t.pins.coolDuty = 200 ∧ (runs = true → s.boot.exsarGone = false → s.pins.resetN = true → t.pins.exsarRails = false) ∧
      (s.isReady = true → t.boot.dev = .failureStop ∧ t.boot.stopCause = 0x17 ∧ t.pins.failstopN = false ∧
        ∀ x ∈ t.chans, x.2.st = .idle)) ∧
    (tj < 460 → exec (.shutdownTrip die tj runs) s = .next s))

/-- 15: R456, R462 to R467, R470, R471; 20: R560; 21: R578, R586. The voltage loop, the budgets, the power factor and the rails' readings, each by its rule. -/
def Obligations.PowerIsShared : Prop :=
  (∀ (s : State) (die : Nat), die < 12 → s.isReady = true → s.boot.gap = false → (s.die die).life = .up →
    let v := (Tbl.getD s.rails die {}).setpoint
    let x := s.die die
    let low := x.thermLow = true ∨ 500 < x.powLow
    ∃ t, exec (.voltageLoopStep die) s = .next t ∧ (t.die die).thermLow = false ∧ (t.die die).powLow = 0 ∧ (t.die die).warm = false ∧
      (t.die die).heavy = false ∧ t = { s with rails := t.rails, dies := t.dies, log := t.log, helm := t.helm } ∧
      (∀ r, r ≠ die → Tbl.get? t.rails r = Tbl.get? s.rails r) ∧
      (low → (Tbl.getD t.rails die {}).setpoint = v - min 10 (v - 550)) ∧
      (low → 550 < v → Tbl.getD (t.die die).counters 3 0 = satAdd 32 (Tbl.getD x.counters 3 0) 1) ∧
      (¬ low → x.warm = false → x.heavy = false → v < s.setting 0x00050004 →
        (Tbl.getD t.rails die {}).setpoint = v + min 5 (s.setting 0x00050004 - v)) ∧
      (¬ low → x.warm = true ∨ x.heavy = true ∨ s.setting 0x00050004 ≤ v → (Tbl.getD t.rails die {}).setpoint = v)) ∧
  (∀ (s : State) (reports : List (Nat × Nat × Nat × Nat)), s.detects = true → s.boot.gap = false → (reports.map (fun r => r.1)).Nodup →
    (∀ r ∈ reports, r.1 < 24 → (s.die r.1).life = .up) →
    let wants := (reports.filter (fun r => decide (r.1 < 12))).map (fun r => r.2.2.1)
    let avail := 98 * s.power.budget - 100 * ((reports.filter (fun r => decide (12 ≤ r.1))).map (fun r => r.2.1)).sum
    ∃ t level, exec (.budgetExchange reports) s = .next t ∧ (level = 0 ∨ 100 * (wants.map (fun w => min w level)).sum ≤ avail) ∧
      (∀ n, level < n → (∃ w ∈ wants, n ≤ w) → avail < 100 * (wants.map (fun w => min w n)).sum) ∧ t = { s with
        dies := t.dies, power := { s.power with shedding := s.power.shedding && decide (s.power.budget < s.power.measured) } } ∧
      (∀ r ∈ reports, r.1 < 12 → t.die r.1 = { s.die r.1 with
        meas := r.2.1, want := r.2.2.1, floorW := r.2.2.2, budget := some (max (min r.2.2.1 level) r.2.2.2), starved := false }) ∧
      (∀ r ∈ reports, 12 ≤ r.1 → r.1 < 24 → t.die r.1 = { s.die r.1 with meas := r.2.1 }) ∧
      ∀ d, (∀ r ∈ reports, r.1 ≠ d) → t.die d = s.die d) ∧
  (∀ (s : State) (die watts : Nat), die < 12 → s.detects = true → (s.die die).life = .up →
    let x := s.die die
    ∃ t, exec (.powerEstimate die watts) s = .next t ∧ t = s.setDie die (t.die die) ∧ (t.die die).pEst = watts ∧
      (t.die die).powLow = (if (t.die die).fPower < 12800 then x.powLow + 1 else x.powLow) ∧
      (x.starved = true ∨ x.currentHold = true → (t.die die).fPower = 3200) ∧
      (x.starved = false → x.currentHold = false → ∀ w, x.budget = some w →
        let b := min (1000 * w) (min 440000 (629 * (Tbl.getD s.rails die {}).setpoint))
        (b < 1000 * watts → (t.die die).fPower = max 3200 (x.fPower * b / (1000 * watts))) ∧
        (100000 * watts < 95 * b → (t.die die).fPower = min 12800 (x.fPower + 256)) ∧
        (95 * b ≤ 100000 * watts → 1000 * watts ≤ b → (t.die die).fPower = x.fPower))) ∧
  (∀ (s : State) (die : Nat), die < 12 → s.detects = true → (s.die die).life = .up →
    exec (.budgetTimeout die) s = .next (s.setDie die { s.die die with starved := true, fPower := 3200 })) ∧
  (∀ (s : State) (die watts : Nat), 12 ≤ die → exec (.powerEstimate die watts) s = .next s ∧ exec (.budgetTimeout die) s = .next s ∧
    exec (.voltageLoopStep die) s = .next s) ∧
  (∀ (s : State) (rail v i p st : Nat), rail < 20 → s.watches = true → s.boot.gap = false →
    let old := Tbl.getD s.rails rail {}
    (exec (.railTelemetryRead rail none) s =
      .next { s with rails := Tbl.set s.rails rail { old with status := old.status % 2 ^ 31 + 2 ^ 31 } }) ∧
    ∃ t, exec (.railTelemetryRead rail (some (v, i, p, st))) s = .next t ∧
      t = { s with rails := t.rails, dies := t.dies, power := { s.power with measured := t.power.measured } } ∧
      t.rails = Tbl.set s.rails rail { old with vout := v, iout := i, pout := p, status := st % 65536 } ∧
      t.power.measured = ((List.range 20).map (fun r => (Tbl.getD t.rails r {}).pout)).sum / 1000 ∧
      (12 ≤ rail → t.dies = s.dies) ∧
      (rail < 12 → (s.die rail).life = .up → 630000 < i → (t.die rail).currentHold = true ∧ (t.die rail).fPower = 3200) ∧
      (rail < 12 → (s.die rail).life = .up → i < 600000 → (t.die rail).currentHold = false) ∧
      (600000 ≤ i → i ≤ 630000 → t.dies = s.dies)) ∧
  (∀ (s : State) (rail status : Nat), s.watches = true → s.boot.gap = false →
    let r := Tbl.getD s.rails rail {}
    ∃ t, exec (.smbalert rail status) s = .next t ∧
      t.rails = Tbl.set s.rails rail { r with status := r.status / 2 ^ 16 * 2 ^ 16 + status % 65536 } ∧
      t.log = s.log.take 0x0111 0xFF 1 exsarUnit (s.now0) (leBytes 1 rail ++ leBytes 2 status) ∧ t = { s with rails := t.rails, log := t.log })

/-- 04: R142; 11: R368; 15: R460, R467, R468, R470; 18: R531. Idle domains gate, a shed gates its first domain or waits for it, a woken domain is on again;
fuses are written in range; power-off keeps the NOR alone. -/
def Obligations.DomainsAndFusesAct : Prop :=
  (∀ (s : State) (die dom : Nat), s.isReady = true → s.boot.gap = false → s.gateable die dom = true → s.setting 0x00050005 ≠ 0 →
    (∀ k ∈ domainStages die dom, (s.stage k).st = .free ∧ (s.stage k).bind = none ∧ (s.stage k).busyTest = false) →
    (s.domainChans die dom = [] → ∃ t, exec (.domainIdleExpiry die dom) s = .next t ∧ bit dom (t.die die).gated = true ∧ (t.die die).gatedBound = (s.die die).gatedBound ∧
      (∀ m, m ≠ dom → bit m (t.die die).gated = bit m (s.die die).gated) ∧
      Tbl.getD (t.die die).counters 4 0 = satAdd 32 (Tbl.getD (s.die die).counters 4 0) 1 ∧
      t = { s with dies := t.dies, log := t.log, helm := t.helm } ∧ ∀ j, j ≠ die → t.die j = s.die j) ∧
    (∀ k c, Tbl.get? s.chans k = some c → c.st = .running → descInDomain c.desc die dom = true →
      ∃ t, exec (.domainIdleExpiry die dom) s = .next t ∧ (t.chan k).pausePwr = true ∧
        ((die, dom) ∈ t.power.gating ∨ bit dom (t.die die).gated = true))) ∧
  (∀ (s : State) (die dom k : Nat), k ∈ domainStages die dom → (s.stage k).st ≠ .free →
    exec (.domainIdleExpiry die dom) s = .next s) ∧
  (∀ (s : State) (g : Nat × Nat), s.isReady = true → s.boot.gap = false → s.mustShed = true →
    s.shedOrder.find? (fun g => s.gateable g.1 g.2) = some g →
    ∃ t, exec .powerShed s = .next t ∧ (g ∈ t.power.gating ∨ bit g.2 (t.die g.1).gated = true) ∧
      (∀ k c, Tbl.get? s.chans k = some c → c.st = .running ∨ c.st = .pausing ∨ c.st = .paused → descInDomain c.desc g.1 g.2 = true →
        (t.chan k).pausePwr = true) ∧
      ∀ pl p, s.pipe? pl = some p → p.inDomain g.1 g.2 = true →
        ∃ p', t.pipe? pl = some p' ∧ (p.st = .idle → p'.st = .suspended) ∧
          (p.st = .running ∨ p.st = .draining → p'.gateStop = true ∨ p'.st = .suspended)) ∧
  (∀ s : State, s.mustShed = false → exec .powerShed s = .next s) ∧
  (∀ (s : State) (die dom : Nat), dom < 12 → s.isReady = true → s.boot.gap = false → s.mayWake die dom = true → s.power.paused = [] →
    ∃ t, exec (.domainWake die dom) s = .next t ∧ bit dom (t.die die).gated = false ∧ (die, dom) ∉ t.power.shed ∧
      (∀ g, g ≠ (die, dom) → (g ∈ t.power.shed ↔ g ∈ s.power.shed)) ∧
      ∀ pl p, s.pipe? pl = some p → p.st = .suspended → p.powerIdle = true →
        (∀ k ∈ p.stgs, bit (stDomain k) (t.die (stDie k)).gated = false ∧ (stDie k, stDomain k) ∉ s.power.gating) →
        ∃ p', t.pipe? pl = some p' ∧ p'.st = .idle) ∧
  (∀ (s : State) (die dom : Nat), s.mayWake die dom = false → exec (.domainWake die dom) s = .next s) ∧
  (∀ s : State, s.isReady = true → s.boot.gap = false →
    let f := s.nor.fuses
    (s.fuseRange = true → ∃ t, exec .fuseProgram s = .next t ∧ t = { s with nor := { s.nor with
        fuses := t.nor.fuses, record := t.nor.record, recordB := t.nor.recordB, older := t.nor.older } } ∧
      t.nor.fuses = { f with
        rollbackMin := max f.rollbackMin (f.heldRollback.getD 0), root0Revoked := f.root0Revoked || f.heldRevoke
        heldRollback := none, heldRevoke := false } ∧
      (∀ i, s.nor.image? false = some i → i.secVersion < t.nor.fuses.rollbackMin → s.nor.record.stateA = .previous → t.nor.record.stateA = .empty) ∧
      (∀ i, s.nor.image? true = some i → i.secVersion < t.nor.fuses.rollbackMin → s.nor.record.stateB = .previous → t.nor.record.stateB = .empty)) ∧
    (s.fuseRange = false → exec .fuseProgram s = .next s)) ∧
  (∀ s : State, ∃ t, exec .powerOff s = .next t ∧ t.pins.aux = false ∧ t.pins.mainRails = false ∧
    t = { State.reset with pending := s.pending, free := s.free, nor := t.nor, pins := t.pins } ∧ t.nor.imageA = s.nor.imageA ∧
    t.nor.imageB = s.nor.imageB ∧ t.nor.record = s.nor.record ∧ t.nor.fuses.rollbackMin = s.nor.fuses.rollbackMin ∧
    t.nor.fuses.lifecycle = s.nor.fuses.lifecycle)

/-! ### Failures: control cores, failure stops, fences -/

/-- 07: R223; 12: R396; 14: R447; 16: R480, R490 to R495. A failure stop halts sources, channels and optics, drops the work in flight and says so; control passes to the standby, and
what ran in
the mailboxes is answered FAILOVER. -/
def Obligations.FailuresStopOrChangeOver : Prop :=
  (∀ (s : State) (cause : Nat) (runs : Bool), s.isReady = true → 0x11 ≤ cause → cause ≤ 0x16 →
    ∃ t, exec (.failureStop cause runs) s = .next t ∧ t.boot.dev = .failureStop ∧ t.boot.phase = 0xF ∧ t.boot.stopCause = cause ∧
      t.boot.exsarGone = !runs ∧ t.pins.failstopN = false ∧ t.pins.coolDuty = 200 ∧ (∀ x ∈ t.chans, x.2.st = .idle) ∧
      (∀ x ∈ t.txEnds, x.2.st = .down) ∧ t.fab.colls = [] ∧
      (∀ pl, t.pipe? pl = (s.pipe? pl).map (fun p =>
        { p with invs := [], posts := [], batches := [], readmit := [], held := [], errs := [] })) ∧
      ((∀ x ∈ s.pipes, ∀ v ∈ x.2.invs, v.admitted = 0) → (∀ x ∈ s.chans, x.2.desc = []) → s.fab.colls = [] →
        t.mem = s.mem ∧ t.stages = s.stages) ∧
      (runs = true → t.helm.sb.ibi = true ∧ t.log = s.log.take 0x0044 7 3 exsarUnit s.now0 (leBytes 1 cause) ∧
        ((s.mbox sbKey).events < 64 → ∃ e, e ∈ (t.mbox sbKey).out ∧ e.kind = .event ∧ field e.body 0 2 = 0x0044)) ∧
      (runs = false → t.log = s.log ∧ t.helm = s.helm)) ∧
  (∀ (s : State) (cause : Nat) (runs : Bool), s.isReady = false ∨ cause < 0x11 ∨ 0x16 < cause → exec (.failureStop cause runs) s = .next s) ∧
  (∀ (s : State) (plinth : Nat), s.isReady = true →
    (∃ t, exec (.serviceCoreHung plinth) s = .next t ∧ (t.die (12 + plinth)).coreHung = true ∧ t.boot.dev = .failureStop ∧
      t.boot.stopCause = 0x12 ∧ t.boot.exsarGone = false ∧ t.pins.failstopN = false) ∧
    ∃ t, exec (.plinthReferenceLoss plinth) s = .next t ∧ t.boot.dev = .failureStop ∧ t.boot.stopCause = 0x13 ∧
      t.boot.exsarGone = (plinth == 0) ∧ t.pins.failstopN = false) ∧
  (∀ s : State, s.coresRun = true →
    let b := s.boot.activeB
    (s.boot.standbyOk = true → (s.boot.dev = .starting → s.boot.restarted = false) → ∃ t, exec (.coreHeartbeatMiss b) s = .next t ∧ t.boot.gap = true ∧ t.boot.activeB = !b ∧
      t.boot.core b = .held ∧ t.boot.core (!b) = .active ∧ t.upd.staging = none ∧ (s.upd.staging = none → t = { s with boot := t.boot }) ∧
      t.boot.dev = s.boot.dev ∧ t = { s with boot := t.boot, nor := t.nor, upd := t.upd }) ∧
    (s.boot.standbyOk = true → s.boot.dev = .starting → s.boot.phase ≠ 0 → s.boot.restarted = true → ∃ t, exec (.coreHeartbeatMiss b) s = .next t ∧
      t.boot.dev = .failureStop ∧ t.boot.phase = s.boot.phase ∧ t.boot.cause = 1 ∧ t.pins.failstopN = false) ∧
    (s.boot.standbyOk = false → s.isReady = true → ∃ t, exec (.coreHeartbeatMiss b) s = .next t ∧ t.boot.dev = .failureStop ∧
      t.boot.stopCause = 0x11 ∧ t.boot.exsarGone = true ∧ t.boot.core b = .out ∧ t.pins.failstopN = false ∧ t.helm = s.helm) ∧
    (s.boot.core (!b) = .standby → exec (.coreHeartbeatMiss !b) s = .next { s with boot := s.boot.setCore (!b) .held })) ∧
  (∀ (s : State) (gapUs : Nat), s.boot.gap = true → s.boot.dev = .starting → 6 ≤ s.boot.phase → s.startIn.railsUp = true →
    badLane s.startIn = none → s.startIn.badWord = none → s.startIn.lateSubs ≠ [] → (∀ l ∈ s.startIn.lateSubs, 0 < l.2 ∧ (s.die l.1).life ≠ .retired) →
    ∃ t, exec (.coreFailover gapUs) s = .next t ∧ t.boot.gap = false ∧ t.stages = [] ∧ t.beacons = [] ∧ t.txEnds = [] ∧ t.rxEnds = [] ∧
      t.boot.restarted = true ∧ (t.die 5).counters = (if (s.die 5).life = .retired then (s.die 5).counters else []) ∧
      t.boot.dev = .starting ∧ t.boot.phase = 8) ∧
  (∀ (s : State) (gapUs : Nat), s.boot.gap = true → s.boot.dev ≠ .starting →
    let failed := !s.boot.activeB
    let recent := s.now0 :: s.boot.failovers.filter (fun r => decide (subMod 64 s.now0 r < 3600 * 156250000))
    ∃ t, exec (.coreFailover gapUs) s = .next t ∧ t.boot.gap = false ∧ t.boot.failovers = recent ∧ t.boot.activeB = s.boot.activeB ∧
      t.boot.core failed = (if 3 ≤ recent.length then .out else s.boot.core failed) ∧
      t.log = s.log.take 0x0045 7 1 exsarUnit s.now0 (leBytes 1 (b2n failed) ++ leBytes 1 (b2n s.boot.activeB) ++ leBytes 4 gapUs) ∧
      t = { s with boot := t.boot, helm := t.helm, dies := t.dies, log := t.log } ∧
      (∀ d, d < 12 → (t.die d).thermLow = false ∧ (t.die d).powLow = 0) ∧ (∀ d, 12 ≤ d → t.die d = s.die d) ∧
      (∀ mb seq, Tbl.has s.helm.mailboxes mb = true → (s.mbox mb).running = some seq →
        (Tbl.get? s.helm.memOps mb = none → t.answered mb (s.mbox mb).runCode 0xD seq []) ∧
        ((Tbl.get? s.helm.memOps mb).isSome = true → (t.mbox mb).running = some seq ∧
          ∃ m, Tbl.get? t.helm.memOps mb = some m ∧ m.failover = true))) ∧
  (∀ (s : State) (pass : Bool), s.boot.gap = false → s.boot.exsarGone = false → s.boot.core (!s.boot.activeB) = .held →
    exec (.coreRestart pass) s = .next { s with boot := s.boot.setCore (!s.boot.activeB) (if pass then .standby else .out) }) ∧
  (∀ (s : State) (pass : Bool), s.boot.core (!s.boot.activeB) ≠ .held → exec (.coreRestart pass) s = .next s) ∧
  (∀ (s : State) (coreB : Bool), s.coresRun = true → s.boot.core coreB = .active ∨ s.boot.core coreB = .standby →
    exec (.binnacleLost coreB) s = .next { s with
      boot := { s.boot with binnacleOk := false }, log := s.log.take 0x0113 0xFF 2 exsarUnit s.now0 (leBytes 1 (b2n coreB)) })

/-- 03: R74; 04: R142; 07: R212, R224 to R228; 11: R363; 21: R573, R574. A fence takes a die's links, stages, channels and pipelines down, and the fourth within
an hour keeps it out; a good re-admission gives back a clean die, the third failed attempt retires it. Service packets reach the registers of
their die. -/
def Obligations.DiesFenceReadmitAndAnswer : Prop :=
  (∀ (s : State) (die cause : Nat), s.detects = true → fenceable die = true → (s.die die).life = .up → cause ≠ 5 →
    let recent := (s.die die).fences.filter (fun r => decide (subMod 64 s.now0 r < 3600 * 156250000))
    ∃ t, exec (.dieFence die cause) s = .next t ∧ (cause = 3 → exec (.heartbeatTimeout die) s = .next t) ∧ (t.die die).fenceCause = cause ∧
      (t.die die).fences = s.now0 :: recent ∧
      (t.die die).attempts = (if s.switching die then (s.die die).attempts + 1 else 0) ∧
      (recent.length < 3 → s.switching die = false → (t.die die).life = .fenced ∧ (t.link (8 * die)).st = .fenced ∧ (t.link (linkPeer (8 * die))).st = .fenced) ∧
      (3 ≤ recent.length → (t.die die).life = .retired ∧ (t.link (8 * die)).st = .retired ∧ (t.link (linkPeer (8 * die))).st = .retired) ∧
      (t.link (8 * die)).unacked = [] ∧
      (die < 12 → (∀ u, u < 30 → (t.stage (30 * die + u)).st = .fenced) ∧
        (∀ k c, Tbl.get? s.chans k = some c → descTouches c.desc die = true → (t.chan k).err = some (c.err.getD 4)) ∧
        (∀ pl p, s.pipe? pl = some p → (∃ k ∈ p.stgs, stDie k = die) → p.loadWait = none → p.st ≠ .releasing →
          ∃ p', t.pipe? pl = some p' ∧ p'.st = .failed ∧ (p.st ≠ .failed → p'.batches = [] ∧ p'.invs = []))) ∧
      (16 ≤ die → (∀ q, q < 16 → (t.tx (die - 16) q).st = .down ∧ (t.rx (die - 16) q).st = .down) ∧ (t.beacon (die - 16)).sights = [] ∧
        (t.beacon (die - 16)).repointTo = none ∧ t.stages = s.stages)) ∧
  (∀ (s : State) (die cause : Nat), s.detects = true → fenceable die = true → (s.die die).life = .fenced → cause ≠ 5 →
    ∃ t, exec (.dieFence die cause) s = .next t ∧ (t.die die).attempts = (s.die die).attempts + 1 ∧ t.stages = s.stages ∧ t.pipes = s.pipes ∧
      (2 ≤ (s.die die).attempts → (t.die die).life = .retired) ∧ ∀ j, j ≠ die → t.die j = s.die j) ∧
  (∀ (s : State) (die cause : Nat), s.detects = false ∨ fenceable die = false ∨ (s.die die).life = .retired →
    exec (.dieFence die cause) s = .next s ∧ exec (.heartbeatTimeout die) s = .next s) ∧
  (∀ (s : State) (die : Nat) (rings : List Nat), fenceable die = true → (s.die die).life = .fenced → s.boot.gap = false → s.detects = true →
    (s.die die).resetWait = none →
    ((s.die die).attempts < 2 → exec (.dieReadmission die false rings) s =
      .next (s.setDie die { s.die die with attempts := (s.die die).attempts + 1 })) ∧
    (2 ≤ (s.die die).attempts → ∃ t, exec (.dieReadmission die false rings) s = .next t ∧ (t.die die).life = .retired ∧
      (t.link (8 * die)).st = .retired ∧ t.stages = s.stages ∧ ∀ j, j ≠ die → t.die j = s.die j) ∧
    ∃ t, exec (.dieReadmission die true rings) s = .next t ∧ (t.die die).life = .up ∧ (t.die die).attempts = (s.die die).attempts + 1 ∧ (t.die die).fenceCause = 0 ∧
      (t.die die).refCount = 0 ∧ (t.die die).fences = (s.die die).fences ∧ t.sec.readmits = satAdd 32 s.sec.readmits 1 ∧
      (t.link (8 * die)).st = .up ∧ (t.link (linkPeer (8 * die))).st = .up ∧ (∀ j, j ≠ die → t.die j = s.die j) ∧
      (die < 12 → ∀ u, u < 30 → (t.stage (30 * die + u)).store = {} ∧ (t.stage (30 * die + u)).counters = [] ∧
        ((t.stage (30 * die + u)).st = .free ∨ (t.stage (30 * die + u)).st = .bound)) ∧
      (die < 12 → ∀ u, u < 30 → (s.stage (30 * die + u)).bind = none → t.stage (30 * die + u) = {}) ∧
      (16 ≤ die → ∀ q, q < 16 → (t.tx (die - 16) q).st = .down ∧ (t.tx (die - 16) q).session = 0)) ∧
  (∀ (s : State) (die : Nat) (ok : Bool) (rings : List Nat), (s.die die).life ≠ .fenced ∨ s.boot.gap = true →
    exec (.dieReadmission die ok rings) s = .next s) ∧
  (∀ (s : State) (src dst tag addr : Nat), s.detects = true → (s.die (src / 128)).life = .up → (∀ x ∈ s.hubOut, x.typ ≠ 0xA) →
    (svcReaches dst addr = false → exec (.svcRd src dst tag addr) s = .next (s.toUnit (completionPkt dst 0 src tag 0x0C []))) ∧
    (∀ p, svcReaches dst addr = true → addr % 8 = 0 → s.svcPlace addr 8 = .inr p →
      let rs := s.regsOf p.die p.block p.i
      exec (.svcRd src dst tag addr) s = .next (s.toUnit
        (completionPkt dst 0 src tag 0 (leBytes 8 (wordAt rs p.off + 2 ^ 32 * wordAt rs (p.off + 4)))))) ∧
    (∀ e, svcReaches dst addr = true → s.svcPlace addr (if addr % 8 = 0 then 8 else 4) = .inl e → (∀ v, e ≠ .ok v) →
      exec (.svcRd src dst tag addr) s = .next (s.toUnit (completionPkt dst 0 src tag e.status [])))) ∧
  (∀ (s : State) (src dst tag addr : Nat) (data : List Byte), s.detects = true → (∀ x ∈ s.hubOut, x.typ ≠ 0xB) →
    (svcReaches dst addr = false → pktOk 0xB data.length = true → (s.die (src / 128)).life = .up →
      exec (.svcWr src dst tag addr data) s = .next (s.toUnit (completionPkt dst 0 src tag 0x0C []))) ∧
    (∀ p, svcReaches dst addr = true → data.length = 4 → s.svcPlace addr 4 = .inr p →
      ∃ t, exec (.svcWr src dst tag addr data) s = .next t ∧ t = (s.writeWord p p.off (leNat data % 2 ^ 32)).complete dst 0 src tag 0 []))

/-! ### Every command: readiness, mailboxes, places nothing decodes -/

/-- 13: R399. Before the device reports ready every command but the six it names is answered NOT_READY, and those six are not. (The mailbox takes the command:
12: R386; a CODE with several rows is the row whose mode its payload names.) -/
def Obligations.CommandsWaitForReady : Prop :=
  ∀ (s : State) (mb seq : Nat) (h p : List Byte), h.length = 4 → s.isReady = false → s.takes mb seq (h ++ p) →
    (∀ x ∈ readyRows, (∀ o m, x.2.2 = some (o, m) → o < p.length ∧ field p o 1 = m) →
      ∃ t, exec (x.1 mb seq (h ++ p)) s = .next t ∧ t.answered mb x.2.1 0xE seq [] ∧ s.onlyMailbox t mb) ∧
    (∀ draws, 0 < p.length → field p 0 1 = 0 →
      ∃ t, exec (.castCommit mb seq (h ++ p) draws) s = .next t ∧ t.answered mb 0x0053 0xE seq [] ∧ s.onlyMailbox t mb) ∧
    (∀ rand, ∃ t, exec (.unlockChallenge mb seq (h ++ p) rand) s = .next t ∧ t.answered mb 0x0061 0xE seq [] ∧ s.onlyMailbox t mb) ∧
    ∀ x ∈ earlyRows, ∃ t status payload, exec (x.1 mb seq (h ++ p)) s = .next t ∧ t.answered mb x.2 status seq payload ∧ status ≠ 0xE

/-- 00: R16 (widths and alignment: 21: R573; the block SECURE of PD0, which firmware alone reads, answers LOCKED: 17: R516). An access to an address that no
block decodes changes nothing, and its answer is UNMAPPED. -/
def Obligations.UndecodedAddressesAreUnmapped : Prop :=
  (∀ (s : State) (a : Nat), a < 2 ^ 32 → placeOf a = none → ¬ (addrDie a = 12 ∧ addrBlock a = 0x1F) →
    (∀ width value, accessOk a width = true → exec (.registerWrite a width value) s = .next s) ∧
    (a % 4 = 0 → exec (.counterLowRead a) s = .next s) ∧
    (∀ (mb seq : Nat) (h p : List Byte), s.serves0 mb seq h p → s.serviceOpen (mb, seq) = true → field p 0 4 = a →
      accessOk a (field p 4 1) = true →
      (p.length = 8 → ∃ t, exec (.serviceRead mb seq (h ++ p)) s = .next t ∧ t.answered mb 0x0064 0xC seq [] ∧ s.onlyMailbox t mb) ∧
      (p.length = 16 → ∃ t, exec (.serviceWrite mb seq (h ++ p)) s = .next t ∧ t.answered mb 0x0065 0xC seq [] ∧ s.onlyMailbox t mb)) ∧
    (∀ src dst tag, s.detects = true → (s.die (src / 128)).life = .up → (∀ x ∈ s.hubOut, x.typ ≠ 0xA ∧ x.typ ≠ 0xB) → a % 4 = 0 →
      exec (.svcRd src dst tag a) s = .next (s.toUnit (completionPkt dst 0 src tag 0x0C [])) ∧
      ∀ data : List Byte, accessOk a data.length = true →
        exec (.svcWr src dst tag a data) s = .next (s.toUnit (completionPkt dst 0 src tag 0x0C []))))

/-- 07: R228. A step of a re-admission that fails is tried again, three attempts in all; the third failure, or the fourth fence within 1 h, leaves the die out
until the next start, and DIE_RETIRED is logged. -/
def Obligations.FailedReadmissionsRetireTheDie : Prop :=
  (∀ (s : State) (die : Nat) (rings : List Nat), fenceable die = true → s.detects = true → s.boot.gap = false → (s.die die).life = .fenced →
    ((s.die die).attempts < 2 → ∃ t, exec (.dieReadmission die false rings) s = .next t ∧ (t.die die).life = .fenced ∧
      (t.die die).attempts = (s.die die).attempts + 1) ∧
    ((s.die die).attempts = 2 → ∃ t, exec (.dieReadmission die false rings) s = .next t ∧ (t.die die).life = .retired ∧
      t.log = s.log.take 0x0042 7 2 (dieUnit die) (s.now (dieUnit die / 128)) (leBytes 1 die))) ∧
  (∀ (s : State) (die cause r1 r2 r3 : Nat) (old : List Nat), fenceable die = true → s.detects = true → (s.die die).life = .up → cause ≠ 5 →
    (s.die die).fences = r1 :: r2 :: r3 :: old → (∀ r ∈ [r1, r2, r3], subMod 64 s.now0 r < 3600 * 156250000) →
    ∃ t, exec (.dieFence die cause) s = .next t ∧ (t.die die).life = .retired ∧ t.logged 0x0042 (dieUnit die) (s.now die)) ∧
  ∀ (s : State) (die : Nat) (ok : Bool) (rings : List Nat), (s.die die).life = .retired → exec (.dieReadmission die ok rings) s = .next s

/-- 12: R386 to R389; 13: R397, R398, R401. 00: R3. A command runs only from the head of the queue that a session's frames or sideband messages filled, while its mailbox runs no other; PT0's commands are not another partition's; the sideband
carries nine commands; and an event reaches each mailbox subscribed to its class, or counts as lost there. -/
def Obligations.MailboxesQueueRefuseAndReport : Prop :=
  (∀ (s : State) (mb seq : Nat) (body : List Byte),
    (s.mbox mb).running.isSome = true ∨ (s.mbox mb).queue.head? ≠ some { seq := seq, body := body } →
    ∀ x ∈ readyRows, x.2.2 = none → x.2.1 ≠ 0x0055 → exec (x.1 mb seq body) s = .next s) ∧
  (∀ (s : State) (mb seq : Nat) (h p : List Byte), s.serves mb seq h p → mbPartition mb ≠ 0 →
    ∀ x ∈ readyRows, ownerCodes.contains x.2.1 = false → (∀ o m, x.2.2 = some (o, m) → o < p.length ∧ field p o 1 = m) →
      ∃ t, exec (x.1 mb seq (h ++ p)) s = .next t ∧ t.answered mb x.2.1 6 seq [] ∧ s.onlyMailbox t mb) ∧
  (∀ (s : State) (seq : Nat) (h p : List Byte), h.length = 4 → s.isReady = true → s.takes sbKey seq (h ++ p) →
    ∀ x ∈ readyRows, x.2.2 = none → x.2.1 ≠ 0x0055 → sidebandCodes.contains x.2.1 = false →
      ∃ t, exec (x.1 sbKey seq (h ++ p)) s = .next t ∧ t.answered sbKey x.2.1 1 seq (leBytes 4 0) ∧ s.onlyMailbox t sbKey) ∧
  (∀ (s : State) (pt code source cls sev : Nat) (data : List Byte), eventInfo code = some (cls, sev) →
    let t := s.postFor pt code source data
    let ref := s.now (source / 128)
    let home := if 4 ≤ cls then 0 else pt
    t = { s with log := t.log, helm := t.helm } ∧ t.log = s.log.take code cls sev source ref data ∧
    (∀ mb ∈ mailboxesOf home, bit cls (s.mbox mb).mask = true →
      let limit := if mb = sbKey then 64 else 256
      ((s.mbox mb).events < limit → t.mbox mb = { s.mbox mb with
        out := (s.mbox mb).out ++ [{ kind := .event, body := eventRecord code cls sev source ref (s.mbox mb).lost data }], lost := 0 }) ∧
      (limit ≤ (s.mbox mb).events → t.mbox mb = { s.mbox mb with lost := satAdd 32 (s.mbox mb).lost 1 })) ∧
    ∀ mb, mb ∉ mailboxesOf home ∨ bit cls (s.mbox mb).mask = false → t.mbox mb = s.mbox mb)

/-! ### Invariants of every step -/

/-- Every step keeps the canonical form of the package's memory (the model's own form: one listing per content; assumption 10). -/
def Obligations.EveryStepKeepsMemoryCanonical : Prop :=
  ∀ s t : State, Memory.wf s.mem.cells = true → step s = .next t → Memory.wf t.mem.cells = true

/-- 14: R442; 15: R457, R458; 16: R494. Every step keeps THERMTRIP_N low while the shutdown latch is set and FAILSTOP_N low while the device is in failure stop;
nothing but the removal or the return of power clears the latch. -/
def Obligations.EveryStepKeepsStopPinsLow : Prop :=
  ∀ s t : State, s.stopPinsLow → step s = .next t → t.stopPinsLow ∧
    (s.pins.shutdownLatch = true → t.pins.shutdownLatch = true ∨ s.pending.head? = some .powerOn ∨ s.pending.head? = some .powerOff)

/-- Reset has both invariants, an empty queue, nothing stored and nothing loaded; 18: R535: a part leaves the factory in cast 0, with every default and no
previous cast. (The latch's value and the memory's emptiness at reset are the model's: assumptions 3 and 4.) -/
def Obligations.ResetHoldsTheInvariants : Prop :=
  Memory.wf State.reset.mem.cells = true ∧ State.reset.memOk ∧ State.reset.stopPinsLow ∧ State.reset.pending = [] ∧ State.reset.pipes = [] ∧
    State.reset.boot.dev = .starting ∧ State.reset.pins.shutdownLatch = false ∧ State.reset.nor.cast.number = 0 ∧ State.reset.nor.prev = none ∧
    State.reset.setting 0x00050001 = 95 ∧ State.reset.setting 0x00040001 = 65536 ∧ State.reset.fab.node = none ∧ State.reset.fab.twin = .none
end

