-- ==== Sys2Proof/Laws/Tbl.lean ====
section
/-!
SUPPORT. The sparse tables: what a table reads after an entry is set, erased or changed.
-/
namespace Sys2Proof.Machine

open Sys2Proof

theorem Tbl.get?_set_self {α : Type} (t : Tbl α) (i : Nat) (v : α) : Tbl.get? (Tbl.set t i v) i = some v := by
  induction t with
  | nil => simp [Tbl.set, Tbl.get?]
  | cons p t ih =>
    obtain ⟨k, w⟩ := p
    simp only [Tbl.set]
    split
    · simp [Tbl.get?]
    · split
      · simp [Tbl.get?]
      · have : k ≠ i := by omega
        simp [Tbl.get?, this, ih]

theorem Tbl.get?_set_ne {α : Type} (t : Tbl α) (i j : Nat) (v : α) (h : j ≠ i) : Tbl.get? (Tbl.set t i v) j = Tbl.get? t j := by
  have h' : i ≠ j := fun e => h e.symm
  induction t with
  | nil => simp [Tbl.set, Tbl.get?, h']
  | cons p t ih =>
    obtain ⟨k, w⟩ := p
    simp only [Tbl.set]
    split
    · simp [Tbl.get?, h']
    · split
      · rename_i e; subst e; simp [Tbl.get?, h']
      · simp only [Tbl.get?, ih]

@[simp] theorem Tbl.getD_set_self {α : Type} (t : Tbl α) (i : Nat) (v d : α) : Tbl.getD (Tbl.set t i v) i d = v := by
  simp [Tbl.getD, Tbl.get?_set_self]

theorem Tbl.getD_set_ne {α : Type} (t : Tbl α) (i j : Nat) (v d : α) (h : j ≠ i) : Tbl.getD (Tbl.set t i v) j d = Tbl.getD t j d := by
  simp [Tbl.getD, Tbl.get?_set_ne _ _ _ _ h]

theorem Tbl.set_set {α : Type} (t : Tbl α) (i : Nat) (v w : α) : Tbl.set (Tbl.set t i v) i w = Tbl.set t i w := by
  induction t with
  | nil => simp [Tbl.set]
  | cons p t ih =>
    obtain ⟨k, x⟩ := p
    simp only [Tbl.set]
    split
    · simp [Tbl.set]
    · split
      · simp [Tbl.set]
      · rename_i h1 h2; simp [Tbl.set, h1, h2, ih]

theorem Tbl.mem_set {α : Type} (t : Tbl α) (i : Nat) (v : α) (p : Nat × α) (h : p ∈ Tbl.set t i v) : p = (i, v) ∨ p ∈ t := by
  induction t with
  | nil => simpa [Tbl.set] using h
  | cons q t ih =>
    obtain ⟨k, w⟩ := q
    simp only [Tbl.set] at h
    split at h
    · simpa using h
    · split at h
      · rcases List.mem_cons.mp h with h | h
        · exact .inl h
        · exact .inr (List.mem_cons_of_mem _ h)
      · rcases List.mem_cons.mp h with h | h
        · exact .inr (h ▸ List.mem_cons_self)
        · exact (ih h).imp id (List.mem_cons_of_mem _)

theorem Tbl.mem_of_get? {α : Type} (t : Tbl α) (i : Nat) (v : α) (h : Tbl.get? t i = some v) : (i, v) ∈ t := by
  induction t with
  | nil => simp [Tbl.get?] at h
  | cons q t ih =>
    obtain ⟨k, w⟩ := q
    simp only [Tbl.get?] at h
    split at h
    · rename_i e; subst e; cases h; exact List.mem_cons_self
    · exact List.mem_cons_of_mem _ (ih h)

@[simp] theorem Tbl.upd_getD_self {α : Type} (t : Tbl α) (i : Nat) (d : α) (f : α → α) :
    Tbl.getD (Tbl.upd t i d f) i d = f (Tbl.getD t i d) := Tbl.getD_set_self _ _ _ _

end Sys2Proof.Machine
end

