-- ==== Sys2Proof/Laws/State.lean ====
section
/-!
SUPPORT. What each setter of the state leaves alone: one lemma for each setter and field, and what its reader reads back.
-/
namespace Sys2Proof.Machine

open Sys2Proof

@[simp] theorem State.setDie_pending (s : State) (k : Nat) (x : Die) : (s.setDie k x).pending = s.pending := rfl
@[simp] theorem State.setDie_free (s : State) (k : Nat) (x : Die) : (s.setDie k x).free = s.free := rfl
@[simp] theorem State.setDie_pins (s : State) (k : Nat) (x : Die) : (s.setDie k x).pins = s.pins := rfl
@[simp] theorem State.setDie_boot (s : State) (k : Nat) (x : Die) : (s.setDie k x).boot = s.boot := rfl
@[simp] theorem State.setDie_startIn (s : State) (k : Nat) (x : Die) : (s.setDie k x).startIn = s.startIn := rfl
@[simp] theorem State.setDie_nor (s : State) (k : Nat) (x : Die) : (s.setDie k x).nor = s.nor := rfl
@[simp] theorem State.setDie_upd (s : State) (k : Nat) (x : Die) : (s.setDie k x).upd = s.upd := rfl
@[simp] theorem State.setDie_log (s : State) (k : Nat) (x : Die) : (s.setDie k x).log = s.log := rfl
@[simp] theorem State.setDie_helm (s : State) (k : Nat) (x : Die) : (s.setDie k x).helm = s.helm := rfl
@[simp] theorem State.setDie_sec (s : State) (k : Nat) (x : Die) : (s.setDie k x).sec = s.sec := rfl
@[simp] theorem State.setDie_parts (s : State) (k : Nat) (x : Die) : (s.setDie k x).parts = s.parts := rfl
@[simp] theorem State.setDie_tags (s : State) (k : Nat) (x : Die) : (s.setDie k x).tags = s.tags := rfl
@[simp] theorem State.setDie_fab (s : State) (k : Nat) (x : Die) : (s.setDie k x).fab = s.fab := rfl
@[simp] theorem State.setDie_caches (s : State) (k : Nat) (x : Die) : (s.setDie k x).caches = s.caches := rfl
@[simp] theorem State.setDie_mem (s : State) (k : Nat) (x : Die) : (s.setDie k x).mem = s.mem := rfl
@[simp] theorem State.setDie_poison (s : State) (k : Nat) (x : Die) : (s.setDie k x).poison = s.poison := rfl
@[simp] theorem State.setDie_atomicUnits (s : State) (k : Nat) (x : Die) : (s.setDie k x).atomicUnits = s.atomicUnits := rfl
@[simp] theorem State.setDie_hbmStacks (s : State) (k : Nat) (x : Die) : (s.setDie k x).hbmStacks = s.hbmStacks := rfl
@[simp] theorem State.setDie_skew (s : State) (k : Nat) (x : Die) : (s.setDie k x).skew = s.skew := rfl
@[simp] theorem State.setDie_links (s : State) (k : Nat) (x : Die) : (s.setDie k x).links = s.links := rfl
@[simp] theorem State.setDie_hubQ (s : State) (k : Nat) (x : Die) : (s.setDie k x).hubQ = s.hubQ := rfl
@[simp] theorem State.setDie_relayWait (s : State) (k : Nat) (x : Die) : (s.setDie k x).relayWait = s.relayWait := rfl
@[simp] theorem State.setDie_rails (s : State) (k : Nat) (x : Die) : (s.setDie k x).rails = s.rails := rfl
@[simp] theorem State.setDie_power (s : State) (k : Nat) (x : Die) : (s.setDie k x).power = s.power := rfl
@[simp] theorem State.setDie_stages (s : State) (k : Nat) (x : Die) : (s.setDie k x).stages = s.stages := rfl
@[simp] theorem State.setDie_held (s : State) (k : Nat) (x : Die) : (s.setDie k x).held = s.held := rfl
@[simp] theorem State.setDie_pipes (s : State) (k : Nat) (x : Die) : (s.setDie k x).pipes = s.pipes := rfl
@[simp] theorem State.setDie_chanQueue (s : State) (k : Nat) (x : Die) : (s.setDie k x).chanQueue = s.chanQueue := rfl
@[simp] theorem State.setDie_grants (s : State) (k : Nat) (x : Die) : (s.setDie k x).grants = s.grants := rfl
@[simp] theorem State.setDie_drainTimeout (s : State) (k : Nat) (x : Die) : (s.setDie k x).drainTimeout = s.drainTimeout := rfl
@[simp] theorem State.setDie_chans (s : State) (k : Nat) (x : Die) : (s.setDie k x).chans = s.chans := rfl
@[simp] theorem State.setDie_tenders (s : State) (k : Nat) (x : Die) : (s.setDie k x).tenders = s.tenders := rfl
@[simp] theorem State.setDie_beacons (s : State) (k : Nat) (x : Die) : (s.setDie k x).beacons = s.beacons := rfl
@[simp] theorem State.setDie_txEnds (s : State) (k : Nat) (x : Die) : (s.setDie k x).txEnds = s.txEnds := rfl
@[simp] theorem State.setDie_rxEnds (s : State) (k : Nat) (x : Die) : (s.setDie k x).rxEnds = s.rxEnds := rfl
@[simp] theorem State.setDie_latches (s : State) (k : Nat) (x : Die) : (s.setDie k x).latches = s.latches := rfl

@[simp] theorem State.setStage_pending (s : State) (k : Nat) (x : Stage) : (s.setStage k x).pending = s.pending := rfl
@[simp] theorem State.setStage_free (s : State) (k : Nat) (x : Stage) : (s.setStage k x).free = s.free := rfl
@[simp] theorem State.setStage_pins (s : State) (k : Nat) (x : Stage) : (s.setStage k x).pins = s.pins := rfl
@[simp] theorem State.setStage_boot (s : State) (k : Nat) (x : Stage) : (s.setStage k x).boot = s.boot := rfl
@[simp] theorem State.setStage_startIn (s : State) (k : Nat) (x : Stage) : (s.setStage k x).startIn = s.startIn := rfl
@[simp] theorem State.setStage_nor (s : State) (k : Nat) (x : Stage) : (s.setStage k x).nor = s.nor := rfl
@[simp] theorem State.setStage_upd (s : State) (k : Nat) (x : Stage) : (s.setStage k x).upd = s.upd := rfl
@[simp] theorem State.setStage_log (s : State) (k : Nat) (x : Stage) : (s.setStage k x).log = s.log := rfl
@[simp] theorem State.setStage_helm (s : State) (k : Nat) (x : Stage) : (s.setStage k x).helm = s.helm := rfl
@[simp] theorem State.setStage_sec (s : State) (k : Nat) (x : Stage) : (s.setStage k x).sec = s.sec := rfl
@[simp] theorem State.setStage_parts (s : State) (k : Nat) (x : Stage) : (s.setStage k x).parts = s.parts := rfl
@[simp] theorem State.setStage_tags (s : State) (k : Nat) (x : Stage) : (s.setStage k x).tags = s.tags := rfl
@[simp] theorem State.setStage_fab (s : State) (k : Nat) (x : Stage) : (s.setStage k x).fab = s.fab := rfl
@[simp] theorem State.setStage_caches (s : State) (k : Nat) (x : Stage) : (s.setStage k x).caches = s.caches := rfl
@[simp] theorem State.setStage_mem (s : State) (k : Nat) (x : Stage) : (s.setStage k x).mem = s.mem := rfl
@[simp] theorem State.setStage_poison (s : State) (k : Nat) (x : Stage) : (s.setStage k x).poison = s.poison := rfl
@[simp] theorem State.setStage_atomicUnits (s : State) (k : Nat) (x : Stage) : (s.setStage k x).atomicUnits = s.atomicUnits := rfl
@[simp] theorem State.setStage_hbmStacks (s : State) (k : Nat) (x : Stage) : (s.setStage k x).hbmStacks = s.hbmStacks := rfl
@[simp] theorem State.setStage_skew (s : State) (k : Nat) (x : Stage) : (s.setStage k x).skew = s.skew := rfl
@[simp] theorem State.setStage_links (s : State) (k : Nat) (x : Stage) : (s.setStage k x).links = s.links := rfl
@[simp] theorem State.setStage_hubQ (s : State) (k : Nat) (x : Stage) : (s.setStage k x).hubQ = s.hubQ := rfl
@[simp] theorem State.setStage_relayWait (s : State) (k : Nat) (x : Stage) : (s.setStage k x).relayWait = s.relayWait := rfl
@[simp] theorem State.setStage_dies (s : State) (k : Nat) (x : Stage) : (s.setStage k x).dies = s.dies := rfl
@[simp] theorem State.setStage_rails (s : State) (k : Nat) (x : Stage) : (s.setStage k x).rails = s.rails := rfl
@[simp] theorem State.setStage_power (s : State) (k : Nat) (x : Stage) : (s.setStage k x).power = s.power := rfl
@[simp] theorem State.setStage_held (s : State) (k : Nat) (x : Stage) : (s.setStage k x).held = s.held := rfl
@[simp] theorem State.setStage_pipes (s : State) (k : Nat) (x : Stage) : (s.setStage k x).pipes = s.pipes := rfl
@[simp] theorem State.setStage_chanQueue (s : State) (k : Nat) (x : Stage) : (s.setStage k x).chanQueue = s.chanQueue := rfl
@[simp] theorem State.setStage_grants (s : State) (k : Nat) (x : Stage) : (s.setStage k x).grants = s.grants := rfl
@[simp] theorem State.setStage_drainTimeout (s : State) (k : Nat) (x : Stage) : (s.setStage k x).drainTimeout = s.drainTimeout := rfl
@[simp] theorem State.setStage_chans (s : State) (k : Nat) (x : Stage) : (s.setStage k x).chans = s.chans := rfl
@[simp] theorem State.setStage_tenders (s : State) (k : Nat) (x : Stage) : (s.setStage k x).tenders = s.tenders := rfl
@[simp] theorem State.setStage_beacons (s : State) (k : Nat) (x : Stage) : (s.setStage k x).beacons = s.beacons := rfl
@[simp] theorem State.setStage_txEnds (s : State) (k : Nat) (x : Stage) : (s.setStage k x).txEnds = s.txEnds := rfl
@[simp] theorem State.setStage_rxEnds (s : State) (k : Nat) (x : Stage) : (s.setStage k x).rxEnds = s.rxEnds := rfl
@[simp] theorem State.setStage_latches (s : State) (k : Nat) (x : Stage) : (s.setStage k x).latches = s.latches := rfl

@[simp] theorem State.setPipe_pending (s : State) (k : Nat) (x : Pipe) : (s.setPipe k x).pending = s.pending := rfl
@[simp] theorem State.setPipe_free (s : State) (k : Nat) (x : Pipe) : (s.setPipe k x).free = s.free := rfl
@[simp] theorem State.setPipe_pins (s : State) (k : Nat) (x : Pipe) : (s.setPipe k x).pins = s.pins := rfl
@[simp] theorem State.setPipe_boot (s : State) (k : Nat) (x : Pipe) : (s.setPipe k x).boot = s.boot := rfl
@[simp] theorem State.setPipe_startIn (s : State) (k : Nat) (x : Pipe) : (s.setPipe k x).startIn = s.startIn := rfl
@[simp] theorem State.setPipe_nor (s : State) (k : Nat) (x : Pipe) : (s.setPipe k x).nor = s.nor := rfl
@[simp] theorem State.setPipe_upd (s : State) (k : Nat) (x : Pipe) : (s.setPipe k x).upd = s.upd := rfl
@[simp] theorem State.setPipe_log (s : State) (k : Nat) (x : Pipe) : (s.setPipe k x).log = s.log := rfl
@[simp] theorem State.setPipe_helm (s : State) (k : Nat) (x : Pipe) : (s.setPipe k x).helm = s.helm := rfl
@[simp] theorem State.setPipe_sec (s : State) (k : Nat) (x : Pipe) : (s.setPipe k x).sec = s.sec := rfl
@[simp] theorem State.setPipe_parts (s : State) (k : Nat) (x : Pipe) : (s.setPipe k x).parts = s.parts := rfl
@[simp] theorem State.setPipe_tags (s : State) (k : Nat) (x : Pipe) : (s.setPipe k x).tags = s.tags := rfl
@[simp] theorem State.setPipe_fab (s : State) (k : Nat) (x : Pipe) : (s.setPipe k x).fab = s.fab := rfl
@[simp] theorem State.setPipe_caches (s : State) (k : Nat) (x : Pipe) : (s.setPipe k x).caches = s.caches := rfl
@[simp] theorem State.setPipe_mem (s : State) (k : Nat) (x : Pipe) : (s.setPipe k x).mem = s.mem := rfl
@[simp] theorem State.setPipe_poison (s : State) (k : Nat) (x : Pipe) : (s.setPipe k x).poison = s.poison := rfl
@[simp] theorem State.setPipe_atomicUnits (s : State) (k : Nat) (x : Pipe) : (s.setPipe k x).atomicUnits = s.atomicUnits := rfl
@[simp] theorem State.setPipe_hbmStacks (s : State) (k : Nat) (x : Pipe) : (s.setPipe k x).hbmStacks = s.hbmStacks := rfl
@[simp] theorem State.setPipe_skew (s : State) (k : Nat) (x : Pipe) : (s.setPipe k x).skew = s.skew := rfl
@[simp] theorem State.setPipe_links (s : State) (k : Nat) (x : Pipe) : (s.setPipe k x).links = s.links := rfl
@[simp] theorem State.setPipe_hubQ (s : State) (k : Nat) (x : Pipe) : (s.setPipe k x).hubQ = s.hubQ := rfl
@[simp] theorem State.setPipe_relayWait (s : State) (k : Nat) (x : Pipe) : (s.setPipe k x).relayWait = s.relayWait := rfl
@[simp] theorem State.setPipe_dies (s : State) (k : Nat) (x : Pipe) : (s.setPipe k x).dies = s.dies := rfl
@[simp] theorem State.setPipe_rails (s : State) (k : Nat) (x : Pipe) : (s.setPipe k x).rails = s.rails := rfl
@[simp] theorem State.setPipe_power (s : State) (k : Nat) (x : Pipe) : (s.setPipe k x).power = s.power := rfl
@[simp] theorem State.setPipe_stages (s : State) (k : Nat) (x : Pipe) : (s.setPipe k x).stages = s.stages := rfl
@[simp] theorem State.setPipe_held (s : State) (k : Nat) (x : Pipe) : (s.setPipe k x).held = s.held := rfl
@[simp] theorem State.setPipe_chanQueue (s : State) (k : Nat) (x : Pipe) : (s.setPipe k x).chanQueue = s.chanQueue := rfl
@[simp] theorem State.setPipe_grants (s : State) (k : Nat) (x : Pipe) : (s.setPipe k x).grants = s.grants := rfl
@[simp] theorem State.setPipe_drainTimeout (s : State) (k : Nat) (x : Pipe) : (s.setPipe k x).drainTimeout = s.drainTimeout := rfl
@[simp] theorem State.setPipe_chans (s : State) (k : Nat) (x : Pipe) : (s.setPipe k x).chans = s.chans := rfl
@[simp] theorem State.setPipe_tenders (s : State) (k : Nat) (x : Pipe) : (s.setPipe k x).tenders = s.tenders := rfl
@[simp] theorem State.setPipe_beacons (s : State) (k : Nat) (x : Pipe) : (s.setPipe k x).beacons = s.beacons := rfl
@[simp] theorem State.setPipe_txEnds (s : State) (k : Nat) (x : Pipe) : (s.setPipe k x).txEnds = s.txEnds := rfl
@[simp] theorem State.setPipe_rxEnds (s : State) (k : Nat) (x : Pipe) : (s.setPipe k x).rxEnds = s.rxEnds := rfl
@[simp] theorem State.setPipe_latches (s : State) (k : Nat) (x : Pipe) : (s.setPipe k x).latches = s.latches := rfl

@[simp] theorem State.setStack_pending (s : State) (k : Nat) (x : Stack) : (s.setStack k x).pending = s.pending := rfl
@[simp] theorem State.setStack_free (s : State) (k : Nat) (x : Stack) : (s.setStack k x).free = s.free := rfl
@[simp] theorem State.setStack_pins (s : State) (k : Nat) (x : Stack) : (s.setStack k x).pins = s.pins := rfl
@[simp] theorem State.setStack_boot (s : State) (k : Nat) (x : Stack) : (s.setStack k x).boot = s.boot := rfl
@[simp] theorem State.setStack_startIn (s : State) (k : Nat) (x : Stack) : (s.setStack k x).startIn = s.startIn := rfl
@[simp] theorem State.setStack_nor (s : State) (k : Nat) (x : Stack) : (s.setStack k x).nor = s.nor := rfl
@[simp] theorem State.setStack_upd (s : State) (k : Nat) (x : Stack) : (s.setStack k x).upd = s.upd := rfl
@[simp] theorem State.setStack_log (s : State) (k : Nat) (x : Stack) : (s.setStack k x).log = s.log := rfl
@[simp] theorem State.setStack_helm (s : State) (k : Nat) (x : Stack) : (s.setStack k x).helm = s.helm := rfl
@[simp] theorem State.setStack_sec (s : State) (k : Nat) (x : Stack) : (s.setStack k x).sec = s.sec := rfl
@[simp] theorem State.setStack_parts (s : State) (k : Nat) (x : Stack) : (s.setStack k x).parts = s.parts := rfl
@[simp] theorem State.setStack_tags (s : State) (k : Nat) (x : Stack) : (s.setStack k x).tags = s.tags := rfl
@[simp] theorem State.setStack_fab (s : State) (k : Nat) (x : Stack) : (s.setStack k x).fab = s.fab := rfl
@[simp] theorem State.setStack_caches (s : State) (k : Nat) (x : Stack) : (s.setStack k x).caches = s.caches := rfl
@[simp] theorem State.setStack_mem (s : State) (k : Nat) (x : Stack) : (s.setStack k x).mem = s.mem := rfl
@[simp] theorem State.setStack_poison (s : State) (k : Nat) (x : Stack) : (s.setStack k x).poison = s.poison := rfl
@[simp] theorem State.setStack_atomicUnits (s : State) (k : Nat) (x : Stack) : (s.setStack k x).atomicUnits = s.atomicUnits := rfl
@[simp] theorem State.setStack_skew (s : State) (k : Nat) (x : Stack) : (s.setStack k x).skew = s.skew := rfl
@[simp] theorem State.setStack_links (s : State) (k : Nat) (x : Stack) : (s.setStack k x).links = s.links := rfl
@[simp] theorem State.setStack_hubQ (s : State) (k : Nat) (x : Stack) : (s.setStack k x).hubQ = s.hubQ := rfl
@[simp] theorem State.setStack_relayWait (s : State) (k : Nat) (x : Stack) : (s.setStack k x).relayWait = s.relayWait := rfl
@[simp] theorem State.setStack_dies (s : State) (k : Nat) (x : Stack) : (s.setStack k x).dies = s.dies := rfl
@[simp] theorem State.setStack_rails (s : State) (k : Nat) (x : Stack) : (s.setStack k x).rails = s.rails := rfl
@[simp] theorem State.setStack_power (s : State) (k : Nat) (x : Stack) : (s.setStack k x).power = s.power := rfl
@[simp] theorem State.setStack_stages (s : State) (k : Nat) (x : Stack) : (s.setStack k x).stages = s.stages := rfl
@[simp] theorem State.setStack_held (s : State) (k : Nat) (x : Stack) : (s.setStack k x).held = s.held := rfl
@[simp] theorem State.setStack_pipes (s : State) (k : Nat) (x : Stack) : (s.setStack k x).pipes = s.pipes := rfl
@[simp] theorem State.setStack_chanQueue (s : State) (k : Nat) (x : Stack) : (s.setStack k x).chanQueue = s.chanQueue := rfl
@[simp] theorem State.setStack_grants (s : State) (k : Nat) (x : Stack) : (s.setStack k x).grants = s.grants := rfl
@[simp] theorem State.setStack_drainTimeout (s : State) (k : Nat) (x : Stack) : (s.setStack k x).drainTimeout = s.drainTimeout := rfl
@[simp] theorem State.setStack_chans (s : State) (k : Nat) (x : Stack) : (s.setStack k x).chans = s.chans := rfl
@[simp] theorem State.setStack_tenders (s : State) (k : Nat) (x : Stack) : (s.setStack k x).tenders = s.tenders := rfl
@[simp] theorem State.setStack_beacons (s : State) (k : Nat) (x : Stack) : (s.setStack k x).beacons = s.beacons := rfl
@[simp] theorem State.setStack_txEnds (s : State) (k : Nat) (x : Stack) : (s.setStack k x).txEnds = s.txEnds := rfl
@[simp] theorem State.setStack_rxEnds (s : State) (k : Nat) (x : Stack) : (s.setStack k x).rxEnds = s.rxEnds := rfl
@[simp] theorem State.setStack_latches (s : State) (k : Nat) (x : Stack) : (s.setStack k x).latches = s.latches := rfl

@[simp] theorem State.setLink_pending (s : State) (k : Nat) (x : LinkEnd) : (s.setLink k x).pending = s.pending := rfl
@[simp] theorem State.setLink_free (s : State) (k : Nat) (x : LinkEnd) : (s.setLink k x).free = s.free := rfl
@[simp] theorem State.setLink_pins (s : State) (k : Nat) (x : LinkEnd) : (s.setLink k x).pins = s.pins := rfl
@[simp] theorem State.setLink_boot (s : State) (k : Nat) (x : LinkEnd) : (s.setLink k x).boot = s.boot := rfl
@[simp] theorem State.setLink_startIn (s : State) (k : Nat) (x : LinkEnd) : (s.setLink k x).startIn = s.startIn := rfl
@[simp] theorem State.setLink_nor (s : State) (k : Nat) (x : LinkEnd) : (s.setLink k x).nor = s.nor := rfl
@[simp] theorem State.setLink_upd (s : State) (k : Nat) (x : LinkEnd) : (s.setLink k x).upd = s.upd := rfl
@[simp] theorem State.setLink_log (s : State) (k : Nat) (x : LinkEnd) : (s.setLink k x).log = s.log := rfl
@[simp] theorem State.setLink_helm (s : State) (k : Nat) (x : LinkEnd) : (s.setLink k x).helm = s.helm := rfl
@[simp] theorem State.setLink_sec (s : State) (k : Nat) (x : LinkEnd) : (s.setLink k x).sec = s.sec := rfl
@[simp] theorem State.setLink_parts (s : State) (k : Nat) (x : LinkEnd) : (s.setLink k x).parts = s.parts := rfl
@[simp] theorem State.setLink_tags (s : State) (k : Nat) (x : LinkEnd) : (s.setLink k x).tags = s.tags := rfl
@[simp] theorem State.setLink_fab (s : State) (k : Nat) (x : LinkEnd) : (s.setLink k x).fab = s.fab := rfl
@[simp] theorem State.setLink_caches (s : State) (k : Nat) (x : LinkEnd) : (s.setLink k x).caches = s.caches := rfl
@[simp] theorem State.setLink_mem (s : State) (k : Nat) (x : LinkEnd) : (s.setLink k x).mem = s.mem := rfl
@[simp] theorem State.setLink_poison (s : State) (k : Nat) (x : LinkEnd) : (s.setLink k x).poison = s.poison := rfl
@[simp] theorem State.setLink_atomicUnits (s : State) (k : Nat) (x : LinkEnd) : (s.setLink k x).atomicUnits = s.atomicUnits := rfl
@[simp] theorem State.setLink_hbmStacks (s : State) (k : Nat) (x : LinkEnd) : (s.setLink k x).hbmStacks = s.hbmStacks := rfl
@[simp] theorem State.setLink_skew (s : State) (k : Nat) (x : LinkEnd) : (s.setLink k x).skew = s.skew := rfl
@[simp] theorem State.setLink_hubQ (s : State) (k : Nat) (x : LinkEnd) : (s.setLink k x).hubQ = s.hubQ := rfl
@[simp] theorem State.setLink_relayWait (s : State) (k : Nat) (x : LinkEnd) : (s.setLink k x).relayWait = s.relayWait := rfl
@[simp] theorem State.setLink_dies (s : State) (k : Nat) (x : LinkEnd) : (s.setLink k x).dies = s.dies := rfl
@[simp] theorem State.setLink_rails (s : State) (k : Nat) (x : LinkEnd) : (s.setLink k x).rails = s.rails := rfl
@[simp] theorem State.setLink_power (s : State) (k : Nat) (x : LinkEnd) : (s.setLink k x).power = s.power := rfl
@[simp] theorem State.setLink_stages (s : State) (k : Nat) (x : LinkEnd) : (s.setLink k x).stages = s.stages := rfl
@[simp] theorem State.setLink_held (s : State) (k : Nat) (x : LinkEnd) : (s.setLink k x).held = s.held := rfl
@[simp] theorem State.setLink_pipes (s : State) (k : Nat) (x : LinkEnd) : (s.setLink k x).pipes = s.pipes := rfl
@[simp] theorem State.setLink_chanQueue (s : State) (k : Nat) (x : LinkEnd) : (s.setLink k x).chanQueue = s.chanQueue := rfl
@[simp] theorem State.setLink_grants (s : State) (k : Nat) (x : LinkEnd) : (s.setLink k x).grants = s.grants := rfl
@[simp] theorem State.setLink_drainTimeout (s : State) (k : Nat) (x : LinkEnd) : (s.setLink k x).drainTimeout = s.drainTimeout := rfl
@[simp] theorem State.setLink_chans (s : State) (k : Nat) (x : LinkEnd) : (s.setLink k x).chans = s.chans := rfl
@[simp] theorem State.setLink_tenders (s : State) (k : Nat) (x : LinkEnd) : (s.setLink k x).tenders = s.tenders := rfl
@[simp] theorem State.setLink_beacons (s : State) (k : Nat) (x : LinkEnd) : (s.setLink k x).beacons = s.beacons := rfl
@[simp] theorem State.setLink_txEnds (s : State) (k : Nat) (x : LinkEnd) : (s.setLink k x).txEnds = s.txEnds := rfl
@[simp] theorem State.setLink_rxEnds (s : State) (k : Nat) (x : LinkEnd) : (s.setLink k x).rxEnds = s.rxEnds := rfl
@[simp] theorem State.setLink_latches (s : State) (k : Nat) (x : LinkEnd) : (s.setLink k x).latches = s.latches := rfl

@[simp] theorem State.setCache_pending (s : State) (k : Nat) (x : Cache) : (s.setCache k x).pending = s.pending := rfl
@[simp] theorem State.setCache_free (s : State) (k : Nat) (x : Cache) : (s.setCache k x).free = s.free := rfl
@[simp] theorem State.setCache_pins (s : State) (k : Nat) (x : Cache) : (s.setCache k x).pins = s.pins := rfl
@[simp] theorem State.setCache_boot (s : State) (k : Nat) (x : Cache) : (s.setCache k x).boot = s.boot := rfl
@[simp] theorem State.setCache_startIn (s : State) (k : Nat) (x : Cache) : (s.setCache k x).startIn = s.startIn := rfl
@[simp] theorem State.setCache_nor (s : State) (k : Nat) (x : Cache) : (s.setCache k x).nor = s.nor := rfl
@[simp] theorem State.setCache_upd (s : State) (k : Nat) (x : Cache) : (s.setCache k x).upd = s.upd := rfl
@[simp] theorem State.setCache_log (s : State) (k : Nat) (x : Cache) : (s.setCache k x).log = s.log := rfl
@[simp] theorem State.setCache_helm (s : State) (k : Nat) (x : Cache) : (s.setCache k x).helm = s.helm := rfl
@[simp] theorem State.setCache_sec (s : State) (k : Nat) (x : Cache) : (s.setCache k x).sec = s.sec := rfl
@[simp] theorem State.setCache_parts (s : State) (k : Nat) (x : Cache) : (s.setCache k x).parts = s.parts := rfl
@[simp] theorem State.setCache_tags (s : State) (k : Nat) (x : Cache) : (s.setCache k x).tags = s.tags := rfl
@[simp] theorem State.setCache_fab (s : State) (k : Nat) (x : Cache) : (s.setCache k x).fab = s.fab := rfl
@[simp] theorem State.setCache_mem (s : State) (k : Nat) (x : Cache) : (s.setCache k x).mem = s.mem := rfl
@[simp] theorem State.setCache_poison (s : State) (k : Nat) (x : Cache) : (s.setCache k x).poison = s.poison := rfl
@[simp] theorem State.setCache_atomicUnits (s : State) (k : Nat) (x : Cache) : (s.setCache k x).atomicUnits = s.atomicUnits := rfl
@[simp] theorem State.setCache_hbmStacks (s : State) (k : Nat) (x : Cache) : (s.setCache k x).hbmStacks = s.hbmStacks := rfl
@[simp] theorem State.setCache_skew (s : State) (k : Nat) (x : Cache) : (s.setCache k x).skew = s.skew := rfl
@[simp] theorem State.setCache_links (s : State) (k : Nat) (x : Cache) : (s.setCache k x).links = s.links := rfl
@[simp] theorem State.setCache_hubQ (s : State) (k : Nat) (x : Cache) : (s.setCache k x).hubQ = s.hubQ := rfl
@[simp] theorem State.setCache_relayWait (s : State) (k : Nat) (x : Cache) : (s.setCache k x).relayWait = s.relayWait := rfl
@[simp] theorem State.setCache_dies (s : State) (k : Nat) (x : Cache) : (s.setCache k x).dies = s.dies := rfl
@[simp] theorem State.setCache_rails (s : State) (k : Nat) (x : Cache) : (s.setCache k x).rails = s.rails := rfl
@[simp] theorem State.setCache_power (s : State) (k : Nat) (x : Cache) : (s.setCache k x).power = s.power := rfl
@[simp] theorem State.setCache_stages (s : State) (k : Nat) (x : Cache) : (s.setCache k x).stages = s.stages := rfl
@[simp] theorem State.setCache_held (s : State) (k : Nat) (x : Cache) : (s.setCache k x).held = s.held := rfl
@[simp] theorem State.setCache_pipes (s : State) (k : Nat) (x : Cache) : (s.setCache k x).pipes = s.pipes := rfl
@[simp] theorem State.setCache_chanQueue (s : State) (k : Nat) (x : Cache) : (s.setCache k x).chanQueue = s.chanQueue := rfl
@[simp] theorem State.setCache_grants (s : State) (k : Nat) (x : Cache) : (s.setCache k x).grants = s.grants := rfl
@[simp] theorem State.setCache_drainTimeout (s : State) (k : Nat) (x : Cache) : (s.setCache k x).drainTimeout = s.drainTimeout := rfl
@[simp] theorem State.setCache_chans (s : State) (k : Nat) (x : Cache) : (s.setCache k x).chans = s.chans := rfl
@[simp] theorem State.setCache_tenders (s : State) (k : Nat) (x : Cache) : (s.setCache k x).tenders = s.tenders := rfl
@[simp] theorem State.setCache_beacons (s : State) (k : Nat) (x : Cache) : (s.setCache k x).beacons = s.beacons := rfl
@[simp] theorem State.setCache_txEnds (s : State) (k : Nat) (x : Cache) : (s.setCache k x).txEnds = s.txEnds := rfl
@[simp] theorem State.setCache_rxEnds (s : State) (k : Nat) (x : Cache) : (s.setCache k x).rxEnds = s.rxEnds := rfl
@[simp] theorem State.setCache_latches (s : State) (k : Nat) (x : Cache) : (s.setCache k x).latches = s.latches := rfl

@[simp] theorem State.setBeacon_pending (s : State) (k : Nat) (x : Beacon) : (s.setBeacon k x).pending = s.pending := rfl
@[simp] theorem State.setBeacon_free (s : State) (k : Nat) (x : Beacon) : (s.setBeacon k x).free = s.free := rfl
@[simp] theorem State.setBeacon_pins (s : State) (k : Nat) (x : Beacon) : (s.setBeacon k x).pins = s.pins := rfl
@[simp] theorem State.setBeacon_boot (s : State) (k : Nat) (x : Beacon) : (s.setBeacon k x).boot = s.boot := rfl
@[simp] theorem State.setBeacon_startIn (s : State) (k : Nat) (x : Beacon) : (s.setBeacon k x).startIn = s.startIn := rfl
@[simp] theorem State.setBeacon_nor (s : State) (k : Nat) (x : Beacon) : (s.setBeacon k x).nor = s.nor := rfl
@[simp] theorem State.setBeacon_upd (s : State) (k : Nat) (x : Beacon) : (s.setBeacon k x).upd = s.upd := rfl
@[simp] theorem State.setBeacon_log (s : State) (k : Nat) (x : Beacon) : (s.setBeacon k x).log = s.log := rfl
@[simp] theorem State.setBeacon_helm (s : State) (k : Nat) (x : Beacon) : (s.setBeacon k x).helm = s.helm := rfl
@[simp] theorem State.setBeacon_sec (s : State) (k : Nat) (x : Beacon) : (s.setBeacon k x).sec = s.sec := rfl
@[simp] theorem State.setBeacon_parts (s : State) (k : Nat) (x : Beacon) : (s.setBeacon k x).parts = s.parts := rfl
@[simp] theorem State.setBeacon_tags (s : State) (k : Nat) (x : Beacon) : (s.setBeacon k x).tags = s.tags := rfl
@[simp] theorem State.setBeacon_fab (s : State) (k : Nat) (x : Beacon) : (s.setBeacon k x).fab = s.fab := rfl
@[simp] theorem State.setBeacon_caches (s : State) (k : Nat) (x : Beacon) : (s.setBeacon k x).caches = s.caches := rfl
@[simp] theorem State.setBeacon_mem (s : State) (k : Nat) (x : Beacon) : (s.setBeacon k x).mem = s.mem := rfl
@[simp] theorem State.setBeacon_poison (s : State) (k : Nat) (x : Beacon) : (s.setBeacon k x).poison = s.poison := rfl
@[simp] theorem State.setBeacon_atomicUnits (s : State) (k : Nat) (x : Beacon) : (s.setBeacon k x).atomicUnits = s.atomicUnits := rfl
@[simp] theorem State.setBeacon_hbmStacks (s : State) (k : Nat) (x : Beacon) : (s.setBeacon k x).hbmStacks = s.hbmStacks := rfl
@[simp] theorem State.setBeacon_skew (s : State) (k : Nat) (x : Beacon) : (s.setBeacon k x).skew = s.skew := rfl
@[simp] theorem State.setBeacon_links (s : State) (k : Nat) (x : Beacon) : (s.setBeacon k x).links = s.links := rfl
@[simp] theorem State.setBeacon_hubQ (s : State) (k : Nat) (x : Beacon) : (s.setBeacon k x).hubQ = s.hubQ := rfl
@[simp] theorem State.setBeacon_relayWait (s : State) (k : Nat) (x : Beacon) : (s.setBeacon k x).relayWait = s.relayWait := rfl
@[simp] theorem State.setBeacon_dies (s : State) (k : Nat) (x : Beacon) : (s.setBeacon k x).dies = s.dies := rfl
@[simp] theorem State.setBeacon_rails (s : State) (k : Nat) (x : Beacon) : (s.setBeacon k x).rails = s.rails := rfl
@[simp] theorem State.setBeacon_power (s : State) (k : Nat) (x : Beacon) : (s.setBeacon k x).power = s.power := rfl
@[simp] theorem State.setBeacon_stages (s : State) (k : Nat) (x : Beacon) : (s.setBeacon k x).stages = s.stages := rfl
@[simp] theorem State.setBeacon_held (s : State) (k : Nat) (x : Beacon) : (s.setBeacon k x).held = s.held := rfl
@[simp] theorem State.setBeacon_pipes (s : State) (k : Nat) (x : Beacon) : (s.setBeacon k x).pipes = s.pipes := rfl
@[simp] theorem State.setBeacon_chanQueue (s : State) (k : Nat) (x : Beacon) : (s.setBeacon k x).chanQueue = s.chanQueue := rfl
@[simp] theorem State.setBeacon_grants (s : State) (k : Nat) (x : Beacon) : (s.setBeacon k x).grants = s.grants := rfl
@[simp] theorem State.setBeacon_drainTimeout (s : State) (k : Nat) (x : Beacon) : (s.setBeacon k x).drainTimeout = s.drainTimeout := rfl
@[simp] theorem State.setBeacon_chans (s : State) (k : Nat) (x : Beacon) : (s.setBeacon k x).chans = s.chans := rfl
@[simp] theorem State.setBeacon_tenders (s : State) (k : Nat) (x : Beacon) : (s.setBeacon k x).tenders = s.tenders := rfl
@[simp] theorem State.setBeacon_txEnds (s : State) (k : Nat) (x : Beacon) : (s.setBeacon k x).txEnds = s.txEnds := rfl
@[simp] theorem State.setBeacon_rxEnds (s : State) (k : Nat) (x : Beacon) : (s.setBeacon k x).rxEnds = s.rxEnds := rfl
@[simp] theorem State.setBeacon_latches (s : State) (k : Nat) (x : Beacon) : (s.setBeacon k x).latches = s.latches := rfl

@[simp] theorem State.setTag_pending (s : State) (k : Nat) (x : TagSt) : (s.setTag k x).pending = s.pending := rfl
@[simp] theorem State.setTag_free (s : State) (k : Nat) (x : TagSt) : (s.setTag k x).free = s.free := rfl
@[simp] theorem State.setTag_pins (s : State) (k : Nat) (x : TagSt) : (s.setTag k x).pins = s.pins := rfl
@[simp] theorem State.setTag_boot (s : State) (k : Nat) (x : TagSt) : (s.setTag k x).boot = s.boot := rfl
@[simp] theorem State.setTag_startIn (s : State) (k : Nat) (x : TagSt) : (s.setTag k x).startIn = s.startIn := rfl
@[simp] theorem State.setTag_nor (s : State) (k : Nat) (x : TagSt) : (s.setTag k x).nor = s.nor := rfl
@[simp] theorem State.setTag_upd (s : State) (k : Nat) (x : TagSt) : (s.setTag k x).upd = s.upd := rfl
@[simp] theorem State.setTag_log (s : State) (k : Nat) (x : TagSt) : (s.setTag k x).log = s.log := rfl
@[simp] theorem State.setTag_helm (s : State) (k : Nat) (x : TagSt) : (s.setTag k x).helm = s.helm := rfl
@[simp] theorem State.setTag_sec (s : State) (k : Nat) (x : TagSt) : (s.setTag k x).sec = s.sec := rfl
@[simp] theorem State.setTag_parts (s : State) (k : Nat) (x : TagSt) : (s.setTag k x).parts = s.parts := rfl
@[simp] theorem State.setTag_fab (s : State) (k : Nat) (x : TagSt) : (s.setTag k x).fab = s.fab := rfl
@[simp] theorem State.setTag_caches (s : State) (k : Nat) (x : TagSt) : (s.setTag k x).caches = s.caches := rfl
@[simp] theorem State.setTag_mem (s : State) (k : Nat) (x : TagSt) : (s.setTag k x).mem = s.mem := rfl
@[simp] theorem State.setTag_poison (s : State) (k : Nat) (x : TagSt) : (s.setTag k x).poison = s.poison := rfl
@[simp] theorem State.setTag_atomicUnits (s : State) (k : Nat) (x : TagSt) : (s.setTag k x).atomicUnits = s.atomicUnits := rfl
@[simp] theorem State.setTag_hbmStacks (s : State) (k : Nat) (x : TagSt) : (s.setTag k x).hbmStacks = s.hbmStacks := rfl
@[simp] theorem State.setTag_skew (s : State) (k : Nat) (x : TagSt) : (s.setTag k x).skew = s.skew := rfl
@[simp] theorem State.setTag_links (s : State) (k : Nat) (x : TagSt) : (s.setTag k x).links = s.links := rfl
@[simp] theorem State.setTag_hubQ (s : State) (k : Nat) (x : TagSt) : (s.setTag k x).hubQ = s.hubQ := rfl
@[simp] theorem State.setTag_relayWait (s : State) (k : Nat) (x : TagSt) : (s.setTag k x).relayWait = s.relayWait := rfl
@[simp] theorem State.setTag_dies (s : State) (k : Nat) (x : TagSt) : (s.setTag k x).dies = s.dies := rfl
@[simp] theorem State.setTag_rails (s : State) (k : Nat) (x : TagSt) : (s.setTag k x).rails = s.rails := rfl
@[simp] theorem State.setTag_power (s : State) (k : Nat) (x : TagSt) : (s.setTag k x).power = s.power := rfl
@[simp] theorem State.setTag_stages (s : State) (k : Nat) (x : TagSt) : (s.setTag k x).stages = s.stages := rfl
@[simp] theorem State.setTag_held (s : State) (k : Nat) (x : TagSt) : (s.setTag k x).held = s.held := rfl
@[simp] theorem State.setTag_pipes (s : State) (k : Nat) (x : TagSt) : (s.setTag k x).pipes = s.pipes := rfl
@[simp] theorem State.setTag_chanQueue (s : State) (k : Nat) (x : TagSt) : (s.setTag k x).chanQueue = s.chanQueue := rfl
@[simp] theorem State.setTag_grants (s : State) (k : Nat) (x : TagSt) : (s.setTag k x).grants = s.grants := rfl
@[simp] theorem State.setTag_drainTimeout (s : State) (k : Nat) (x : TagSt) : (s.setTag k x).drainTimeout = s.drainTimeout := rfl
@[simp] theorem State.setTag_chans (s : State) (k : Nat) (x : TagSt) : (s.setTag k x).chans = s.chans := rfl
@[simp] theorem State.setTag_tenders (s : State) (k : Nat) (x : TagSt) : (s.setTag k x).tenders = s.tenders := rfl
@[simp] theorem State.setTag_beacons (s : State) (k : Nat) (x : TagSt) : (s.setTag k x).beacons = s.beacons := rfl
@[simp] theorem State.setTag_txEnds (s : State) (k : Nat) (x : TagSt) : (s.setTag k x).txEnds = s.txEnds := rfl
@[simp] theorem State.setTag_rxEnds (s : State) (k : Nat) (x : TagSt) : (s.setTag k x).rxEnds = s.rxEnds := rfl
@[simp] theorem State.setTag_latches (s : State) (k : Nat) (x : TagSt) : (s.setTag k x).latches = s.latches := rfl

@[simp] theorem State.setMbox_pending (s : State) (k : Nat) (x : Mailbox) : (s.setMbox k x).pending = s.pending := rfl
@[simp] theorem State.setMbox_free (s : State) (k : Nat) (x : Mailbox) : (s.setMbox k x).free = s.free := rfl
@[simp] theorem State.setMbox_pins (s : State) (k : Nat) (x : Mailbox) : (s.setMbox k x).pins = s.pins := rfl
@[simp] theorem State.setMbox_boot (s : State) (k : Nat) (x : Mailbox) : (s.setMbox k x).boot = s.boot := rfl
@[simp] theorem State.setMbox_startIn (s : State) (k : Nat) (x : Mailbox) : (s.setMbox k x).startIn = s.startIn := rfl
@[simp] theorem State.setMbox_nor (s : State) (k : Nat) (x : Mailbox) : (s.setMbox k x).nor = s.nor := rfl
@[simp] theorem State.setMbox_upd (s : State) (k : Nat) (x : Mailbox) : (s.setMbox k x).upd = s.upd := rfl
@[simp] theorem State.setMbox_log (s : State) (k : Nat) (x : Mailbox) : (s.setMbox k x).log = s.log := rfl
@[simp] theorem State.setMbox_sec (s : State) (k : Nat) (x : Mailbox) : (s.setMbox k x).sec = s.sec := rfl
@[simp] theorem State.setMbox_parts (s : State) (k : Nat) (x : Mailbox) : (s.setMbox k x).parts = s.parts := rfl
@[simp] theorem State.setMbox_tags (s : State) (k : Nat) (x : Mailbox) : (s.setMbox k x).tags = s.tags := rfl
@[simp] theorem State.setMbox_fab (s : State) (k : Nat) (x : Mailbox) : (s.setMbox k x).fab = s.fab := rfl
@[simp] theorem State.setMbox_caches (s : State) (k : Nat) (x : Mailbox) : (s.setMbox k x).caches = s.caches := rfl
@[simp] theorem State.setMbox_mem (s : State) (k : Nat) (x : Mailbox) : (s.setMbox k x).mem = s.mem := rfl
@[simp] theorem State.setMbox_poison (s : State) (k : Nat) (x : Mailbox) : (s.setMbox k x).poison = s.poison := rfl
@[simp] theorem State.setMbox_atomicUnits (s : State) (k : Nat) (x : Mailbox) : (s.setMbox k x).atomicUnits = s.atomicUnits := rfl
@[simp] theorem State.setMbox_hbmStacks (s : State) (k : Nat) (x : Mailbox) : (s.setMbox k x).hbmStacks = s.hbmStacks := rfl
@[simp] theorem State.setMbox_skew (s : State) (k : Nat) (x : Mailbox) : (s.setMbox k x).skew = s.skew := rfl
@[simp] theorem State.setMbox_links (s : State) (k : Nat) (x : Mailbox) : (s.setMbox k x).links = s.links := rfl
@[simp] theorem State.setMbox_hubQ (s : State) (k : Nat) (x : Mailbox) : (s.setMbox k x).hubQ = s.hubQ := rfl
@[simp] theorem State.setMbox_relayWait (s : State) (k : Nat) (x : Mailbox) : (s.setMbox k x).relayWait = s.relayWait := rfl
@[simp] theorem State.setMbox_dies (s : State) (k : Nat) (x : Mailbox) : (s.setMbox k x).dies = s.dies := rfl
@[simp] theorem State.setMbox_rails (s : State) (k : Nat) (x : Mailbox) : (s.setMbox k x).rails = s.rails := rfl
@[simp] theorem State.setMbox_power (s : State) (k : Nat) (x : Mailbox) : (s.setMbox k x).power = s.power := rfl
@[simp] theorem State.setMbox_stages (s : State) (k : Nat) (x : Mailbox) : (s.setMbox k x).stages = s.stages := rfl
@[simp] theorem State.setMbox_held (s : State) (k : Nat) (x : Mailbox) : (s.setMbox k x).held = s.held := rfl
@[simp] theorem State.setMbox_pipes (s : State) (k : Nat) (x : Mailbox) : (s.setMbox k x).pipes = s.pipes := rfl
@[simp] theorem State.setMbox_chanQueue (s : State) (k : Nat) (x : Mailbox) : (s.setMbox k x).chanQueue = s.chanQueue := rfl
@[simp] theorem State.setMbox_grants (s : State) (k : Nat) (x : Mailbox) : (s.setMbox k x).grants = s.grants := rfl
@[simp] theorem State.setMbox_drainTimeout (s : State) (k : Nat) (x : Mailbox) : (s.setMbox k x).drainTimeout = s.drainTimeout := rfl
@[simp] theorem State.setMbox_chans (s : State) (k : Nat) (x : Mailbox) : (s.setMbox k x).chans = s.chans := rfl
@[simp] theorem State.setMbox_tenders (s : State) (k : Nat) (x : Mailbox) : (s.setMbox k x).tenders = s.tenders := rfl
@[simp] theorem State.setMbox_beacons (s : State) (k : Nat) (x : Mailbox) : (s.setMbox k x).beacons = s.beacons := rfl
@[simp] theorem State.setMbox_txEnds (s : State) (k : Nat) (x : Mailbox) : (s.setMbox k x).txEnds = s.txEnds := rfl
@[simp] theorem State.setMbox_rxEnds (s : State) (k : Nat) (x : Mailbox) : (s.setMbox k x).rxEnds = s.rxEnds := rfl
@[simp] theorem State.setMbox_latches (s : State) (k : Nat) (x : Mailbox) : (s.setMbox k x).latches = s.latches := rfl

@[simp] theorem State.setChan_pending (s : State) (k : Nat) (x : Chan) : (s.setChan k x).pending = s.pending := rfl
@[simp] theorem State.setChan_free (s : State) (k : Nat) (x : Chan) : (s.setChan k x).free = s.free := rfl
@[simp] theorem State.setChan_pins (s : State) (k : Nat) (x : Chan) : (s.setChan k x).pins = s.pins := rfl
@[simp] theorem State.setChan_boot (s : State) (k : Nat) (x : Chan) : (s.setChan k x).boot = s.boot := rfl
@[simp] theorem State.setChan_startIn (s : State) (k : Nat) (x : Chan) : (s.setChan k x).startIn = s.startIn := rfl
@[simp] theorem State.setChan_nor (s : State) (k : Nat) (x : Chan) : (s.setChan k x).nor = s.nor := rfl
@[simp] theorem State.setChan_upd (s : State) (k : Nat) (x : Chan) : (s.setChan k x).upd = s.upd := rfl
@[simp] theorem State.setChan_log (s : State) (k : Nat) (x : Chan) : (s.setChan k x).log = s.log := rfl
@[simp] theorem State.setChan_helm (s : State) (k : Nat) (x : Chan) : (s.setChan k x).helm = s.helm := rfl
@[simp] theorem State.setChan_sec (s : State) (k : Nat) (x : Chan) : (s.setChan k x).sec = s.sec := rfl
@[simp] theorem State.setChan_parts (s : State) (k : Nat) (x : Chan) : (s.setChan k x).parts = s.parts := rfl
@[simp] theorem State.setChan_tags (s : State) (k : Nat) (x : Chan) : (s.setChan k x).tags = s.tags := rfl
@[simp] theorem State.setChan_fab (s : State) (k : Nat) (x : Chan) : (s.setChan k x).fab = s.fab := rfl
@[simp] theorem State.setChan_caches (s : State) (k : Nat) (x : Chan) : (s.setChan k x).caches = s.caches := rfl
@[simp] theorem State.setChan_mem (s : State) (k : Nat) (x : Chan) : (s.setChan k x).mem = s.mem := rfl
@[simp] theorem State.setChan_poison (s : State) (k : Nat) (x : Chan) : (s.setChan k x).poison = s.poison := rfl
@[simp] theorem State.setChan_atomicUnits (s : State) (k : Nat) (x : Chan) : (s.setChan k x).atomicUnits = s.atomicUnits := rfl
@[simp] theorem State.setChan_hbmStacks (s : State) (k : Nat) (x : Chan) : (s.setChan k x).hbmStacks = s.hbmStacks := rfl
@[simp] theorem State.setChan_skew (s : State) (k : Nat) (x : Chan) : (s.setChan k x).skew = s.skew := rfl
@[simp] theorem State.setChan_links (s : State) (k : Nat) (x : Chan) : (s.setChan k x).links = s.links := rfl
@[simp] theorem State.setChan_hubQ (s : State) (k : Nat) (x : Chan) : (s.setChan k x).hubQ = s.hubQ := rfl
@[simp] theorem State.setChan_relayWait (s : State) (k : Nat) (x : Chan) : (s.setChan k x).relayWait = s.relayWait := rfl
@[simp] theorem State.setChan_dies (s : State) (k : Nat) (x : Chan) : (s.setChan k x).dies = s.dies := rfl
@[simp] theorem State.setChan_rails (s : State) (k : Nat) (x : Chan) : (s.setChan k x).rails = s.rails := rfl
@[simp] theorem State.setChan_power (s : State) (k : Nat) (x : Chan) : (s.setChan k x).power = s.power := rfl
@[simp] theorem State.setChan_stages (s : State) (k : Nat) (x : Chan) : (s.setChan k x).stages = s.stages := rfl
@[simp] theorem State.setChan_held (s : State) (k : Nat) (x : Chan) : (s.setChan k x).held = s.held := rfl
@[simp] theorem State.setChan_pipes (s : State) (k : Nat) (x : Chan) : (s.setChan k x).pipes = s.pipes := rfl
@[simp] theorem State.setChan_chanQueue (s : State) (k : Nat) (x : Chan) : (s.setChan k x).chanQueue = s.chanQueue := rfl
@[simp] theorem State.setChan_grants (s : State) (k : Nat) (x : Chan) : (s.setChan k x).grants = s.grants := rfl
@[simp] theorem State.setChan_drainTimeout (s : State) (k : Nat) (x : Chan) : (s.setChan k x).drainTimeout = s.drainTimeout := rfl
@[simp] theorem State.setChan_tenders (s : State) (k : Nat) (x : Chan) : (s.setChan k x).tenders = s.tenders := rfl
@[simp] theorem State.setChan_beacons (s : State) (k : Nat) (x : Chan) : (s.setChan k x).beacons = s.beacons := rfl
@[simp] theorem State.setChan_txEnds (s : State) (k : Nat) (x : Chan) : (s.setChan k x).txEnds = s.txEnds := rfl
@[simp] theorem State.setChan_rxEnds (s : State) (k : Nat) (x : Chan) : (s.setChan k x).rxEnds = s.rxEnds := rfl
@[simp] theorem State.setChan_latches (s : State) (k : Nat) (x : Chan) : (s.setChan k x).latches = s.latches := rfl

@[simp] theorem State.setTx_pending (s : State) (b q : Nat) (x : TxEnd) : (s.setTx b q x).pending = s.pending := rfl
@[simp] theorem State.setTx_free (s : State) (b q : Nat) (x : TxEnd) : (s.setTx b q x).free = s.free := rfl
@[simp] theorem State.setTx_pins (s : State) (b q : Nat) (x : TxEnd) : (s.setTx b q x).pins = s.pins := rfl
@[simp] theorem State.setTx_boot (s : State) (b q : Nat) (x : TxEnd) : (s.setTx b q x).boot = s.boot := rfl
@[simp] theorem State.setTx_startIn (s : State) (b q : Nat) (x : TxEnd) : (s.setTx b q x).startIn = s.startIn := rfl
@[simp] theorem State.setTx_nor (s : State) (b q : Nat) (x : TxEnd) : (s.setTx b q x).nor = s.nor := rfl
@[simp] theorem State.setTx_upd (s : State) (b q : Nat) (x : TxEnd) : (s.setTx b q x).upd = s.upd := rfl
@[simp] theorem State.setTx_log (s : State) (b q : Nat) (x : TxEnd) : (s.setTx b q x).log = s.log := rfl
@[simp] theorem State.setTx_helm (s : State) (b q : Nat) (x : TxEnd) : (s.setTx b q x).helm = s.helm := rfl
@[simp] theorem State.setTx_sec (s : State) (b q : Nat) (x : TxEnd) : (s.setTx b q x).sec = s.sec := rfl
@[simp] theorem State.setTx_parts (s : State) (b q : Nat) (x : TxEnd) : (s.setTx b q x).parts = s.parts := rfl
@[simp] theorem State.setTx_tags (s : State) (b q : Nat) (x : TxEnd) : (s.setTx b q x).tags = s.tags := rfl
@[simp] theorem State.setTx_fab (s : State) (b q : Nat) (x : TxEnd) : (s.setTx b q x).fab = s.fab := rfl
@[simp] theorem State.setTx_caches (s : State) (b q : Nat) (x : TxEnd) : (s.setTx b q x).caches = s.caches := rfl
@[simp] theorem State.setTx_mem (s : State) (b q : Nat) (x : TxEnd) : (s.setTx b q x).mem = s.mem := rfl
@[simp] theorem State.setTx_poison (s : State) (b q : Nat) (x : TxEnd) : (s.setTx b q x).poison = s.poison := rfl
@[simp] theorem State.setTx_atomicUnits (s : State) (b q : Nat) (x : TxEnd) : (s.setTx b q x).atomicUnits = s.atomicUnits := rfl
@[simp] theorem State.setTx_hbmStacks (s : State) (b q : Nat) (x : TxEnd) : (s.setTx b q x).hbmStacks = s.hbmStacks := rfl
@[simp] theorem State.setTx_skew (s : State) (b q : Nat) (x : TxEnd) : (s.setTx b q x).skew = s.skew := rfl
@[simp] theorem State.setTx_links (s : State) (b q : Nat) (x : TxEnd) : (s.setTx b q x).links = s.links := rfl
@[simp] theorem State.setTx_hubQ (s : State) (b q : Nat) (x : TxEnd) : (s.setTx b q x).hubQ = s.hubQ := rfl
@[simp] theorem State.setTx_relayWait (s : State) (b q : Nat) (x : TxEnd) : (s.setTx b q x).relayWait = s.relayWait := rfl
@[simp] theorem State.setTx_dies (s : State) (b q : Nat) (x : TxEnd) : (s.setTx b q x).dies = s.dies := rfl
@[simp] theorem State.setTx_rails (s : State) (b q : Nat) (x : TxEnd) : (s.setTx b q x).rails = s.rails := rfl
@[simp] theorem State.setTx_power (s : State) (b q : Nat) (x : TxEnd) : (s.setTx b q x).power = s.power := rfl
@[simp] theorem State.setTx_stages (s : State) (b q : Nat) (x : TxEnd) : (s.setTx b q x).stages = s.stages := rfl
@[simp] theorem State.setTx_held (s : State) (b q : Nat) (x : TxEnd) : (s.setTx b q x).held = s.held := rfl
@[simp] theorem State.setTx_pipes (s : State) (b q : Nat) (x : TxEnd) : (s.setTx b q x).pipes = s.pipes := rfl
@[simp] theorem State.setTx_chanQueue (s : State) (b q : Nat) (x : TxEnd) : (s.setTx b q x).chanQueue = s.chanQueue := rfl
@[simp] theorem State.setTx_grants (s : State) (b q : Nat) (x : TxEnd) : (s.setTx b q x).grants = s.grants := rfl
@[simp] theorem State.setTx_drainTimeout (s : State) (b q : Nat) (x : TxEnd) : (s.setTx b q x).drainTimeout = s.drainTimeout := rfl
@[simp] theorem State.setTx_chans (s : State) (b q : Nat) (x : TxEnd) : (s.setTx b q x).chans = s.chans := rfl
@[simp] theorem State.setTx_tenders (s : State) (b q : Nat) (x : TxEnd) : (s.setTx b q x).tenders = s.tenders := rfl
@[simp] theorem State.setTx_beacons (s : State) (b q : Nat) (x : TxEnd) : (s.setTx b q x).beacons = s.beacons := rfl
@[simp] theorem State.setTx_rxEnds (s : State) (b q : Nat) (x : TxEnd) : (s.setTx b q x).rxEnds = s.rxEnds := rfl
@[simp] theorem State.setTx_latches (s : State) (b q : Nat) (x : TxEnd) : (s.setTx b q x).latches = s.latches := rfl

@[simp] theorem State.setRx_pending (s : State) (b q : Nat) (x : RxEnd) : (s.setRx b q x).pending = s.pending := rfl
@[simp] theorem State.setRx_free (s : State) (b q : Nat) (x : RxEnd) : (s.setRx b q x).free = s.free := rfl
@[simp] theorem State.setRx_pins (s : State) (b q : Nat) (x : RxEnd) : (s.setRx b q x).pins = s.pins := rfl
@[simp] theorem State.setRx_boot (s : State) (b q : Nat) (x : RxEnd) : (s.setRx b q x).boot = s.boot := rfl
@[simp] theorem State.setRx_startIn (s : State) (b q : Nat) (x : RxEnd) : (s.setRx b q x).startIn = s.startIn := rfl
@[simp] theorem State.setRx_nor (s : State) (b q : Nat) (x : RxEnd) : (s.setRx b q x).nor = s.nor := rfl
@[simp] theorem State.setRx_upd (s : State) (b q : Nat) (x : RxEnd) : (s.setRx b q x).upd = s.upd := rfl
@[simp] theorem State.setRx_log (s : State) (b q : Nat) (x : RxEnd) : (s.setRx b q x).log = s.log := rfl
@[simp] theorem State.setRx_helm (s : State) (b q : Nat) (x : RxEnd) : (s.setRx b q x).helm = s.helm := rfl
@[simp] theorem State.setRx_sec (s : State) (b q : Nat) (x : RxEnd) : (s.setRx b q x).sec = s.sec := rfl
@[simp] theorem State.setRx_parts (s : State) (b q : Nat) (x : RxEnd) : (s.setRx b q x).parts = s.parts := rfl
@[simp] theorem State.setRx_tags (s : State) (b q : Nat) (x : RxEnd) : (s.setRx b q x).tags = s.tags := rfl
@[simp] theorem State.setRx_fab (s : State) (b q : Nat) (x : RxEnd) : (s.setRx b q x).fab = s.fab := rfl
@[simp] theorem State.setRx_caches (s : State) (b q : Nat) (x : RxEnd) : (s.setRx b q x).caches = s.caches := rfl
@[simp] theorem State.setRx_mem (s : State) (b q : Nat) (x : RxEnd) : (s.setRx b q x).mem = s.mem := rfl
@[simp] theorem State.setRx_poison (s : State) (b q : Nat) (x : RxEnd) : (s.setRx b q x).poison = s.poison := rfl
@[simp] theorem State.setRx_atomicUnits (s : State) (b q : Nat) (x : RxEnd) : (s.setRx b q x).atomicUnits = s.atomicUnits := rfl
@[simp] theorem State.setRx_hbmStacks (s : State) (b q : Nat) (x : RxEnd) : (s.setRx b q x).hbmStacks = s.hbmStacks := rfl
@[simp] theorem State.setRx_skew (s : State) (b q : Nat) (x : RxEnd) : (s.setRx b q x).skew = s.skew := rfl
@[simp] theorem State.setRx_links (s : State) (b q : Nat) (x : RxEnd) : (s.setRx b q x).links = s.links := rfl
@[simp] theorem State.setRx_hubQ (s : State) (b q : Nat) (x : RxEnd) : (s.setRx b q x).hubQ = s.hubQ := rfl
@[simp] theorem State.setRx_relayWait (s : State) (b q : Nat) (x : RxEnd) : (s.setRx b q x).relayWait = s.relayWait := rfl
@[simp] theorem State.setRx_dies (s : State) (b q : Nat) (x : RxEnd) : (s.setRx b q x).dies = s.dies := rfl
@[simp] theorem State.setRx_rails (s : State) (b q : Nat) (x : RxEnd) : (s.setRx b q x).rails = s.rails := rfl
@[simp] theorem State.setRx_power (s : State) (b q : Nat) (x : RxEnd) : (s.setRx b q x).power = s.power := rfl
@[simp] theorem State.setRx_stages (s : State) (b q : Nat) (x : RxEnd) : (s.setRx b q x).stages = s.stages := rfl
@[simp] theorem State.setRx_held (s : State) (b q : Nat) (x : RxEnd) : (s.setRx b q x).held = s.held := rfl
@[simp] theorem State.setRx_pipes (s : State) (b q : Nat) (x : RxEnd) : (s.setRx b q x).pipes = s.pipes := rfl
@[simp] theorem State.setRx_chanQueue (s : State) (b q : Nat) (x : RxEnd) : (s.setRx b q x).chanQueue = s.chanQueue := rfl
@[simp] theorem State.setRx_grants (s : State) (b q : Nat) (x : RxEnd) : (s.setRx b q x).grants = s.grants := rfl
@[simp] theorem State.setRx_drainTimeout (s : State) (b q : Nat) (x : RxEnd) : (s.setRx b q x).drainTimeout = s.drainTimeout := rfl
@[simp] theorem State.setRx_chans (s : State) (b q : Nat) (x : RxEnd) : (s.setRx b q x).chans = s.chans := rfl
@[simp] theorem State.setRx_tenders (s : State) (b q : Nat) (x : RxEnd) : (s.setRx b q x).tenders = s.tenders := rfl
@[simp] theorem State.setRx_beacons (s : State) (b q : Nat) (x : RxEnd) : (s.setRx b q x).beacons = s.beacons := rfl
@[simp] theorem State.setRx_txEnds (s : State) (b q : Nat) (x : RxEnd) : (s.setRx b q x).txEnds = s.txEnds := rfl
@[simp] theorem State.setRx_latches (s : State) (b q : Nat) (x : RxEnd) : (s.setRx b q x).latches = s.latches := rfl

@[simp] theorem State.setMbox_helm_eth (s : State) (k : Nat) (x : Mailbox) : (s.setMbox k x).helm.eth = s.helm.eth := rfl
@[simp] theorem State.setMbox_helm_sessions (s : State) (k : Nat) (x : Mailbox) : (s.setMbox k x).helm.sessions = s.helm.sessions := rfl
@[simp] theorem State.setMbox_helm_halfOpen (s : State) (k : Nat) (x : Mailbox) : (s.setMbox k x).helm.halfOpen = s.helm.halfOpen := rfl
@[simp] theorem State.setMbox_helm_nextSession (s : State) (k : Nat) (x : Mailbox) : (s.setMbox k x).helm.nextSession = s.helm.nextSession := rfl
@[simp] theorem State.setMbox_helm_tx (s : State) (k : Nat) (x : Mailbox) : (s.setMbox k x).helm.tx = s.helm.tx := rfl
@[simp] theorem State.setMbox_helm_bulk (s : State) (k : Nat) (x : Mailbox) : (s.setMbox k x).helm.bulk = s.helm.bulk := rfl
@[simp] theorem State.setMbox_helm_memOps (s : State) (k : Nat) (x : Mailbox) : (s.setMbox k x).helm.memOps = s.helm.memOps := rfl
@[simp] theorem State.setMbox_helm_sb (s : State) (k : Nat) (x : Mailbox) : (s.setMbox k x).helm.sb = s.helm.sb := rfl
@[simp] theorem State.setMbox_helm_winWaits (s : State) (k : Nat) (x : Mailbox) : (s.setMbox k x).helm.winWaits = s.helm.winWaits := rfl

@[simp] theorem State.die_setDie (s : State) (k : Nat) (x : Die) : (s.setDie k x).die k = x := Tbl.getD_set_self _ _ _ _
theorem State.die_setDie_ne (s : State) (k j : Nat) (x : Die) (h : j ≠ k) : (s.setDie k x).die j = s.die j :=
  Tbl.getD_set_ne _ _ _ _ _ h
@[simp] theorem State.stage_setStage (s : State) (k : Nat) (x : Stage) : (s.setStage k x).stage k = x := Tbl.getD_set_self _ _ _ _
theorem State.stage_setStage_ne (s : State) (k j : Nat) (x : Stage) (h : j ≠ k) : (s.setStage k x).stage j = s.stage j :=
  Tbl.getD_set_ne _ _ _ _ _ h
@[simp] theorem State.stack_setStack (s : State) (k : Nat) (x : Stack) : (s.setStack k x).stack k = x := Tbl.getD_set_self _ _ _ _
theorem State.stack_setStack_ne (s : State) (k j : Nat) (x : Stack) (h : j ≠ k) : (s.setStack k x).stack j = s.stack j :=
  Tbl.getD_set_ne _ _ _ _ _ h
@[simp] theorem State.link_setLink (s : State) (k : Nat) (x : LinkEnd) : (s.setLink k x).link k = x := Tbl.getD_set_self _ _ _ _
theorem State.link_setLink_ne (s : State) (k j : Nat) (x : LinkEnd) (h : j ≠ k) : (s.setLink k x).link j = s.link j :=
  Tbl.getD_set_ne _ _ _ _ _ h
@[simp] theorem State.cache_setCache (s : State) (k : Nat) (x : Cache) : (s.setCache k x).cache k = x := Tbl.getD_set_self _ _ _ _
theorem State.cache_setCache_ne (s : State) (k j : Nat) (x : Cache) (h : j ≠ k) : (s.setCache k x).cache j = s.cache j :=
  Tbl.getD_set_ne _ _ _ _ _ h
@[simp] theorem State.beacon_setBeacon (s : State) (k : Nat) (x : Beacon) : (s.setBeacon k x).beacon k = x := Tbl.getD_set_self _ _ _ _
theorem State.beacon_setBeacon_ne (s : State) (k j : Nat) (x : Beacon) (h : j ≠ k) : (s.setBeacon k x).beacon j = s.beacon j :=
  Tbl.getD_set_ne _ _ _ _ _ h
@[simp] theorem State.tagSt_setTag (s : State) (k : Nat) (x : TagSt) : (s.setTag k x).tagSt k = x := Tbl.getD_set_self _ _ _ _
theorem State.tagSt_setTag_ne (s : State) (k j : Nat) (x : TagSt) (h : j ≠ k) : (s.setTag k x).tagSt j = s.tagSt j :=
  Tbl.getD_set_ne _ _ _ _ _ h
@[simp] theorem State.mbox_setMbox (s : State) (k : Nat) (x : Mailbox) : (s.setMbox k x).mbox k = x := Tbl.getD_set_self _ _ _ _
theorem State.mbox_setMbox_ne (s : State) (k j : Nat) (x : Mailbox) (h : j ≠ k) : (s.setMbox k x).mbox j = s.mbox j :=
  Tbl.getD_set_ne _ _ _ _ _ h
@[simp] theorem State.chan_setChan (s : State) (k : Nat) (x : Chan) : (s.setChan k x).chan k = x := Tbl.getD_set_self _ _ _ _
theorem State.chan_setChan_ne (s : State) (k j : Nat) (x : Chan) (h : j ≠ k) : (s.setChan k x).chan j = s.chan j :=
  Tbl.getD_set_ne _ _ _ _ _ h
@[simp] theorem State.pipe?_setPipe (s : State) (k : Nat) (x : Pipe) : (s.setPipe k x).pipe? k = some x := Tbl.get?_set_self _ _ _
theorem State.pipe?_setPipe_ne (s : State) (k j : Nat) (x : Pipe) (h : j ≠ k) : (s.setPipe k x).pipe? j = s.pipe? j :=
  Tbl.get?_set_ne _ _ _ _ h

end Sys2Proof.Machine
end

