-- ==== Sys2Proof/Laws/Helm.lean ====
section
/-!
SUPPORT. Helm commands once and for all: what a command taken by its mailbox leaves when its own meaning answers (12: R379, R386; 13: R397 to
R402).
-/
namespace Sys2Proof.Machine

open Sys2Proof

theorem State.setMbox_eta (s : State) (k : Nat) (x : Mailbox) :
    s.setMbox k x = { s with helm := { s.helm with mailboxes := Tbl.set s.helm.mailboxes k x } } := rfl

@[simp] theorem State.framePayload_setMbox (s : State) (k : Nat) (x : Mailbox) (mb : Nat) :
    (s.setMbox k x).framePayload mb = s.framePayload mb := rfl

@[simp] theorem State.isReady_setMbox (s : State) (k : Nat) (x : Mailbox) : (s.setMbox k x).isReady = s.isReady := rfl

theorem State.onlyMailbox_refl (u : State) (mb : Nat) : u.onlyMailbox u mb := ⟨rfl, fun _ _ => rfl, rfl, rfl, rfl⟩

theorem State.onlyMailbox_trans {u v w : State} {mb : Nat} (h : u.onlyMailbox v mb) (h' : v.onlyMailbox w mb) : u.onlyMailbox w mb := by
  obtain ⟨a, b, c, d, e⟩ := h
  obtain ⟨a', b', c', d', e'⟩ := h'
  refine ⟨?_, fun k hk => (b' k hk).trans (b k hk), c'.trans c, d'.trans d, e'.trans e⟩
  rw [a', a]

theorem State.onlyMailbox_setMbox (u : State) (mb : Nat) (x : Mailbox) (h1 : x.mask = (u.mbox mb).mask)
    (h2 : x.promised = (u.mbox mb).promised) (h3 : x.lost = (u.mbox mb).lost) : u.onlyMailbox (u.setMbox mb x) mb :=
  ⟨rfl, fun k hk => State.mbox_setMbox_ne u mb k x hk, by simp [h1], by simp [h2], by simp [h3]⟩

theorem State.respond_only (s : State) (w : Waiter) (code status : Nat) (p : List Byte) :
    s.onlyMailbox (s.respond w code status p) w.1 := State.onlyMailbox_setMbox _ _ _ rfl rfl rfl

theorem State.respond_mbox (s : State) (w : Waiter) (code status : Nat) (p : List Byte) :
    (s.respond w code status p).mbox w.1 = { s.mbox w.1 with
      out := (s.mbox w.1).out ++ respFrames w.1 code status w.2 (s.framePayload w.1) (p.length + 1) p
      running := if (s.mbox w.1).running = some w.2 then none else (s.mbox w.1).running } := State.mbox_setMbox _ _ _

/-- Unknown commands answered: the outbound queue only grows, and nothing starts. -/
theorem answerUnknown_spec (mb : Nat) (cs : List QueuedCmd) (s : State) (h : (s.mbox mb).running = none) :
    s.onlyMailbox (answerUnknown mb cs s) mb ∧ (∃ l, ((answerUnknown mb cs s).mbox mb).out = (s.mbox mb).out ++ l) ∧
      ((answerUnknown mb cs s).mbox mb).running = none := by
  induction cs generalizing s with
  | nil =>
    refine ⟨State.onlyMailbox_setMbox _ _ _ rfl rfl rfl, ⟨[], ?_⟩, ?_⟩
    · simp [answerUnknown]
    · simpa [answerUnknown] using h
  | cons c cs ih =>
    simp only [answerUnknown]
    split
    · refine ⟨State.onlyMailbox_setMbox _ _ _ rfl rfl rfl, ⟨[], ?_⟩, ?_⟩
      · simp
      · simpa using h
    · generalize hr : s.respond (mb, c.seq) _ _ [] = r
      have hm := State.respond_mbox s (mb, c.seq) (field c.body 0 2) (if s.isReady then 7 else 0xE) []
      rw [hr] at hm
      have ho := State.respond_only s (mb, c.seq) (field c.body 0 2) (if s.isReady then 7 else 0xE) []
      rw [hr] at ho
      simp only at hm ho
      have hrun : (r.mbox mb).running = none := by rw [hm]; simp [h]
      obtain ⟨a, ⟨l, b⟩, c'⟩ := ih r hrun
      refine ⟨State.onlyMailbox_trans ho a, ?_, c'⟩
      rw [b, hm]
      exact ⟨_, by rw [List.append_assoc]⟩

theorem State.skipUnknown_spec (s : State) (mb : Nat) (h : (s.mbox mb).running = none) :
    s.onlyMailbox (s.skipUnknown mb) mb ∧ (∃ l, ((s.skipUnknown mb).mbox mb).out = (s.mbox mb).out ++ l) ∧
      ((s.skipUnknown mb).mbox mb).running = none := by
  unfold State.skipUnknown
  rw [if_pos h]
  exact answerUnknown_spec _ _ _ h

/-- The answer of the command that runs. -/
theorem State.answerCmd_spec (s : State) (mb seq code status : Nat) (p : List Byte) (h : (s.mbox mb).running = some seq) :
    (s.answerCmd (mb, seq) code status p).answered mb code status seq p ∧ s.onlyMailbox (s.answerCmd (mb, seq) code status p) mb ∧
      ∃ l, ((s.answerCmd (mb, seq) code status p).mbox mb).out =
        (s.mbox mb).out ++ respFrames mb code status seq (s.framePayload mb) (p.length + 1) p ++ l := by
  unfold State.answerCmd
  rw [if_pos h]
  have hm := State.respond_mbox s (mb, seq) code status p
  simp only at hm
  have hrun : ((s.respond (mb, seq) code status p).mbox mb).running = none := by rw [hm]; simp [h]
  obtain ⟨a, ⟨l, b⟩, c⟩ := State.skipUnknown_spec _ mb hrun
  have hall := State.onlyMailbox_trans (State.respond_only s (mb, seq) code status p) a
  refine ⟨⟨?_, c⟩, hall, l, ?_⟩
  · have hf : ((s.respond (mb, seq) code status p).skipUnknown mb).framePayload mb = s.framePayload mb := by
      rw [hall.1]; rfl
    rw [hf, b, hm]
    exact ⟨(s.mbox mb).out, l, rfl⟩
  · rw [b, hm]

theorem Mailbox.starts_of (m : Mailbox) (seq : Nat) (body : List Byte) (h : m.running = none)
    (hq : ∃ cs, m.queue = { seq := seq, body := body } :: cs) :
    m.starts seq body = some { m with running := some seq, runCode := field body 0 2, queue := m.queue.tail } := by
  unfold Mailbox.starts
  obtain ⟨cs, hq⟩ := hq
  simp [h, hq]

/-- A command taken and answered by its own meaning. -/
theorem State.runHelm_done (s : State) (code : Nat) (pt0 : Bool) (sizes : Option (List Nat)) (mb seq : Nat) (body : List Byte)
    (run : Waiter → List Byte → State → Ans) (st : Nat) (out : List Byte) (u : State)
    (ht : s.takes mb seq body) (hr : s.isReady = true ∨ earlyCodes.contains code = true)
    (hsb : mb ≠ sbKey ∨ sidebandCodes.contains code = true) (hpt : pt0 = true → mbPartition mb = 0)
    (hs : (sizes.bind (fun ns => shortAt ns 0 (body.drop 4).length)) = none)
    (hrun : run (mb, seq) (body.drop 4) (s.taken mb seq body) = .done st out u) (hu : (u.mbox mb).running = some seq) :
    ∃ t, s.runHelm code pt0 sizes mb seq body run = .next t ∧ t.answered mb code st seq out ∧ u.onlyMailbox t mb := by
  obtain ⟨h1, h2, h3, h4⟩ := ht
  refine ⟨u.answerCmd (mb, seq) code st out, ?_, (State.answerCmd_spec u mb seq code st out hu).1,
    (State.answerCmd_spec u mb seq code st out hu).2.1⟩
  unfold State.runHelm
  rw [if_neg (by simp [h1, h2]), Mailbox.starts_of _ _ _ h3 h4]
  simp only
  change Host.Outcome.next ((s.taken mb seq body).helmRun code pt0 sizes (mb, seq) (body.drop 4) run) = _
  unfold State.helmRun
  have e1 : (!(s.taken mb seq body).isReady && !earlyCodes.contains code) = false := by
    have : (s.taken mb seq body).isReady = s.isReady := rfl
    rw [this]
    rcases hr with hr | hr
    · simp [hr]
    · rw [hr]; simp
  have e2 : (mb == sbKey && !sidebandCodes.contains code) = false := by
    rcases hsb with hsb | hsb
    · simp [hsb]
    · rw [hsb]; simp
  have e3 : (pt0 && mbPartition mb != 0) = false := by
    cases pt0 with
    | false => rfl
    | true => simp [hpt rfl]
  simp only [e1, e2, e3, hs, hrun]
  rfl

@[simp] theorem State.taken_running (s : State) (mb seq : Nat) (body : List Byte) :
    ((s.taken mb seq body).mbox mb).running = some seq := by simp [State.taken]

theorem State.taken_only (s : State) (mb seq : Nat) (body : List Byte) : s.onlyMailbox (s.taken mb seq body) mb :=
  State.onlyMailbox_setMbox _ _ _ rfl rfl rfl

/-- The form the claims use: a command of the Ethernet port, its payload split off. -/
theorem State.serves_done (s : State) (code : Nat) (pt0 : Bool) (sizes : Option (List Nat)) (mb seq : Nat) (h p : List Byte)
    (run : Waiter → List Byte → State → Ans) (st : Nat) (out : List Byte) (u : State) (ht : s.serves mb seq h p)
    (hpt : pt0 = true → mbPartition mb = 0) (hs : (sizes.bind (fun ns => shortAt ns 0 p.length)) = none)
    (hrun : run (mb, seq) p (s.taken mb seq (h ++ p)) = .done st out u) (hu : (u.mbox mb).running = some seq) :
    ∃ t, s.runHelm code pt0 sizes mb seq (h ++ p) run = .next t ∧ t.answered mb code st seq out ∧ u.onlyMailbox t mb := by
  obtain ⟨hl, hr, hsb, ht⟩ := ht
  have hd : (h ++ p).drop 4 = p := by rw [List.drop_append]; simp [hl]
  exact State.runHelm_done s code pt0 sizes mb seq (h ++ p) run st out u ht (.inl hr) (.inl hsb) hpt (by rw [hd]; exact hs)
    (by rw [hd]; exact hrun) hu

/-- A command that reads or refuses and changes nothing. -/
theorem State.serves_answer (s : State) (code : Nat) (pt0 : Bool) (sizes : Option (List Nat)) (mb seq : Nat) (h p : List Byte)
    (run : Waiter → List Byte → State → Ans) (st : Nat) (out : List Byte) (ht : s.serves mb seq h p)
    (hpt : pt0 = true → mbPartition mb = 0) (hs : (sizes.bind (fun ns => shortAt ns 0 p.length)) = none)
    (hrun : run (mb, seq) p (s.taken mb seq (h ++ p)) = .done st out (s.taken mb seq (h ++ p))) :
    ∃ t, s.runHelm code pt0 sizes mb seq (h ++ p) run = .next t ∧ t.answered mb code st seq out ∧ s.onlyMailbox t mb := by
  obtain ⟨t, h1, h2, h3⟩ := State.serves_done s code pt0 sizes mb seq h p run st out _ ht hpt hs hrun (by simp)
  exact ⟨t, h1, h2, State.onlyMailbox_trans (State.taken_only _ _ _ _) h3⟩

/-- A command whose row is picked by a byte of its payload, where that byte is the row's. -/
theorem State.runMode_hit (s : State) (code : Nat) (pt0 : Bool) (sizes : Option (List Nat)) (off mode most mb seq : Nat) (h p : List Byte)
    (run : Waiter → List Byte → State → Ans) (hl : h.length = 4) (hm : field p off 1 = mode) :
    s.runMode code pt0 sizes off mode most mb seq (h ++ p) run = s.runHelm code pt0 sizes mb seq (h ++ p) run := by
  have hd : (h ++ p).drop 4 = p := by rw [List.drop_append]; simp [hl]
  simp [State.runMode, hd, hm]

/-- A command that goes on after its own first step. -/
theorem State.serves_runs (s : State) (code : Nat) (pt0 : Bool) (sizes : Option (List Nat)) (mb seq : Nat) (h p : List Byte)
    (run : Waiter → List Byte → State → Ans) (u : State) (ht : s.serves mb seq h p)
    (hpt : pt0 = true → mbPartition mb = 0) (hs : (sizes.bind (fun ns => shortAt ns 0 p.length)) = none)
    (hrun : run (mb, seq) p (s.taken mb seq (h ++ p)) = .runs u) :
    s.runHelm code pt0 sizes mb seq (h ++ p) run = .next u := by
  obtain ⟨hl, hr, hsb, h1, h2, h3, h4⟩ := ht
  have hd : (h ++ p).drop 4 = p := by rw [List.drop_append]; simp [hl]
  unfold State.runHelm
  rw [if_neg (by simp [h1, h2]), Mailbox.starts_of _ _ _ h3 h4]
  simp only
  change Host.Outcome.next ((s.taken mb seq (h ++ p)).helmRun code pt0 sizes (mb, seq) ((h ++ p).drop 4) run) = _
  unfold State.helmRun
  have e1 : (!(s.taken mb seq (h ++ p)).isReady && !earlyCodes.contains code) = false := by
    have : (s.taken mb seq (h ++ p)).isReady = s.isReady := rfl
    rw [this]; simp [hr]
  have e2 : (mb == sbKey && !sidebandCodes.contains code) = false := by simp [hsb]
  have e3 : (pt0 && mbPartition mb != 0) = false := by
    cases pt0 with
    | false => rfl
    | true => simp [hpt rfl]
  rw [hd]
  simp only [e1, e2, e3, hs, hrun]
  rfl

end Sys2Proof.Machine
end

