-- ==== Sys2Proof/Laws/Memory.lean ====
section
/-!
SUPPORT. The memory in canonical form: what a byte reads as after a write or a clear, and that every operation keeps the form.
-/
namespace Sys2Proof.Machine

open Sys2Proof

theorem Memory.above_weaken (m : Memory) (a b : Nat) (h : Memory.above b m = true) (hab : a ≤ b) : Memory.above a m = true := by
  cases m with
  | nil => rfl
  | cons c t =>
    obtain ⟨k, v⟩ := c
    simp only [Memory.above, Bool.and_eq_true, decide_eq_true_eq] at h ⊢
    exact ⟨⟨by omega, h.1.2⟩, h.2⟩

theorem Memory.above_write (m : Memory) (a k : Nat) (b : Byte) (h : Memory.above a m = true) (hk : a < k) :
    Memory.above a (Memory.write m k b) = true := by
  induction m generalizing a with
  | nil => simp only [Memory.write]; split <;> simp_all [Memory.above]
  | cons c t ih =>
    obtain ⟨j, v⟩ := c
    simp only [Memory.above, Bool.and_eq_true, decide_eq_true_eq] at h
    simp only [Memory.write]
    split
    · split <;> simp_all [Memory.above]
    · split
      · rename_i _ e
        subst e
        split
        · exact Memory.above_weaken _ _ _ h.2 (by omega)
        · simp_all [Memory.above]
      · simp only [Memory.above, Bool.and_eq_true, decide_eq_true_eq]
        exact ⟨h.1, ih j h.2 (by omega)⟩

/-- A write keeps the canonical form. -/
theorem Memory.wf_write (m : Memory) (k : Nat) (b : Byte) (h : Memory.wf m = true) : Memory.wf (Memory.write m k b) = true := by
  cases m with
  | nil => simp only [Memory.write]; split <;> simp_all [Memory.wf, Memory.above]
  | cons c t =>
    obtain ⟨j, v⟩ := c
    simp only [Memory.wf, Bool.and_eq_true] at h
    simp only [Memory.write]
    split
    · split <;> simp_all [Memory.wf, Memory.above]
    · split
      · rename_i _ e
        subst e
        split
        · cases t with
          | nil => rfl
          | cons d t =>
            obtain ⟨l, w⟩ := d
            simp only [Memory.above, Bool.and_eq_true] at h
            simp only [Memory.wf, Bool.and_eq_true]
            exact ⟨h.2.1.2, h.2.2⟩
        · simp_all [Memory.wf]
      · simp only [Memory.wf, Bool.and_eq_true]
        exact ⟨h.1, Memory.above_write _ _ _ _ h.2 (by omega)⟩

theorem Memory.above_filter (m : Memory) (a : Nat) (p : Host.Cell → Bool) (h : Memory.above a m = true) :
    Memory.above a (m.filter p) = true := by
  induction m generalizing a with
  | nil => rfl
  | cons c t ih =>
    obtain ⟨j, v⟩ := c
    simp only [Memory.above, Bool.and_eq_true, decide_eq_true_eq] at h
    simp only [List.filter]
    split
    · simp only [Memory.above, Bool.and_eq_true, decide_eq_true_eq]
      exact ⟨h.1, ih j h.2⟩
    · exact ih a (Memory.above_weaken _ _ _ h.2 (by omega))

/-- Clearing a run keeps the canonical form. -/
theorem Memory.wf_clear (m : Memory) (a n : Nat) (h : Memory.wf m = true) : Memory.wf (Memory.clear m a n) = true := by
  unfold Memory.clear
  induction m with
  | nil => rfl
  | cons c t ih =>
    obtain ⟨j, v⟩ := c
    simp only [Memory.wf, Bool.and_eq_true] at h
    simp only [List.filter]
    split
    · simp only [Memory.wf, Bool.and_eq_true]
      exact ⟨h.1, Memory.above_filter _ _ _ h.2⟩
    · refine ih ?_
      cases t with
      | nil => rfl
      | cons d t =>
        obtain ⟨l, w⟩ := d
        simp only [Memory.above, Bool.and_eq_true] at h
        simp only [Memory.wf, Bool.and_eq_true]
        exact ⟨h.2.1.2, h.2.2⟩

theorem Memory.read_above (m : Memory) (a b : Nat) (h : Memory.above b m = true) (hab : a ≤ b) : Memory.read m a = 0 := by
  induction m generalizing b with
  | nil => rfl
  | cons c t ih =>
    obtain ⟨j, v⟩ := c
    simp only [Memory.above, Bool.and_eq_true, decide_eq_true_eq] at h
    have : j ≠ a := by omega
    simp only [Memory.read, this, if_false]
    exact ih j h.2 (by omega)

/-- A byte reads as last written. -/
theorem Memory.read_write_self (m : Memory) (a : Nat) (b : Byte) (h : Memory.wf m = true) : Memory.read (Memory.write m a b) a = b := by
  have key : ∀ (m : Memory) (lo : Nat), Memory.above lo m = true → lo < a → Memory.read (Memory.write m a b) a = b := by
    intro m
    induction m with
    | nil =>
      intro lo _ _
      simp only [Memory.write]
      split <;> simp_all [Memory.read]
    | cons c t ih =>
      obtain ⟨j, v⟩ := c
      intro lo hm hlo
      simp only [Memory.above, Bool.and_eq_true, decide_eq_true_eq] at hm
      simp only [Memory.write]
      split
      · split
        · rename_i hb
          have : j ≠ a := by omega
          simp only [Memory.read, this, if_false, hb]
          exact Memory.read_above _ _ j hm.2 (by omega)
        · simp [Memory.read]
      · split
        · rename_i e
          subst e
          split
          · rename_i hb
            rw [hb]; exact Memory.read_above _ _ a hm.2 (Nat.le_refl _)
          · simp [Memory.read]
        · have : j ≠ a := by omega
          simp only [Memory.read, this, if_false]
          exact ih j hm.2 (by omega)
  cases m with
  | nil =>
    simp only [Memory.write]
    split <;> simp_all [Memory.read]
  | cons c t =>
    obtain ⟨j, v⟩ := c
    simp only [Memory.wf, Bool.and_eq_true] at h
    simp only [Memory.write]
    split
    · split
      · rename_i hb
        have : j ≠ a := by omega
        simp only [Memory.read, this, if_false, hb]
        exact Memory.read_above _ _ j h.2 (by omega)
      · simp [Memory.read]
    · split
      · rename_i e
        subst e
        split
        · rename_i hb
          rw [hb]; exact Memory.read_above _ _ a h.2 (Nat.le_refl _)
        · simp [Memory.read]
      · have : j ≠ a := by omega
        simp only [Memory.read, this, if_false]
        exact key t j h.2 (by omega)

/-- A write leaves every other byte as it reads. -/
theorem Memory.read_write_ne (m : Memory) (a k : Nat) (b : Byte) (hne : k ≠ a) : Memory.read (Memory.write m a b) k = Memory.read m k := by
  induction m with
  | nil =>
    simp only [Memory.write]
    split
    · rfl
    · simp [Memory.read, Ne.symm hne]
  | cons c t ih =>
    obtain ⟨j, v⟩ := c
    simp only [Memory.write]
    split
    · split
      · rfl
      · simp [Memory.read, Ne.symm hne]
    · split
      · rename_i e
        subst e
        split <;> simp [Memory.read, Ne.symm hne]
      · simp only [Memory.read, ih]

/-! ### Stores -/

@[simp] theorem Store.wf_write (m : Store) (a : Nat) (b : Byte) (h : Memory.wf m.cells = true) :
    Memory.wf (m.write a b).cells = true := Memory.wf_write _ _ _ h

theorem Store.wf_writeN (m : Store) (a : Nat) (bs : List Byte) (h : Memory.wf m.cells = true) :
    Memory.wf (m.writeN a bs).cells = true := by
  induction bs generalizing m a with
  | nil => exact h
  | cons b bs ih => exact ih _ _ (Memory.wf_write _ _ _ h)

theorem Store.wf_writeMasked (m : Store) (a : Nat) (bs : List Byte) (es : List Bool) (h : Memory.wf m.cells = true) :
    Memory.wf (m.writeMasked a bs es).cells = true := by
  induction bs generalizing m a es with
  | nil => cases es <;> exact h
  | cons b bs ih =>
    cases es with
    | nil => exact h
    | cons e es =>
      simp only [Store.writeMasked]
      refine ih _ _ _ ?_
      split
      · exact Memory.wf_write _ _ _ h
      · exact h

theorem Store.wf_undefine (m : Store) (a n seed : Nat) (h : Memory.wf m.cells = true) :
    Memory.wf (m.undefine a n seed).cells = true := by
  unfold Store.undefine
  split
  · exact h
  · exact Memory.wf_clear _ _ _ h

end Sys2Proof.Machine
end

