-- ==== Sys2Proof/Machine/Lands.lean ====
section
/-!
DEFINITION. The package: the land fields, the rails and signals of the lands, which of them the boundary register covers, the fibres of the beacons'
connectors, and the handshake rate table (19: R542 to R546, R551, R553, R554; 20: R562).
-/
namespace Sys2Proof.Machine

open Sys2Proof

/-! ### Lands (19: R542 to R546) -/

/-- What a land carries: ground, a rail, or the signal of a slot. `vddCd n` is VDD_CDn. -/
inductive Land where
  | gnd | vddCd (n : Nat) | vddPd | hbmVddq | hbmVdd | hbmVpp | vddBc | vhtr | vddIo | vddAux | slot (n : Nat)
  deriving DecidableEq, Repr

/-- The centre of a land in half millimetres from the package's centre: x to the right, y upward. -/
def landAt (r c : Nat) : Int × Int := (2 * (c : Int) - 121, 121 - 2 * (r : Int))

/-- The land of a slot of the signal field. -/
def slotLand (n : Nat) : Nat × Nat := let r := 1 + n / 37; (r, 2 * (n % 37) + 1 + r % 2)

/-- The slot of an odd land of the signal field. -/
def landSlot (r c : Nat) : Nat := 37 * (r - 1) + (c - 1 - r % 2) / 2

/-- The plinth of a land of rows 5 to 120, and its plinth-local row and column. -/
def localLand (r c : Nat) : Nat × Nat × Nat :=
  match decide (r ≤ 62), decide (c ≤ 60) with
  | true, true => (0, r - 4, c)
  | true, false => (1, r - 4, 121 - c)
  | false, true => (2, 121 - r, c)
  | false, false => (3, 121 - r, 121 - c)

/-- The rail of an odd land of a plinth field. -/
def plinthRail (p i j : Nat) : Land :=
  if 17 ≤ i then .vddCd (3 * p + (j - 1) / 20)
  else if 11 ≤ i then .vddPd
  else if j ≤ 14 then .vddBc
  else if j = 15 then .hbmVpp
  else if j ≤ 34 then .hbmVdd
  else if j ≤ 58 then .hbmVddq
  else .vddPd

/-- The land (r, c), with row and column from 1 to 120. -/
def land (r c : Nat) : Land :=
  if (r + c) % 2 = 0 then .gnd
  else if 5 ≤ r then let l := localLand r c; plinthRail l.1 l.2.1 l.2.2
  else if c ≤ 74 then .slot (landSlot r c)
  else if c ≤ 86 then .vddIo
  else if c ≤ 90 then .vddAux
  else .vhtr

/-- How many lands carry something. -/
def landsOf (x : Land) : Nat :=
  ((List.range 120).map (fun r => ((List.range 120).filter (fun c => decide (land (r + 1) (c + 1) = x))).length)).sum

/-! ### Signals (19: R546, R551) -/

/-- Signals of the lands; a pair's P land and N land are told apart by `n`. Rails of VSNS pairs are numbered as in R546: 0 to 11 VDD_CD, then VDD_PD, VDD_BC,
VHTR, HBM_VDD, HBM_VDDQ, HBM_VPP. -/
inductive Signal where
  | refclk (n : Bool) | hpTx (i : Nat) (n : Bool) | hpRx (i : Nat) (n : Bool) | resetN | thermtripN | failstopN | vsns (rail : Nat) (n : Bool)
  | i3cScl | i3cSda | pmbScl | pmbSda | smbalertN | avsClk (p : Nat) | avsMdata (p : Nat) | avsSdata (p : Nat) | coolPwm (i : Nat)
  | bootSel (i : Nat) | testEn | tck | tms | tdi | tdo | trstN | lsmScl (b : Nat) | lsmSda (b : Nat) | lsmIntN (b : Nat) | lsmResetN (b : Nat)
  deriving DecidableEq, Repr

/-- The signal of a slot; none where the slot is reserved. -/
def signalOf (s : Nat) : Option Signal :=
  if s ≤ 1 then some (.refclk (s == 1))
  else if s ≤ 33 then
    let i := (s - 2) / 4
    match (s - 2) % 4 with
    | 0 => some (.hpTx i false)
    | 1 => some (.hpTx i true)
    | 2 => some (.hpRx i false)
    | _ => some (.hpRx i true)
  else if s ≤ 36 then [Signal.resetN, .thermtripN, .failstopN][s - 34]?
  else if s ≤ 72 then some (.vsns ((s - 37) / 2) ((s - 37) % 2 == 1))
  else if s < 74 then none
  else if s ≤ 78 then [Signal.i3cScl, .i3cSda, .pmbScl, .pmbSda, .smbalertN][s - 74]?
  else if s ≤ 82 then some (.avsClk (s - 79))
  else if s ≤ 86 then some (.avsMdata (s - 83))
  else if s ≤ 90 then some (.avsSdata (s - 87))
  else if s ≤ 92 then some (.coolPwm (s - 91))
  else if s ≤ 100 then [Signal.bootSel 0, .bootSel 1, .testEn, .tck, .tms, .tdi, .tdo, .trstN][s - 93]?
  else if s < 111 then none
  else if s ≤ 118 then some (.lsmScl (s - 111))
  else if s ≤ 126 then some (.lsmSda (s - 119))
  else if s ≤ 134 then some (.lsmIntN (s - 127))
  else if s ≤ 142 then some (.lsmResetN (s - 135))
  else none

/-- Does the boundary register cover the land of a slot (19: R551)? -/
def scanned (s : Nat) : Bool := (decide (34 ≤ s) && decide (s ≤ 36)) || (decide (74 ≤ s) && decide (s ≤ 142))

/-! ### Fibre-attach positions (19: R553, R554) -/

/-- The edge of the substrate a connector leaves by. -/
inductive Edge where
  | top | bottom | left | right
  deriving DecidableEq, Repr

/-- The centre of beacon b's position in millimetres, and its edge. -/
def fibreAttach (b : Nat) : Int × Int × Edge :=
  let x : Int := if b / 2 % 2 = 0 then -1 else 1
  let y : Int := if b < 4 then 1 else -1
  if b % 2 = 0 then (62 * x, 70 * y, if b < 4 then .top else .bottom) else (70 * x, 62 * y, if b / 2 % 2 = 0 then .left else .right)

/-- A fibre of a beacon. -/
inductive Fibre where
  | lf (n : Nat) | txf (n : Nat) | rxf (n : Nat)
  deriving DecidableEq, Repr

/-- The fibre at a position, counted from 1, of the single connector of variant M48. -/
def fibreM48 (p : Nat) : Option Fibre :=
  if p = 0 ∨ 48 < p then none
  else if p ≤ 16 then some (.lf (p - 1))
  else if p ≤ 32 then some (.txf (p - 17))
  else some (.rxf (p - 33))

/-- The fibre at a position of connector 1 or 2 of variant M24. -/
def fibreM24 (conn p : Nat) : Option Fibre :=
  if p = 0 ∨ 24 < p then none
  else
    match conn with
    | 1 => some (if p ≤ 16 then .lf (p - 1) else .txf (p - 17))
    | 2 => some (if p ≤ 8 then .txf (p + 7) else .rxf (p - 9))
    | _ => none

/-! ### The handshake rate (20: R562) -/

/-- The least handshake rate in units of 10 MHz at 0.55 V to 0.85 V in steps of 0.05 V, for each Tj in °C. -/
def rateRows : List (Nat × List Nat) :=
  [(0, [83, 100, 117, 133, 147, 161, 174]), (25, [81, 98, 114, 130, 145, 158, 171]), (65, [78, 94, 110, 125, 139, 152, 164]),
   (95, [74, 89, 105, 119, 132, 144, 156]), (115, [71, 86, 100, 114, 126, 138, 149])]

/-- A row's rate at a voltage from 550 mV to 850 mV, in units of 200 kHz. -/
def rateInRow (row : List Nat) (mv : Nat) : Int :=
  let i := min 5 ((mv - 550) / 50)
  let a : Int := row.getD i 0
  let b : Int := row.getD (i + 1) 0
  50 * a + (b - a) * ((mv : Int) - 550 - 50 * i)

/-- The table value between two of its rows, first in VDD_CD and then in Tj: a numerator and a denominator in units of 200 kHz; Tj in quarter degrees from 0 to
460. -/
def rateBetween (mv : Nat) (tj : Int) : List (Nat × List Nat) → Int × Int
  | (t0, r0) :: (t1, r1) :: rest =>
    if tj ≤ 4 * t1 ∨ rest.isEmpty then
      let a := rateInRow r0 mv
      let b := rateInRow r1 mv
      (a * (4 * (t1 - t0)) + (b - a) * (tj - 4 * t0), 4 * (t1 - t0))
    else rateBetween mv tj ((t1, r1) :: rest)
  | _ => (0, 1)

/-- The least rate of a compute die in service, from its set-point and its Tj (20: R562). -/
def State.handshakeRate (s : State) (d : Nat) : Int × Int := rateBetween (Tbl.getD s.rails d {}).setpoint (s.die d).tj rateRows

end Sys2Proof.Machine
end

