-- ==== Sys2Proof/Tests/Slice0.lean ====
section
/-!
SUPPORT. Tests of the model on small states, the ill-formed commands that WellFormed refuses, and for every statement of
Certificates/Slice0/Obligations.lean a state and operands that meet its hypotheses (`witness_<name>`, one conjunct for each clause).
-/

namespace Sys2Proof.Tests

open Sys2Proof Sys2Proof.Machine

set_option Elab.async false

/-! ### Helpers -/

/-- The device after a start: READY, both control cores in service. -/
def rdy : State :=
  { State.reset with
    pins := { resetN := true, exsarRails := true, coolDuty := 60 }
    boot := { phase := 14, dev := .ready, coreA := .active, coreB := .standby } }

/-- Every link up, and a state in which one packet waits for its unit. -/
def upLinks : Tbl LinkEnd := linkEnds.map (fun k => (k, { st := .up }))
def doneState (s : State) (p : HubPkt) : State := ({ s with links := upLinks } : State).toUnit p

/-- CODE and reserved bytes: the witnesses below use zeros, since the hypotheses read the payload alone. -/
def hd : List Byte := [0, 0, 0, 0]

/-- A list of bytes from numbers. -/
def bytesOf (l : List Nat) : List Byte := l.map (BitVec.ofNat 8)

/-- The state with one command waiting in a mailbox, as a COMMAND frame leaves it. It is the state itself but for that queue, so whatever the other
hypotheses say of the state without it holds of it as well. -/
def cmd (s : State) (mb seq : Nat) (h p : List Byte) : State := s.setMbox mb { s.mbox mb with queue := [{ seq := seq, body := h ++ p }] }

theorem cmd_mbox (s : State) (mb seq : Nat) (h p : List Byte) :
    (cmd s mb seq h p).mbox mb = { s.mbox mb with queue := [{ seq := seq, body := h ++ p }] } := by simp [cmd]
/-- May a mailbox take a command now? -/
def servesB (s : State) (mb : Nat) (h : List Byte) : Bool :=
  decide (h.length = 4) && s.isReady && decide (mb ≠ sbKey) && s.helmOn && s.partExists (mbPartition mb) && decide ((s.mbox mb).running = none)

theorem serves_of (s : State) (mb seq : Nat) (h p : List Byte) (q : servesB s mb h = true) : (cmd s mb seq h p).serves mb seq h p := by
  simp only [servesB, Bool.and_eq_true, decide_eq_true_eq] at q
  obtain ⟨⟨⟨⟨⟨h1, h2⟩, h3⟩, h4⟩, h5⟩, h6⟩ := q
  exact ⟨h1, h2, h3, h4, h5, by rw [cmd_mbox]; exact h6, [], by rw [cmd_mbox]⟩

theorem serves0_of (s : State) (mb seq : Nat) (h p : List Byte) (q : servesB s mb h = true) (q0 : mbPartition mb = 0) :
    (cmd s mb seq h p).serves0 mb seq h p :=
  ⟨serves_of s mb seq h p q, q0⟩

/-- A test of what a command leaves. -/
def leaves (o : Out) (f : State → Bool) : Bool :=
  match o with
  | .next t => f t
  | _ => false

theorem test_rdy_serves0 (seq : Nat) (p : List Byte) : (cmd rdy 0 seq hd p).serves0 0 seq hd p := serves0_of rdy 0 seq hd p (by decide +kernel) rfl

/-! ### Decoding and well-formedness -/

theorem test_decode_none : decodeTableWord 0 0 = none := rfl

theorem test_wf_mailbox : (Instr.queryCaps 129 0 []).wf = false := by decide
theorem test_wf_rail : (Instr.railRegulationTimeout 20).wf = false := by decide
theorem test_wf_die : (Instr.heartbeatTimeout 24).wf = false := by decide
theorem test_wf_priority : (Instr.pfcXoff 8).wf = false := by decide
theorem test_wf_stack : (Instr.refresh 32).wf = false := by decide
theorem test_wf_plinth : (Instr.descriptorStart 4 0).wf = false := by decide
theorem test_wf_channel : (Instr.descriptorStart 0 64).wf = false := by decide
theorem test_wf_record_pipeline : (Instr.batchEnd 256 0 0).wf = false := by decide
theorem test_wf_record_stream : (Instr.batchEnd 0 512 0).wf = false := by decide
theorem test_wf_record_epoch : (Instr.batchEnd 0 0 65536).wf = false := by decide
theorem test_wf_stage : (Instr.add 360 .clean).wf = false := by decide
theorem test_wf_response_status : (Instr.gatherResponse 0 0 256 []).wf = false := by decide
theorem test_wf_pipeline : (Instr.epochCommit 256).wf = false := by decide
theorem test_wf_hub_plinth : (Instr.relayDone 4).wf = false := by decide
theorem test_wf_load_channel : (Instr.loadComplete 0 64 0 []).wf = false := by decide
theorem test_wf_gap_beacon : (Instr.gapRelease 0 8).wf = false := by decide
theorem test_wf_access_block : (Instr.hbmRead { addr := 255 } {} {} 2).wf = false := by decide
theorem test_wf_access_empty : (Instr.hbmStore { addr := 0 } [] {} {}).wf = false := by decide
theorem test_wf_access_address : (Instr.hbmRead { addr := 2 ^ 42 } {} {} 1).wf = false := by decide
theorem test_wf_access_partition : (Instr.hbmRead { addr := 0, partition := 16 } {} {} 1).wf = false := by decide
theorem test_wf_scrub : (Instr.scrubStep 0 32 0 0 {} {} (false, false)).wf = false := by decide
theorem test_wf_link : (Instr.flitRx 192 { bytes := [] }).wf = false := by decide
theorem test_wf_lane : (Instr.laneLossOfLock 0 768 1).wf = false := by decide
theorem test_wf_unit_source : (Instr.hint { src := 4096, partition := 0, tag := 0, addr := 0 }).wf = false := by decide
theorem test_wf_unit_partition : (Instr.hint { src := 0, partition := 16, tag := 0, addr := 0 }).wf = false := by decide
theorem test_wf_unit_tag : (Instr.hint { src := 0, partition := 0, tag := 65536, addr := 0 }).wf = false := by decide
theorem test_wf_unit_address : (Instr.hint { src := 0, partition := 0, tag := 0, addr := 2 ^ 56 }).wf = false := by decide
theorem test_wf_fabric_node : (Instr.rd { srcNode := 16384, hallTag := 0, srcUnit := 0, reqId := 0, addr := 0 }).wf = false := by decide
theorem test_wf_fabric_tag : (Instr.rd { srcNode := 0, hallTag := 65536, srcUnit := 0, reqId := 0, addr := 0 }).wf = false := by decide
theorem test_wf_fabric_unit : (Instr.rd { srcNode := 0, hallTag := 0, srcUnit := 4096, reqId := 0, addr := 0 }).wf = false := by decide
theorem test_wf_fabric_id : (Instr.rd { srcNode := 0, hallTag := 0, srcUnit := 0, reqId := 2 ^ 32, addr := 0 }).wf = false := by decide
theorem test_wf_fabric_address : (Instr.rd { srcNode := 0, hallTag := 0, srcUnit := 0, reqId := 0, addr := 2 ^ 56 }).wf = false := by decide
theorem test_wf_fabric_arg : (Instr.rd { srcNode := 0, hallTag := 0, srcUnit := 0, reqId := 0, addr := 0, arg := 256 }).wf = false := by decide
theorem test_wf_completion_unit : (Instr.completion 4096 0 0 []).wf = false := by decide
theorem test_wf_completion_status : (Instr.completion 0 0 256 []).wf = false := by decide
theorem test_wf_control : (Instr.controlMessage 4096 0 []).wf = false := by decide
theorem test_wf_service : (Instr.svcRd 0 4096 0 0).wf = false := by decide
theorem test_wf_fabric_completion : (Instr.fabricCompletion 0 256 []).wf = false := by decide
theorem test_wf_tag : (Instr.rootWaypointTimeout 65536).wf = false := by decide
theorem test_wf_region_node : (Instr.fix 0 16384 0 0 0).wf = false := by decide
theorem test_wf_ring : (Instr.sight 0 576).wf = false := by decide
theorem test_wf_beacon : (Instr.exsarHeartbeat 8).wf = false := by decide
theorem test_wf_bank : (Instr.matrixFit 0 32).wf = false := by decide
theorem test_wf_notice : (Instr.gapNotice 0 256 0).wf = false := by decide
theorem test_wf_port : (Instr.spillMove 0 16 0).wf = false := by decide
theorem test_wf_line : (Instr.silentLaneTimeout 0 576 none).wf = false := by decide
theorem test_wf_tender_status : (Instr.tenderStoreCompletion 0 0 0 256).wf = false := by decide
theorem test_wf_request_line : (Instr.requestLineAssert 0 32 []).wf = false := by decide
theorem test_wf_status_word : (Instr.smbalert 0 65536).wf = false := by decide
theorem test_wf_domain : (Instr.domainIdleExpiry 0 12).wf = false := by decide
theorem test_wf_bundle : (Instr.bundleSleep 0 48).wf = false := by decide
theorem test_wf_good : (Instr.bundleSleep 191 47).wf = true ∧ (Instr.queryCaps 128 0 []).wf = true := by decide

/-! ### The queue -/

theorem test_step_runs_front : step { rdy with pending := [.bypass, .idcode] } = .next { rdy with pins := { rdy.pins with tap := .bypass }, pending := [.idcode] } := rfl
theorem test_step_ticks : leaves (step rdy) (fun t => t.now0 == 1) = true := by decide +kernel

/-! ### Small armatures -/

/-- A payload of zeros but for these bytes at its start. -/
def pay (n : Nat) (l : List Nat) : List Byte := bytesOf (l ++ List.replicate (n - l.length) 0)

/-- A stage entry: DIE, TYPE, INDEX, OPCODE, FLAGS and the parameter bytes from offset 8. -/
def ent (die typ idx op flags : Nat) (ps : List Nat) : List Byte :=
  pay 64 ([die, typ, idx, op, flags % 256, flags / 256, 0, 0] ++ ps)

/-- A V instruction: OPC, FMT, then DST, SRCA, SRCB, SRCC, MASK, VLEN, IFLAGS and PERIOD_LOG2. -/
def vi (opc fmt dst a b c mask vlen iflags period : Nat) : List Byte :=
  bytesOf [opc, fmt] ++ [dst, a, b, c, mask, vlen].flatMap (leBytes 2) ++ bytesOf [iflags, period]

/-- A number as its bytes' numbers. -/
def le (n v : Nat) : List Nat := (leBytes n v).map BitVec.toNat

/-- An armature with its tables one after the other; `flags` is FLAGS with REPEAT_MAX, CONTROL_STAGE, SWAP_A and SWAP_B. -/
def armOf (stages streams regions loads sources code : List (List Byte)) (runAhead gap : Nat := 0)
    (rep : Nat × Nat × Nat × Nat × Nat := (0, 0, 255, 255, 255)) : List Byte :=
  let o1 := 64 + 64 * stages.length
  let o2 := o1 + (8 * streams.length + 15) / 16 * 16
  let o3 := o2 + 16 * regions.length
  let o4 := o3 + 32 * loads.length
  let o5 := o4 + 32 * sources.length
  let total := o5 + 16 * code.length
  let head := fun (crc : Nat) => bytesOf (le 4 0x314D5241 ++ le 2 1 ++ le 2 64 ++ le 4 total ++ le 4 crc ++ le 8 0x77 ++
    [stages.length, streams.length, regions.length, loads.length, sources.length, runAhead, gap, rep.1] ++
    le 4 64 ++ le 4 o1 ++ le 4 o2 ++ le 4 o3 ++ le 4 o4 ++ le 4 o5 ++ le 2 rep.2.1 ++ [rep.2.2.1, rep.2.2.2.1, rep.2.2.2.2, 0] ++ le 2 0)
  let body := stages.flatten ++ padTo (o2 - o1) streams.flatten ++ regions.flatten ++ loads.flatten ++ sources.flatten ++ code.flatten
  head (crc32c (head 0 ++ body)) ++ body

/-- A TOKEN source of a stage. -/
def token (i : Nat) : List Byte := pay 32 [i, 255, 1]

/-- A V-stage alone on a TOKEN source: it adds row 1 of its store to row 0 and sends nothing. -/
def armV : List Byte :=
  armOf [ent 0 1 0 0x20 0 (le 4 0 ++ le 2 1)] [] [] [] [token 0] [vi 0x01 0x00 0 0 1 0x8000 0x8000 1 0 0]

theorem test_crc32c_check : crc32c (bytesOf [0x31, 0x32, 0x33, 0x34, 0x35, 0x36, 0x37, 0x38, 0x39]) = 0xE3069283 := by decide +kernel

/-- The identity die map. -/
def idMap : List Nat := List.range 12

theorem test_validate_crc : (({ rdy with parts := [(1, { hallTag := 7, stageSet := 2 ^ 360 - 1 })] }).validate 1 idMap
    (armV.set 0x10 0x78)) = some (1, 0xC) := by decide +kernel

/-! ### Witnesses: Helm commands -/

/-- A READY device in which a challenge of METHOD 0 or 1 stands. -/
def rdyChal (m : Nat) : State := { rdy with sec := { rdy.sec with challenge := some (List.replicate 32 7, m, rdy.sessionOf 0, 0) } }


theorem witness_DeviceCommandsAnswer :
    (cmd rdy 0 1 hd []).serves 0 1 hd [] ∧
    ((cmd rdy 0 1 hd (pay 4 [0, 0, 1])).serves 0 1 hd (pay 4 [0, 0, 1]) ∧ field (pay 4 [0, 0, 1]) 2 2 = 1 ∧ field (pay 4 [0, 0, 128]) 2 2 = 128) ∧
    ((cmd rdy 0 1 hd (pay 4 [1])).serves 0 1 hd (pay 4 [1]) ∧ mbPartition 0 = 0 ∧ field (pay 4 [1]) 0 1 = 1) ∧
    (cmd rdy 0 1 hd (pay 32 [])).serves 0 1 hd (pay 32 []) ∧
    ((cmd rdy 0 1 hd (pay 12 [7, 0, 0, 0, 255, 15])).serves0 0 1 hd (pay 12 [7, 0, 0, 0, 255, 15]) ∧ (pay 12 [7, 0, 0, 0, 255, 15]).length = 12 ∧ field (pay 12 [7, 0, 0, 0, 255, 15]) 0 1 ≤ 7 ∧
      rdy.partExists (field (pay 12 [7, 0, 0, 0, 255, 15]) 1 1) = true ∧ field (pay 12 [7, 0, 0, 0, 255, 15]) 4 8 < 2 ^ 12) ∧
    (hd.length = 4 ∧ rdy.isReady = true ∧ (cmd rdy sbKey 1 hd (leBytes 4 1800)).takes sbKey 1 (hd ++ leBytes 4 1800) ∧ (leBytes 4 1800).length = 4 ∧
      1800 ≤ field (leBytes 4 1800) 0 4 ∧ field (leBytes 4 7500) 0 4 ≤ 7500 ∧ field (leBytes 4 1799) 0 4 < 1800 ∧ 7500 < field (leBytes 4 7501) 0 4) ∧
    (cmd rdy 0 1 hd []).serves0 0 1 hd [] ∧
    ((cmd rdy 0 1 hd (pay 12 [255, 0, 0, 0, 192, 6])).serves0 0 1 hd (pay 12 [255, 0, 0, 0, 192, 6]) ∧ mayName (0, 1) 0 = true ∧
      field (pay 12 [255, 0, 0, 0, 192, 6]) 0 1 = 0xFF ∧
      Nat.land (field (pay 12 [255, 0, 0, 0, 192, 6]) 4 8 % 2 ^ 12) 0x6C0 = field (pay 12 [255, 0, 0, 0, 192, 6]) 4 8 % 2 ^ 12) ∧
    ((cmd rdy 0 1 hd (pay 4 [])).serves0 0 1 hd (pay 4 []) ∧ field (pay 4 []) 0 2 = 0 ∧ (setBits 16 0 0).length = 0) ∧
    ((putSettings (setBits 16 0 (field (pay 20 [128, 0, 0, 0, 100]) 0 2)) 4 (pay 20 [128, 0, 0, 0, 100]) rdy.nor.hostCfg).isLeft = true ∧
      (pay 20 [128, 0, 0, 0, 100]).length = 4 + 16 * (setBits 16 0 (field (pay 20 [128, 0, 0, 0, 100]) 0 2)).length) ∧
    ((cmd rdy 0 1 hd (pay 20 [128, 0, 0, 0, 100])).serves0 0 1 hd (pay 20 [128, 0, 0, 0, 100]) ∧ rdy.norRange = true ∧ field (pay 20 [128, 0, 0, 0, 100]) 0 2 = 2 ^ 7 ∧
      100 ≤ field (pay 20 [128, 0, 0, 0, 100]) 4 16 ∧ field (pay 20 [128, 0, 0, 0, 100]) 4 16 ≤ 100000) := by
  repeat' first | exact serves0_of _ _ _ _ _ (by decide +kernel) rfl | exact serves_of _ _ _ _ _ (by decide +kernel) | with_reducible apply And.intro
  any_goals decide +kernel
  exact ⟨by decide +kernel, by decide +kernel, by decide +kernel, [], by decide +kernel⟩

theorem witness_UnlockAndLock :
    ((cmd rdy 0 1 hd (pay 4 [1])).serves0 0 1 hd (pay 4 [1]) ∧ (pay 4 [1]).length = 4 ∧ field (pay 4 [1]) 0 1 = 1) ∧
    ((cmd (rdyChal 0) 0 1 hd (pay 40 [0, 0, 0, 0, 1])).serves0 0 1 hd (pay 40 [0, 0, 0, 0, 1]) ∧ (pay 40 [0, 0, 0, 0, 1]).length = 40 ∧ field (pay 40 [0, 0, 0, 0, 1]) 0 1 = 0 ∧
      field (pay 40 [0, 0, 0, 0, 1]) 4 1 = 1 ∧ (rdyChal 0).norRange = true ∧
      (rdyChal 0).validChallenge ((rdyChal 0).sessionOf 0) 0 = some (List.replicate 32 7)) ∧
    ((cmd (rdyChal 1) 0 1 hd (pay 136 [1, 0, 0, 0, 1, 1])).serves0 0 1 hd (pay 136 [1, 0, 0, 0, 1, 1]) ∧ (pay 136 [1, 0, 0, 0, 1, 1]).length = 136 ∧
      field (pay 136 [1, 0, 0, 0, 1, 1]) 0 1 = 1 ∧ field (pay 136 [1, 0, 0, 0, 1, 1]) 4 1 = 1 ∧ field (pay 136 [1, 0, 0, 0, 1, 1]) 5 1 ≤ 1 ∧
      (rdyChal 1).validChallenge ((rdyChal 1).sessionOf 0) 1 = some (List.replicate 32 7)) ∧
    ((cmd rdy 0 1 hd (pay 4 [])).serves0 0 1 hd (pay 4 []) ∧ field (pay 4 []) 0 1 = 0 ∧ rdy.setting 0x00070001 = 0 ∧
      ({ rdy with nor := { rdy.nor with cast := { number := 0, items := [(0x00070001, 5)] } } } : State).setting 0x00070001 ≠ 0 ∧ rdy.nor.unlockFails < 10) ∧
    (field (pay 136 [1, 0, 0, 0, 2, 1]) 4 1 = 2 ∧ field (pay 136 [1, 0, 0, 0, 2, 1]) 5 1 = 1) ∧
    ((cmd rdy 0 1 hd (pay 40 [])).serves0 0 1 hd (pay 40 []) ∧ rdy.validChallenge (rdy.sessionOf 0) 0 = none) ∧
    ((cmd rdy 0 1 hd (pay 136 [1])).serves0 0 1 hd (pay 136 [1]) ∧ rdy.validChallenge (rdy.sessionOf 0) 1 = none) ∧
    (cmd rdy 0 1 hd []).serves0 0 1 hd [] ∧ rdy.boot.dev ≠ .failureStop ∧ rdy.sec.level = 0 ∧ ({ rdy with sec := { rdy.sec with level := 3 } }).sec.level ≠ 0 := by
  repeat' first | exact serves0_of _ _ _ _ _ (by decide +kernel) rfl | with_reducible apply And.intro
  all_goals decide +kernel

/-- A READY device of node 0 whose hall waypoint is 5. -/
def rdyHall : State := { rdy with
  fab := { rdy.fab with node := some 0, hallSize := 4 }
  tags := [(0, { members := [(0, 3)], member := true, waypoint := some 5 })] }

/-- The same with a staged image in the spare bank. -/
def rdyStaged : State := { rdyHall with
  nor := { rdyHall.nor with
    imageA := none, imageB := some {}, record := { stateB := .staged } } }

/-- A READY device with an earlier cast. -/
def rdyPrev : State := { rdy with nor := { rdy.nor with prev := some { number := 3 } } }

/-- A READY device that programs a bank for the mailbox's command. -/
def rdyProg (tj : Int) : State := { (rdy.setDie 12 { rdy.die 12 with tj := tj }) with
  upd := { rdy.upd with staging := some { waiter := (0, 1), target := List.replicate 8193 1, version := 2, hashOk := true } }
  helm := { rdy.helm with mailboxes := [(0, { running := some 1 })] } }

/-- A READY device whose maquette asks for a new interleave key, and a key of full rank. -/
def rdyKey : State := { rdy with upd := { rdy.upd with maquette := [(reseedKey, 1)] } }
def goodKey : List Nat := (List.range 8).map (fun i => 2 ^ i * 0x10101)

theorem witness_CastAndUpdateCommandsChange :
    ((cmd rdy 0 1 hd (leBytes 2 1 ++ leBytes 2 0 ++ itemBytes 0x00010001 4 168)).serves0 0 1 hd (leBytes 2 1 ++ leBytes 2 0 ++ itemBytes 0x00010001 4 168) ∧ rdy.upd.relay = none ∧
      (Tbl.set rdy.upd.maquette 0x00010001 168).length ≤ 256 ∧ rdy.maquetteBytes (Tbl.set rdy.upd.maquette 0x00010001 168) ≤ 65536) ∧
    (cmd rdy 0 1 hd []).serves0 0 1 hd [] ∧
    ((cmd rdy 0 1 hd (pay 8 [])).serves0 0 1 hd (pay 8 []) ∧ (pay 8 []).length = 8 ∧ field (pay 8 []) 0 1 = 0 ∧ asksReseed rdy.upd.maquette = false ∧
      rdy.castRefusal (rdy.builtCast rdy.upd.maquette) false = none ∧ rdy.nor.prev = none) ∧
    (∃ m, (cmd rdy 0 1 hd (pay 4 [])).serves0 0 1 hd (pay 4 []) ∧ rdy.parseItems (field (pay 4 []) 0 2) 4 (pay 4 []) rdy.upd.maquette = .ok m ∧
      m.length ≤ 256 ∧ rdy.maquetteBytes m ≤ 65536) ∧
    ((cmd rdyKey 0 1 hd (pay 8 [])).serves0 0 1 hd (pay 8 []) ∧ asksReseed rdyKey.upd.maquette = true ∧
      rdyKey.castRefusal (rdyKey.builtCast rdyKey.upd.maquette) true = none ∧ (drawKey [goodKey]).isSome = true) ∧
    ((cmd rdyHall 0 1 hd (pay 8 [1, 0, 6])).serves0 0 1 hd (pay 8 [1, 0, 6]) ∧ rdyHall.upd.relay = none ∧ (pay 8 [1, 0, 6]).length = 8 ∧ field (pay 8 [1, 0, 6]) 0 1 = 1 ∧
      rdyHall.upd.castArm = none ∧ rdyHall.canArm (field (pay 8 [1, 0, 6]) 2 6) = true) ∧
    ((cmd ({ rdy with upd := { rdy.upd with castArm := some { ret := true, v := 9, items := [] } } }) 0 1 hd (pay 8 [1])).serves0 0 1 hd (pay 8 [1])) ∧
    ((cmd rdy 0 1 hd (pay 8 [2])).serves0 0 1 hd (pay 8 [2]) ∧ field (pay 8 [2]) 0 1 = 2) ∧
    ((cmd rdyPrev 0 1 hd (pay 8 [])).serves0 0 1 hd (pay 8 []) ∧ rdyPrev.nor.prev = some { number := 3 } ∧ rdyPrev.castRefusal { number := 3 } false = none) ∧
    ((cmd rdyStaged 0 1 hd (pay 8 [])).serves0 0 1 hd (pay 8 []) ∧ rdyStaged.upd.staging = none ∧ rdyStaged.armable = true ∧ rdyStaged.norRange = true) ∧
    ((cmd ({ rdyStaged.setDie 12 { rdy.die 12 with tj := 341 } with pending := [] }) 0 1 hd (pay 8 [])).serves0 0 1 hd (pay 8 []) ∧
      (rdyStaged.setDie 12 { rdy.die 12 with tj := 341 }).armable = true ∧ (rdyStaged.setDie 12 { rdy.die 12 with tj := 341 }).norRange = false) ∧
    ((cmd rdyStaged 0 1 hd (pay 8 [1, 0, 6])).serves0 0 1 hd (pay 8 [1, 0, 6]) ∧ field (pay 8 [1, 0, 6]) 0 1 = 1 ∧ rdyStaged.canArm (field (pay 8 [1, 0, 6]) 2 6) = true ∧
      rdyStaged.nor.record.pending = none) ∧
    ((cmd rdy 0 1 hd (pay 16 [0, 1, 0, 0, 0, 0, 0, 0, 192])).serves0 0 1 hd (pay 16 [0, 1, 0, 0, 0, 0, 0, 0, 192]) ∧ (pay 16 [0, 1, 0, 0, 0, 0, 0, 0, 192]).length = 16 ∧ rdy.norRange = true ∧
      rdy.upd.staging = none ∧ rdy.armCode = 0 ∧ rdy.runBusy (localOf (field (pay 16 [0, 1, 0, 0, 0, 0, 0, 0, 192]) 0 8)) (field (pay 16 [0, 1, 0, 0, 0, 0, 0, 0, 192]) 8 4) = false ∧
      0 < field (pay 16 [0, 1, 0, 0, 0, 0, 0, 0, 192]) 8 4 ∧ rdy.isLocal (field (pay 16 [0, 1, 0, 0, 0, 0, 0, 0, 192]) 0 8) = true ∧
      localOf (field (pay 16 [0, 1, 0, 0, 0, 0, 0, 0, 192]) 0 8) + field (pay 16 [0, 1, 0, 0, 0, 0, 0, 0, 192]) 8 4 ≤ 2 ^ 42 ∧
      rdy.spillHit (field (pay 16 [0, 1, 0, 0, 0, 0, 0, 0, 192]) 0 8) (field (pay 16 [0, 1, 0, 0, 0, 0, 0, 0, 192]) 8 4) = false ∧
      ({ rdy with poison := [1] } : State).isPoison (localOf (field (pay 16 [0, 1, 0, 0, 0, 0, 0, 0, 192]) 0 8)) = true ∧ ∀ a, rdy.isPoison a = false) ∧
    (∃ g, (rdyProg 0).upd.staging = some g ∧ g.programmed + 4096 < g.target.length ∧ (rdyProg 340).norRange = true ∧
      (rdyProg 341).norRange = false ∧ ((rdyProg 341).mbox g.waiter.1).running = some g.waiter.2) := by
  refine ⟨?_, ?_, ?_, ⟨[], serves0_of _ _ _ _ _ (by decide +kernel) rfl, rfl, by decide, by decide⟩, ?_, ?_, ?_, ?_, ?_, ?_, ?_, ?_, ⟨?_, ?_, ?_, ?_, ?_, ?_, ?_, ?_, ?_, ?_, ?_, fun _ => rfl⟩, ⟨_, rfl, ?_⟩⟩
  repeat' first | exact serves0_of _ _ _ _ _ (by decide +kernel) rfl | with_reducible apply And.intro
  all_goals decide +kernel

/-! ### Witnesses: partitions, windows, keys, members, routing -/

/-- PT1 with HALL_TAG 7. -/
def pt1 : Partition := { hallTag := 7, maxPipelines := 2 }

/-- A READY device with PT1. -/
def rdyPt : State := { rdy with parts := [(1, pt1)] }

/-- The same with a pipeline of PT1 loaded. -/
def rdyPl : State := { rdyPt with pipes := [(0, { partition := 1, weight := 1, arm := [], dieMap := [] })] }

/-- A window entry over nodes 0 to 3 and the first MiB, with ACCESS 3. -/
def winBytes : List Nat := [0, 0, 3, 0, 3, 0, 0, 0, 0, 0, 0, 0, 0, 0, 0, 0, 255, 255, 15, 0]

/-- PT1's entry 31 grants more than that, and a request of PT1 is under way. -/
def rdyWin : State := { rdy with
  parts := [(1, { pt1 with window := [(31, { nodeLo := 0, nodeHi := 3, access := 7, base := 0, limit := 0xFFFFF, raw := [] })] })]
  fab := { rdy.fab with
    outstanding := [{ plinth := 0, unit := 0, tag := 0, reqId := 9, partition := 1, hallTag := 7, kind := .rd, addr := 0, len := 4 }] } }

def pCreate : List Byte := pay 53 [15, 0, 8, 0, 64, 1, 100, 3, 255]
def pSet : List Byte := pay 53 [1, 0x38, 0, 0, 0, 1, 1, 0]
def pWin : List Byte := pay 36 ([1, 31, 0, 0] ++ winBytes)
def pKey : List Byte := pay 68 [0, 3, 0, 0, 1]
def pTag : List Byte := pay 8 [7, 0, 1, 0, 0, 0, 255, 0x3F]
def pJoin : List Byte := pay 24 [255, 0x3F, 0, 64]
def pRoute : List Byte := pay 40 [1, 0, 0, 0, 1, 63, 0, 0, 1, 0, 0, 0, 0, 0, 0, 128]

theorem witness_PartitionCommandsChange :
    ((cmd rdyPt 0 1 hd pCreate).serves0 0 1 hd pCreate ∧ 1 ≤ field pCreate 0 1 ∧ field pCreate 0 1 ≤ 15 ∧ pCreate.length = 53 ∧
      Tbl.get? rdyPt.parts (field pCreate 0 1) = none ∧ field pCreate 2 2 ≠ 0 ∧ (∀ x ∈ rdyPt.parts, x.2.hallTag ≠ field pCreate 2 2) ∧
      1 ≤ field pCreate 4 1 ∧ field pCreate 4 1 ≤ 64 ∧ 1 ≤ field pCreate 5 1 ∧ 1 ≤ field pCreate 6 1 ∧ field pCreate 6 1 ≤ 100 ∧
      field pCreate 7 1 ≤ 3 ∧ (∀ x ∈ rdyPt.parts, Nat.land x.2.stageSet (field pCreate 8 45) = 0) ∧ rdyPt.tags = []) ∧
    ((cmd rdyPl 0 1 hd pSet).serves0 0 1 hd pSet ∧ pSet.length = 53 ∧ Tbl.get? rdyPl.parts (field pSet 0 1) = some pt1 ∧ field pSet 1 1 = 0x38 ∧
      1 ≤ field pSet 5 1 ∧ 1 ≤ field pSet 6 1 ∧ field pSet 6 1 ≤ 100 ∧ field pSet 7 1 ≤ 3 ∧ rdyPl.loadedOf (field pSet 0 1) ≤ pt1.maxPipelines) ∧
    ((cmd rdyPt 0 1 hd (pay 4 [1])).serves0 0 1 hd (pay 4 [1]) ∧ (pay 4 [1]).length = 4 ∧ (Tbl.get? rdyPt.parts (field (pay 4 [1]) 0 1)).isSome = true ∧
      rdyPt.loadedOf (field (pay 4 [1]) 0 1) = 0 ∧ rdyPt.norRange = true) ∧
    ((cmd rdyPl 0 1 hd (pay 4 [1])).serves0 0 1 hd (pay 4 [1]) ∧ 0 < rdyPl.loadedOf (field (pay 4 [1]) 0 1) ∧
      (Tbl.get? rdyPl.parts (field (pay 4 [1]) 0 1)).isSome = true) ∧
    Tbl.get? rdyPl.parts (field (pay 4 [1]) 0 1) = some pt1 := by
  repeat' first | exact serves0_of _ _ _ _ _ (by decide +kernel) rfl | with_reducible apply And.intro
  all_goals decide +kernel

theorem witness_WindowsKeysRoutesAndMembersChange :
    ((cmd rdyPt 0 1 hd pWin).serves0 0 1 hd pWin ∧ pWin.length = 36 ∧ 1 ≤ field pWin 0 1 ∧ field pWin 0 1 ≤ 15 ∧ Tbl.get? rdyPt.parts (field pWin 0 1) = some pt1 ∧
      field pWin 1 1 ≤ 31 ∧ rdyPt.helm.winWaits = [] ∧ (∃ b ∈ slice pWin 4 32, b ≠ 0) ∧ (entryOf (slice pWin 4 32)).bad = none ∧
      rdyPt.clashes (field pWin 0 1) (entryOf (slice pWin 4 32)) = false ∧
      (entryOf (slice pWin 4 32)).coversSpill rdyPt.ownNode rdyPt.spillSize = false ∧ Tbl.get? pt1.window (field pWin 1 1) = none) ∧
    ((cmd rdyWin 0 1 hd pWin).serves0 0 1 hd pWin ∧ rdyWin.clashes (field pWin 0 1) (entryOf (slice pWin 4 32)) = false ∧
      (∃ q old, Tbl.get? rdyWin.parts (field pWin 0 1) = some q ∧ Tbl.get? q.window (field pWin 1 1) = some old ∧
        old.keeps (some (entryOf (slice pWin 4 32))) = false) ∧ rdyWin.checkedBy (field pWin 0 1) ≠ []) ∧
    ((cmd rdyPt 0 1 hd (pay 4 [1])).serves0 0 1 hd (pay 4 [1]) ∧ (pay 4 [1]).length = 4 ∧ field (pay 4 [1]) 0 1 ≤ 15 ∧ rdyPt.partExists (field (pay 4 [1]) 0 1) = true) ∧
    ((cmd rdyPt 0 1 hd (pay 68 [1, 3, 0, 0, 1])).serves0 0 1 hd (pay 68 [1, 3, 0, 0, 1]) ∧ field (pay 68 [1, 3, 0, 0, 1]) 1 1 ≤ 3 ∧ rdyPt.norRange = true ∧
      field (pay 68 [1, 3, 0, 0, 1]) 0 1 ≠ 0 ∧ ∃ b ∈ slice (pay 68 [1, 3, 0, 0, 1]) 4 64, b ≠ 0) ∧
    ((cmd rdyPt 0 1 hd pKey).serves0 0 1 hd pKey ∧ pKey.length = 68 ∧ field pKey 0 1 = 0 ∧ field pKey 1 1 = 3 ∧ rdyPt.ownerSession (0, 1) = false) ∧
    ((cmd rdyPt 0 1 hd pTag).serves0 0 1 hd pTag ∧ pTag.length = 8 ∧ field pTag 2 2 = 1 ∧ field pTag 4 2 ≤ field pTag 6 2 ∧ field pTag 6 2 ≤ 0x3FFF ∧
      (rdyPt.tagSt (field pTag 0 2)).advance = none ∧ (∀ c ∈ rdyPt.fab.colls, c.hallTag ≠ field pTag 0 2)) ∧
    ((cmd rdyPt 0 1 hd pJoin).serves0 0 1 hd pJoin ∧ pJoin.length = 24 ∧ rdyPt.fab.node = none ∧ rdyPt.mayJoin = true ∧ field pJoin 0 2 ≤ 0x3FFF ∧
      1 ≤ field pJoin 2 2 ∧ field pJoin 2 2 ≤ 16384 ∧ rdyPt.windowsCoverSpill (field pJoin 0 2) rdyPt.spillSize = false) ∧
    ((cmd rdyPt 0 1 hd pRoute).serves0 0 1 hd pRoute ∧ pRoute.length = 40 ∧ field pRoute 0 2 = 1 ∧ field pRoute 4 1 ≤ 1 ∧ field pRoute 5 1 ≤ 63 ∧
      (∀ j, j < 4 → nhopsOf (field pRoute (8 + 8 * j) 8) = 0 ∨ nhopsOf (field pRoute (8 + 8 * j) 8) ≤ 8 ∧ nextOf (field pRoute (8 + 8 * j) 8) = 0)) ∧
    ((cmd rdyPt 0 1 hd (pay 4 [1, 63, 1])).serves0 0 1 hd (pay 4 [1, 63, 1]) ∧ field (pay 4 [1, 63, 1]) 2 2 = 1 ∧ field (pay 4 [1, 63, 1]) 0 1 = 1 ∧
      field (pay 4 [1, 63, 1]) 1 1 ≤ 63) := by
  repeat' first | exact serves0_of _ _ _ _ _ (by decide +kernel) rfl | with_reducible apply And.intro
  any_goals decide +kernel
  exact ⟨_, _, rfl, rfl, by decide +kernel⟩

/-! ### Witnesses: pipelines and memory -/

/-- A READY device with PT1, which owns every stage and the first 4 GiB of node 0. -/
def rdyAll : State := { rdy with
  parts := [(1, { hallTag := 7, stageSet := 2 ^ 360 - 1, window := [(0, { nodeLo := 0, nodeHi := 0, access := 31, base := 0, limit := 0xFFFFFFFF, raw := [] })] })] }

/-- The pipeline of `armV`, with what differs. -/
def pipeV (st : PipeSt) : Pipe := { partition := 1, weight := 16, arm := armV, dieMap := idMap, st := st }

/-- The same device with that pipeline loaded as number 0. -/
def rdyV (st : PipeSt) (sst : StageSt) : State := { rdyAll with
  pipes := [(0, pipeV st)]
  stages := [((pipeV st).stg 0, { st := sst, partition := 1, bind := some (0, 0) })] }

def pLoad : List Byte := pay 32 ([1, 0, 0, 0] ++ idMap) ++ armV
def pInvoke : List Byte := pay 16 [0, 7, 0, 0, 1]

theorem witness_PipelineCommandsChange :
    ((cmd rdyAll 8 1 hd pLoad).serves 8 1 hd pLoad ∧ 32 ≤ pLoad.length ∧ field pLoad 1 1 = 0 ∧ mayName (8, 1) (field pLoad 0 1) = true ∧ 1 ≤ field pLoad 0 1 ∧
      field pLoad 0 1 ≤ 15 ∧ rdyAll.partExists (field pLoad 0 1) = true ∧ (∀ i, i < 12 → field pLoad (4 + i) 1 ≤ 11) ∧
      rdyAll.validate (field pLoad 0 1) (loadMap pLoad) (pLoad.drop 32) = none ∧
      (∀ k, (rdyAll.stage k).busyTest = false ∧ (rdyAll.die (stDie k)).gated = 0) ∧ rdyAll.power.gating = [] ∧
      rdyAll.validate (field pLoad 0 1) (loadMap pLoad) [] = some (1, 0)) ∧
    ((cmd (rdyV .idle .bound) 8 1 hd pInvoke).serves 8 1 hd pInvoke ∧ pInvoke.length = 16 + 8 * armNRegion (pipeV .idle).arm ∧
      (rdyV .idle .bound).names 8 1 (field pInvoke 0 1) (pipeV .idle) ∧ field pInvoke 1 1 ≤ 7 ∧ field pInvoke 3 1 = 0 ∧ field pInvoke 4 4 ≠ 0 ∧
      (pipeV .idle).invs.length < 4 ∧ ((pipeV .idle).st = .idle ∧ (rdyV .idle .bound).fab.twin ≠ .standby) ∧
      ((rdyV .idle .bound).mbox (8 * (pipeV .idle).partition + field pInvoke 1 1)).reserved < 256 ∧
      ∀ i, i < armNRegion (pipeV .idle).arm → (rdyV .idle .bound).baseOk 1 armV i (field pInvoke (16 + 8 * i) 8 % 2 ^ 56) = true) ∧
    ((cmd (rdyV .idle .bound) 8 1 hd (pay 4 [])).serves 8 1 hd (pay 4 []) ∧ (rdyV .idle .bound).names 8 1 (field (pay 4 []) 0 1) (pipeV .idle) ∧
      field (pay 4 []) 1 1 = 0 ∧ (∃ k ∈ (pipeV .idle).stgs, ((rdyV .idle .bound).stage k).st ≠ .fenced ∧
        ∃ i, ((rdyV .idle .bound).stage k).bind = some (field (pay 4 []) 0 1, i))) ∧
    ((cmd (rdyV .running .running) 8 1 hd (pay 4 [0, 1])).serves 8 1 hd (pay 4 [0, 1]) ∧ (rdyV .running .running).names 8 1 (field (pay 4 [0, 1]) 0 1) (pipeV .running) ∧
      field (pay 4 [0, 1]) 1 1 = 1) ∧
    ((cmd (rdyV .idle .bound) 8 1 hd (pay 12 [])).serves 8 1 hd (pay 12 []) ∧ field (pay 12 []) 0 1 = 0 ∧ (rdyV .idle .bound).pipe? (field (pay 12 []) 1 1) = some (pipeV .idle) ∧
      mayName (8, 1) (pipeV .idle).partition = true) := by
  refine ⟨⟨serves_of _ _ _ _ _ (by decide +kernel), ?_, ?_, ?_, ?_, ?_, ?_, ?_, ?_, fun k => ⟨rfl, ?_⟩, ?_⟩,
    ⟨serves_of _ _ _ _ _ (by decide +kernel), ?_, ⟨?_, ?_, ?_⟩, ?_, ?_, ?_, ?_, ?_, ?_, ?_⟩,
    ⟨serves_of _ _ _ _ _ (by decide +kernel), ⟨?_, ?_, ?_⟩, ?_, ⟨(pipeV .idle).stg 0, ?_, ?_, 0, ?_⟩⟩,
    ⟨serves_of _ _ _ _ _ (by decide +kernel), ⟨?_, ?_, ?_⟩, ?_⟩, ⟨serves_of _ _ _ _ _ (by decide +kernel), ?_, ?_, ?_⟩⟩
  all_goals first | decide +kernel | rfl

/-- A READY device that holds these bytes from local address 0, block 1 poisoned. -/
def rdyMem : State := { rdy with mem := Store.writeN {} 0 (bytesOf (List.range 16)), poison := [1] }

/-- Row 5 of stack 31 waits for hard repair. -/
def rdyHard (w : Option Waiter) (rows : List RepairRow) : State := { rdy with
  hbmStacks := [(31, { tempQ := 100, hardRepair := w, pending := true })]
  nor := { rdy.nor with repairLog := rows }
  helm := { rdy.helm with mailboxes := [(0, { running := w.map (·.2) })] } }

theorem witness_MemoryCommandsChange :
    ((cmd rdyMem 0 1 hd (pay 12 [0, 0, 0, 0, 0, 0, 0, 0, 0, 1])).serves 0 1 hd (pay 12 [0, 0, 0, 0, 0, 0, 0, 0, 0, 1]) ∧ rdyMem.plainRun (field (pay 12 [0, 0, 0, 0, 0, 0, 0, 0, 0, 1]) 0 8) 256 ∧
      field (pay 12 [0, 0, 0, 0, 0, 0, 0, 0, 0, 1]) 8 4 = 256 ∧ rdyMem.windowOk (mbPartition 0) 0 256 accRead = true) ∧
    ((cmd rdyMem 0 1 hd (pay 12 [255, 1, 0, 0, 0, 0, 0, 0, 1])).serves 0 1 hd (pay 12 [255, 1, 0, 0, 0, 0, 0, 0, 1]) ∧ field (pay 12 [255, 1, 0, 0, 0, 0, 0, 0, 1]) 0 8 % 256 + 1 ≤ 256 ∧
      rdyMem.isLocal 511 = true ∧ rdyMem.memBusy (localOf 511) = false ∧ rdyMem.isPoison (localOf 511) = true ∧
      rdyMem.windowOk (mbPartition 0) 511 1 accRead = true) ∧
    ((cmd rdyMem 0 1 hd (pay 12 [0, 0, 0, 0, 0, 4, 0, 0, 1])).serves 0 1 hd (pay 12 [0, 0, 0, 0, 0, 4, 0, 0, 1]) ∧
      rdyMem.windowOk (mbPartition 0) (field (pay 12 [0, 0, 0, 0, 0, 4, 0, 0, 1]) 0 8) 1 accRead = false) ∧
    ((cmd rdyMem 0 1 hd (leBytes 8 252 ++ leBytes 4 4 ++ leBytes 4 0 ++ bytesOf [1, 2, 3, 0])).serves 0 1 hd (leBytes 8 252 ++ leBytes 4 4 ++ leBytes 4 0 ++ bytesOf [1, 2, 3, 0]) ∧ rdyMem.plainRun 252 4 ∧ rdyMem.inFixed 252 4 = false ∧
      rdyMem.windowOk (mbPartition 0) 252 4 accWrite = true) ∧
    ((cmd (rdyHard none []) 0 1 hd (pay 4 [31])).serves0 0 1 hd (pay 4 [31]) ∧ (rdyHard none []).pendingRows 31 = [] ∧ ((rdyHard none []).stack 31).hardRepair = none ∧
      hardRange ((rdyHard none []).stack 31).tempQ = true ∧ ∀ x ∈ (rdyHard none []).pipes, x.2.st ≠ .running ∧ x.2.st ≠ .draining ∧ x.2.st ≠ .suspended) ∧
    ((rdyHard none [{ stack := 31, pc := 1, bank := 2, row := 5 }]).pendingRows 31 ≠ []) ∧
    (let s := rdyHard (some (0, 1)) [{ stack := 31, pc := 1, bank := 2, row := 5 }];
      s.starting = false ∧ (s.stack 31).hardRepair = some (0, 1) ∧ s.pendingRows 31 = [{ stack := 31, pc := 1, bank := 2, row := 5 }] ∧
      ({ s with nor := { s.nor with repairLog := markHard 31 s.nor.repairLog } } : State).pendingRows 31 = [] ∧ s.noneWait ∧ (s.mbox 0).running = some 1) ∧
    (let s := rdyHard (some (0, 1)) [{ stack := 31, pc := 1, bank := 2, row := 5 }, { stack := 31, pc := 1, bank := 2, row := 6 }];
      ({ s with nor := { s.nor with repairLog := markHard 31 s.nor.repairLog } } : State).pendingRows 31 ≠ [] ∧
      hardRange (s.stack 31).tempQ = true) := by
  repeat' first | exact serves_of _ _ _ _ _ (by decide +kernel) | exact serves0_of _ _ _ _ _ (by decide +kernel) rfl | with_reducible apply And.intro
  all_goals first | decide +kernel | (simp only [State.plainRun]; decide +kernel) | exact ⟨rfl, rfl, rfl, rfl, rfl⟩

/-! ### Witnesses: tenders -/

/-- A READY device whose plinth 3 has host channel CH47 in this state, owned by PT0. -/
def rdyChan (st : ChanSt) : State := { rdy with chans := [(239, { st := st, pause := st == .paused })] }

def pStart : List Byte := pay (12 + 64 * 16) [3, 47, 16]
def pCtl (act v : Nat) : List Byte := pay 8 ([3, 47, act, 0] ++ le 4 v)

theorem witness_TenderCommandsChange :
    ((cmd { rdyChan .idle with parts := [(1, pt1)] } 8 1 hd (pay 4 [3, 47])).serves 8 1 hd (pay 4 [3, 47]) ∧ field (pay 4 [3, 47]) 0 1 ≤ 3 ∧ field (pay 4 [3, 47]) 1 1 ≤ 47 ∧
      ((rdyChan .idle).chan 239).owner ≠ mbPartition 8) ∧
    ((cmd (rdyChan .idle) 0 1 hd pStart).serves 0 1 hd pStart ∧ ((rdyChan .idle).chan 239).owner = mbPartition 0 ∧ 1 ≤ field pStart 2 1 ∧ field pStart 2 1 ≤ 16 ∧
      pStart.length = 12 + 64 * field pStart 2 1 ∧ ((rdyChan .running).chan 239).st ≠ .idle ∧ ((rdyChan .idle).chan 239).st = .idle ∧
      (rdyChan .idle).upd.relay = none) ∧
    ((cmd (rdyChan .idle) 0 1 hd (pCtl 0 0)).serves 0 1 hd (pCtl 0 0) ∧ (rdyChan .idle).quiet 3 ∧ field (pCtl 0 0) 2 1 = 0) ∧
    ((cmd (rdyChan .running) 0 1 hd (pCtl 0 0)).serves 0 1 hd (pCtl 0 0) ∧ (rdyChan .running).quiet 3 ∧ ((rdyChan .running).chan 239).desc = [] ∧
      ((rdyChan .running).chan 239).waiters = []) ∧
    ((cmd (rdyChan .paused) 0 1 hd (pCtl 1 0)).serves 0 1 hd (pCtl 1 0) ∧ (rdyChan .paused).quiet 3 ∧ ((rdyChan .paused).chan 239).pausePwr = false) ∧
    field (pCtl 2 0) 2 1 = 2 ∧
    (field (pCtl 3 15) 2 1 = 3 ∧ field (pCtl 3 15) 4 4 ≤ 15 ∧ field (pCtl 3 0) 4 4 = 0 ∧ 15 < field (pCtl 3 16) 4 4) ∧
    (field (pCtl 4 65535) 2 1 = 4 ∧ field (pCtl 4 65535) 4 4 ≤ 65535) ∧
    ((cmd (rdyChan .error) 0 1 hd (pay 4 [3, 47])).serves 0 1 hd (pay 4 [3, 47]) ∧ ((rdyChan .error).chan 239).st = .error) ∧
    ((cmd (rdyChan .idle) 0 1 hd (pay 4 [3, 47, 0])).serves 0 1 hd (pay 4 [3, 47, 0]) ∧ mbPartition 0 = 0 ∧ (rdyChan .idle).partExists (field (pay 4 [3, 47, 0]) 2 1) = true) ∧
    ((cmd (rdyChan .idle) 0 1 hd (pay 4 [15, 47])).serves 0 1 hd (pay 4 [15, 47]) ∧ field (pay 4 [15, 47]) 1 1 ≤ 47 ∧ Tbl.get? (rdyChan .idle).helm.bulk 15 = none ∧
      ((rdyChan .idle).chan 47).owner = mbPartition 0) ∧
    ((cmd ({ rdy with helm := { rdy.helm with bulk := [(15, { mailbox := 0, channel := 47 })] } }) 0 1 hd (pay 4 [15])).serves 0 1 hd (pay 4 [15])) := by
  repeat' first | exact serves_of _ _ _ _ _ (by decide +kernel) | with_reducible apply And.intro
  all_goals first | decide +kernel | (simp only [State.quiet]; decide +kernel)

/-! ### Witnesses: tags, regions, collectives and beacons -/

/-- A READY device of node 0 with PT1, whose HALL_TAG 7 has this state. -/
def rdyTag (g : TagSt) : State := { rdyHall with
  parts := [(1, { hallTag := 7, window := [(0, { nodeLo := 0, nodeHi := 0, access := 31, base := 0, limit := 0xFFFFFFFF, raw := [] })] })]
  tags := [(0, { members := [(0, 3)], member := true, waypoint := some 5 }), (7, g)] }

/-- A member alone in the tag, its waypoint the last before the count wraps. -/
def lone : TagSt := { members := [(0, 0)], member := true, waypoint := some (2 ^ 48 - 1) }

def pAdvance : List Byte := pay 10 [7, 0, 255, 255, 255, 255, 255, 255, 255, 255]
def pRegion : List Byte := pay 24 ([7, 0, 0, 0, 0, 0, 0, 0] ++ le 8 0x10000 ++ le 8 0x10000)

/-- COLLECTIVE_START of a barrier (MAILBOX 7). -/
def pColl : List Byte := pay 68 ([7, 0, 0, 0] ++ le 8 9 ++ [1, 0, 0, 1] ++ le 2 7 ++ le 2 0 ++ le 8 0 ++ le 8 0 ++ le 8 0 ++ le 2 1 ++ le 2 1 ++ le 2 1 ++ le 2 0 ++ [5, 255])

theorem witness_WaypointAndRegionCommandsChange :
    ((cmd (rdyTag lone) 8 1 hd pAdvance).serves 8 1 hd pAdvance ∧ (rdyTag lone).partOfTag (field pAdvance 0 2) = some 1 ∧ mayName (8, 1) 1 = true ∧
      pAdvance.length = 10 ∧ field pAdvance 0 2 ≠ 0 ∧ ((rdyTag lone).tagSt 7).member = true ∧ ((rdyTag lone).tagSt 7).asking = false ∧
      ((rdyTag lone).tagSt 7).advance = none ∧ ((rdyTag lone).tagSt 0).advance = none ∧ field pAdvance 2 2 = 0xFFFF ∧
      field pAdvance 4 6 = ((rdyTag lone).tagSt 7).waypoint.getD 0) ∧
    ((cmd (rdyTag { lone with advance := some { target := 9, root := 0 } }) 8 1 hd pAdvance).serves 8 1 hd pAdvance ∧
      ((rdyTag { lone with advance := some { target := 9, root := 0 } }).tagSt 7).advance ≠ none) ∧
    ((cmd (rdyTag lone) 8 1 hd (pay 4 [7])).serves 8 1 hd (pay 4 [7]) ∧ (rdyTag lone).waypointHeld 7 = some (2 ^ 48 - 1) ∧
      (rdyTag { lone with asking := true }).waypointHeld 7 = none) ∧
    ((cmd (rdyTag lone) 8 1 hd pRegion).serves 8 1 hd pRegion ∧ pRegion.length = 24 ∧ ((rdyTag lone).tagSt 7).regionOp = none ∧ field pRegion 2 2 < 2 ^ 14 ∧
      field pRegion 8 8 % 65536 = 0 ∧ field pRegion 8 8 < 2 ^ 42 ∧ 0 < field pRegion 16 8 ∧ field pRegion 16 8 % 65536 = 0 ∧
      field pRegion 8 8 + field pRegion 16 8 ≤ 2 ^ 42 ∧
      (∀ r ∈ ((rdyTag lone).tagSt 7).regions, r.same (field pRegion 2 2) (field pRegion 8 8) (field pRegion 16 8) = false) ∧
      ((rdyTag lone).tagSt 7).members = [((rdyTag lone).ownNode, (rdyTag lone).ownNode)]) := by
  repeat' first | exact serves_of _ _ _ _ _ (by decide +kernel) | with_reducible apply And.intro
  all_goals decide +kernel

/-- A READY device whose beacon 7 is started, with this record and these lines. -/
def rdyBcn (b : Beacon) : State := { rdy with
  fab := { rdy.fab with node := some 0 }
  boot := { rdy.boot with phase := 14 }
  beacons := [(7, b)] }

theorem witness_CollectiveAndBeaconCommandsChange :
    ((cmd (rdyTag lone) 8 1 hd pColl).serves 8 1 hd pColl ∧ pColl.length = 68 ∧ (rdyTag lone).partOfTag (field (pColl.drop 4) 0xC 2) = some 1 ∧ mayName (8, 1) 1 = true ∧
      field pColl 0 1 ≤ 7 ∧ (rdyTag lone).collBad (pColl.drop 4) ((rdyTag lone).tagSt 7).nodes.length = none ∧
      (rdyTag lone).coll? (field (pColl.drop 4) 0 8) = none ∧ (rdyTag lone).fab.colls.length < 4 ∧ ((rdyTag lone).mbox (8 * 1 + 7)).reserved < 256) ∧
    ((cmd (rdyBcn { built := true }) 0 1 hd (pay 4 [7, 15])).serves0 0 1 hd (pay 4 [7, 15]) ∧ (rdyBcn { built := true }).beaconActs 7 = true ∧ field (pay 4 [7, 15]) 1 1 ≤ 15 ∧
      ((rdyBcn { built := true }).beacon 7).repointTo = none ∧ (rdyBcn { built := true }).collHolds = false ∧ ((rdyBcn { built := true, repointTo := some 3 }).beacon 7).repointTo ≠ none) ∧
    ((cmd (rdyBcn { built := true, lanes := [(lineKey 1 15 17, { st := .retired })] }) 0 1 hd (pay 8 [7, 15, 1, 17])).serves0 0 1 hd (pay 8 [7, 15, 1, 17]) ∧
      (∀ w ∈ ((rdyBcn { built := true, lanes := [(lineKey 1 15 17, { st := .retired })] }).beacon 7).laneWaits, w.1 ≠ lineKey 1 15 17) ∧
      ((rdyBcn { built := true, lanes := [(lineKey 1 15 17, { st := .retired })] }).lane 7 (lineKey 1 15 17)).st = .retired) ∧
    ((cmd (rdyBcn { built := true, lanes := [(lineKey 1 15 17, { st := .spare })] }) 0 1 hd (pay 8 [7, 15, 1, 17, 1])).serves0 0 1 hd (pay 8 [7, 15, 1, 17, 1]) ∧
      ((rdyBcn { built := true, lanes := [(lineKey 1 15 17, { st := .spare })] }).lane 7 (lineKey 1 15 17)).st = .spare ∧
      8 ≤ ((List.range 18).filter (fun i => !(rdyBcn { built := true, lanes := [(lineKey 1 15 17, { st := .spare })] }).lineGone 7 (lineKey 1 15 i) &&
        lineKey 1 15 i != lineKey 1 15 17)).length) := by
  repeat' first | exact serves0_of _ _ _ _ _ (by decide +kernel) rfl | exact serves_of _ _ _ _ _ (by decide +kernel) | with_reducible apply And.intro
  all_goals decide +kernel

/-! ### Witnesses: service accesses, telemetry, twins and the reset of a die -/

/-- A READY device with level 1 open for the session of mailbox 0. -/
def rdySvc : State := { rdy with sec := { rdy.sec with level := 1, levelSession := some (rdy.sessionOf 0) } }

/-- A register address of PD0 that exists, and one of a die. -/
def pSvc (a w : Nat) : List Byte := pay 8 (le 4 a ++ [w])

/-- A READY device in this twin state. -/
def rdyTwin (t : TwinSt) : State := { rdyHall with fab := { rdyHall.fab with twin := t } }

theorem witness_RegistersAreReadAndWritten :
    ((cmd rdy 0 1 hd (pay 4 [8])).serves 0 1 hd (pay 4 [8]) ∧ 7 < field (pay 4 [8]) 0 1) ∧
    ((cmd rdy 0 1 hd (pay 4 [7, 255])).serves 0 1 hd (pay 4 [7, 255]) ∧ (∃ rs, rdy.groupRegs 7 255 = some rs) ∧ rdy.mayRead (mbPartition 0) 7 255 = true ∧
      (∀ d, groupDie 7 255 = some d → rdy.dieLost d = false)) ∧
    ((cmd rdySvc 0 1 hd (pSvc (svcAddr 0 1 8) 8)).serves0 0 1 hd (pSvc (svcAddr 0 1 8) 8) ∧ rdySvc.serviceOpen (0, 1) = true ∧ ∃ p, rdySvc.svcPlace (field (pSvc (svcAddr 0 1 8) 8) 0 4) (field (pSvc (svcAddr 0 1 8) 8) 4 1) = .inr p) ∧
    ((cmd rdySvc 0 1 hd (pSvc (svcAddr 0 1 8) 4)).serves0 0 1 hd (pSvc (svcAddr 0 1 8) 4) ∧ ∃ p r, rdySvc.svcPlace (svcAddr 0 1 8) 4 = .inr p ∧
      (rdySvc.regsOf p.die p.block p.i).find? (fun r => r.wide && (r.off == p.off || r.off + 4 == p.off)) = some r ∧ r.off = p.off) ∧
    ((cmd rdy 0 1 hd (pSvc 0 4)).serves0 0 1 hd (pSvc 0 4) ∧ rdy.serviceOpen (0, 1) = false) ∧
    ((cmd rdySvc 0 1 hd (pay 16 (le 4 (svcAddr 0 1 8) ++ [4]))).serves0 0 1 hd (pay 16 (le 4 (svcAddr 0 1 8) ++ [4])) ∧ ∃ p, rdySvc.svcPlace (svcAddr 0 1 8) 4 = .inr p ∧ p.block ≠ 5) := by
  repeat' first | exact serves0_of _ _ _ _ _ (by decide +kernel) rfl | exact serves_of _ _ _ _ _ (by decide +kernel) | with_reducible apply And.intro
  all_goals first | decide +kernel | exact ⟨_, rfl⟩ | exact ⟨_, _, rfl, rfl, rfl⟩ | exact ⟨_, rfl, by decide +kernel⟩ | exact fun d h => absurd (show none = some d from h) (by simp)

def pTwin (st : Nat) : List Byte := pay 88 [st, 0, 6]
def pDie (d : Nat) : List Byte := pay 4 [d]
def dieIs (d : Nat) (x : Die) : State := { rdyHall with dies := [(d, x)] }

theorem witness_TwinAndDieCommandsChange :
    ((cmd (rdyTwin .none) 0 1 hd (pTwin 3)).serves0 0 1 hd (pTwin 3) ∧ (pTwin 3).length = 88 ∧ (rdyTwin .none).twinAuth (pTwin 3) = false ∧
      twinOf (field (pTwin 3) 0 1) = some .solo ∧ (rdyTwin .none).fab.twin = .none) ∧
    ((cmd (rdyTwin .standby) 0 1 hd (pTwin 1)).serves0 0 1 hd (pTwin 1) ∧ field (pTwin 1) 0 1 = 1 ∧ (rdyTwin .standby).fab.twin = .standby ∧
      (rdyTwin .standby).canArm (field (pTwin 1) 2 6) = true) ∧
    ((cmd (rdyTwin .none) 0 1 hd (pay 8 [])).serves0 0 1 hd (pay 8 []) ∧ (rdyTwin .none).fab.twin ≠ .resync) ∧
    ((cmd (rdyTwin .resync) 0 1 hd (pay 8 [0, 0, 0, 0, 47, 0, 0, 47])).serves0 0 1 hd (pay 8 [0, 0, 0, 0, 47, 0, 0, 47]) ∧ (rdyTwin .resync).fab.resync = none ∧ (rdyTwin .resync).upd.relay = none ∧
      (∀ i, i < 4 → field (pay 8 [0, 0, 0, 0, 47, 0, 0, 47]) (4 + i) 1 ≤ 47 ∧
        ((rdyTwin .resync).chan (64 * i + field (pay 8 [0, 0, 0, 0, 47, 0, 0, 47]) (4 + i) 1)).owner = 0 ∧
        ((rdyTwin .resync).chan (64 * i + field (pay 8 [0, 0, 0, 0, 47, 0, 0, 47]) (4 + i) 1)).st = .idle)) ∧
    ((cmd (dieIs 11 {}) 0 1 hd (pDie 12)).serves0 0 1 hd (pDie 12) ∧ fenceable (field (pDie 12) 0 1) = false) ∧
    ((cmd (dieIs 11 { life := .retired }) 0 1 hd (pDie 11)).serves0 0 1 hd (pDie 11) ∧ ((dieIs 11 { life := .retired }).die 11).life = .retired) ∧
    ((cmd (dieIs 11 { life := .fenced }) 0 1 hd (pDie 11)).serves0 0 1 hd (pDie 11) ∧ fenceable 11 = true ∧ ((dieIs 11 { life := .fenced }).die 11).life = .fenced) ∧
    ((cmd (dieIs 11 {}) 0 1 hd (pDie 11)).serves0 0 1 hd (pDie 11) ∧ field (pDie 11) 0 1 < 12 ∧ ((dieIs 11 {}).die 11).life = .up ∧
      ((dieIs 11 {}).die 11).fences.length ≤ 3 ∧ (dieIs 11 {}).pipes = [] ∧ (dieIs 11 {}).power.paused = []) := by
  repeat' first | exact serves0_of _ _ _ _ _ (by decide +kernel) rfl | with_reducible apply And.intro
  all_goals decide +kernel

/-! ### Witnesses: registers -/

theorem witness_RegisterWritesActOnTheirBits :
    ((11 : Nat) < 12 ∧ 29 < 30 ∧ (rdy.die 11).life = .up) ∧ (184 ∈ linkEnds ∧ rdy.dieLost (184 / 8) = false) ∧ (rdy.die (16 + 7)).life = .up ∧
    rdy.dieLost 23 = false ∧ placeOf (svcAddr 31 0 0) = none ∧
    ({ rdy with log := { rdy.log with entries := [{ index := 32767 }] } }).log.entries.find? (fun (e : LogEntry) => e.index == 65535 % 2 ^ 15) = some { index := 32767 } ∧
    (∀ e ∈ rdy.log.entries, e.index ≠ 0 % 2 ^ 15) ∧
    ((rdyChan .running).quiet 3 ∧ ((rdyChan .running).chan (64 * 3 + 47)).desc = [] ∧ ((rdyChan .running).chan (64 * 3 + 47)).waiters = [] ∧
      ((rdyChan .running).chan (64 * 3 + 47)).st = .running ∧ ((rdyChan .idle).chan (64 * 3 + 47)).st = .idle) := by
  repeat' with_reducible apply And.intro
  all_goals first | decide +kernel | (unfold State.quiet; decide +kernel)

/-! ### Witnesses: reset, start, sideband, boundary scan -/

/-- A start with nothing in its way. -/
def goodStart : StartInput := { keyDraws := [(List.range 8).map (fun i => 0x010101 * 2 ^ i)] }

/-- A device in a start at this step, subordinate 11 or 13 late. -/
def starting (phase : Nat) : State := { State.reset with
  pins := { resetN := true, exsarRails := true }
  startIn := { goodStart with lateSubs := [(11, 3), (13, 3)] }
  boot := { phase := phase, coreA := .active, coreB := .standby, loads := [(11, 2), (13, 2)] } }

/-- The state with a first sample of every sensor and a first budget of every compute die. -/
def sampled (s : State) : State := { s with
  dies := (List.range 24).map (fun d => (d, { temps := [(0, 100)], budget := some 300 }))
  hbmStacks := (List.range 32).map (fun k => (k, { sensed := true })) }

theorem witness_ResetsAndStartsAct :
    (rdy.pins.aux = true ∧ rdy.pins.mainRails = true) ∧ ({ rdy with pins := { rdy.pins with mainRails := false } }).pins.mainRails = false ∧
    (State.reset.boot.activation = false ∧ State.reset.pins.aux = true ∧ State.reset.pins.mainRails = true ∧ State.reset.pins.resetN = false ∧
      State.reset.boot.dev = .starting ∧ State.reset.pins.shutdownLatch = false) ∧
    ({ State.reset with pins := { shutdownLatch := true } }).pins.shutdownLatch = true ∧
    (({ goodStart with selfTestA := false, selfTestB := false }).selfTestA = false) ∧
    (goodStart.selfTestA = true ∧ goodStart.selfTestB = true ∧ goodStart.bootSel % 4 = 0 ∧ goodStart.standbyLoads = true ∧ goodStart.castOpens = true ∧
      goodStart.prevOpens = true ∧ goodStart.keysOpen = true ∧ goodStart.railsUp = true ∧ badLane goodStart = none ∧ goodStart.badWord = none ∧ goodStart.lateSubs = [] ∧
      goodStart.phyFails = [] ∧ (∃ key, drawKey goodStart.keyDraws = some key) ∧ goodStart.recordLost = false ∧ State.reset.nor.record.pending = none ∧
      State.reset.nor.repairLog = [] ∧ State.reset.hbmStacks.all (fun e => !e.2.programming) = true) ∧
    ((starting 6).boot.dev = .starting ∧ (starting 6).boot.phase = 6) ∧
    ((starting 8).boot.phase = 8 ∧ Tbl.get? (starting 8).boot.loads 11 = some 2 ∧ Tbl.get? (starting 8).boot.loads 13 = some 2 ∧
      (starting 8).startIn.lateSubs.find? (fun l => l.1 = 11) = some (11, 3) ∧ (starting 8).startIn.lateSubs.find? (fun l => l.1 = 13) = some (13, 3)) ∧
    (let s : State := { starting 8 with boot := { (starting 8).boot with loads := [(11, 1)] } };
      Tbl.get? s.boot.loads 11 = some 1 ∧ (1 : Nat) < 2 ∧ 1 + 1 < 3) ∧
    ((starting 13).boot.phase = 13 ∧ (starting 13).fwSet = false ∧ (sampled (starting 13)).fwSet = true ∧ ∃ k ∈ linkList, (let e := (({ starting 13 with links := [(96, { st := .up })] }) : State).link k; e.st = .up ∧ e.unacked.length < 2047)) := by
  repeat' with_reducible apply And.intro
  any_goals first | decide +kernel | exact ⟨_, rfl⟩

theorem witness_SidebandAndBoundaryScanAct :
    rdy.i3cOn = true ∧ State.reset.i3cOn = false ∧ (0x3B : Nat) ≠ 0x3A ∧ rdy.helmOn = true ∧ rdy.helm.sb.busy = false ∧
    ({ rdy with helm := { rdy.helm with sb := { busy := true } } }).helm.sb.busy = true ∧ field (pay 4 []) 0 2 ∉ sidebandCodes ∧
    field (pay 4 [8]) 0 2 ∈ sidebandCodes ∧ State.reset.pins.resetN = false ∧ rdy.pins.resetN = true := by
  repeat' with_reducible apply And.intro
  all_goals decide +kernel

/-! ### Witnesses: the host port and sessions -/

/-- The port's link up. -/
def rdyEth (c : HostCfg) : State := { rdy with helm := { rdy.helm with eth := { up := true } }, nor := { rdy.nor with hostCfg := c } }

/-- A Helm datagram of this length. -/
def frame (n : Nat) : EthFrame := { length := n, udpPort := some 0x4E58 }

theorem witness_EthernetPortActs :
    (rdyEth {}).helm.eth.up = true ∧ 9216 < (frame 9217).length ∧
    ((frame 9216).length ≤ 9216 ∧ (frame 9216).vlan = none ∧ (frame 9216).udpPort = some (rdyEth {}).nor.hostCfg.udpPort ∧ (frame 9216).fragment = false ∧
      (frame 9216).checksumOk = true ∧ (rdyEth {}).helm.eth.bytesHeld 0 + (frame 9216).length ≤ 262144) ∧
    (({ frame 64 with vlan := some 7 } : EthFrame).vlan = some 7 ∧ (rdyEth { vlan := 9 }).nor.hostCfg.vlan ≠ 0 ∧ (7 : Nat) ≠ (rdyEth { vlan := 9 }).nor.hostCfg.vlan) ∧
    ({ frame 64 with udpPort := none } : EthFrame).udpPort ≠ some (rdyEth {}).nor.hostCfg.udpPort ∧
    ((rdyEth { ipv6 := 5, ipv4 := 9 }).nor.hostCfg.ipv6 ≠ 0 ∧ (rdyEth { ipv6 := 5, ipv4 := 9 }).nor.hostCfg.ipv4 ≠ 0 ∧
      (rdyEth {}).nor.hostCfg.ipv4 = 0) ∧
    (rdy.pins.aux = true ∧ rdy.pins.mainRails = true ∧ rdy.pins.resetN = true) := by
  repeat' with_reducible apply And.intro
  all_goals decide +kernel

/-- A frame with the MAC that its key gives. -/
def withMac (f : HelmFrame) (kind key : Nat) : HelmFrame := { f with mac := (Config.hmacSm3 (leBytes 16 key) (helmBytes f kind)).take 16 }

theorem withMac_ok (f : HelmFrame) (kind key : Nat) : helmMacOk (withMac f kind key) kind key = true := by
  simp [helmMacOk, withMac, helmBytes]

theorem authentic_withMac (s : State) (f : HelmFrame) (kind : Nat) (x : Session) (h1 : s.session? f.session = some x) (h2 : helmHeadOk f = true) :
    s.authentic (withMac f kind x.kHD) kind = some x := by
  have h3 : helmHeadOk (withMac f kind x.kHD) = true := h2
  have h4 : s.session? (withMac f kind x.kHD).session = some x := h1
  simp only [State.authentic, h4, h3, withMac_ok]; rfl

/-- A half-open session and an open one of mailbox MB3 of PT0. -/
def half : HalfOpen := { id := 9, hostTag := 1, partition := 0, mailbox := 3, keySlot := 3, kHD := 5, kDH := 6, sA := List.replicate 32 4 }
def ses : Session := { id := 7, partition := 0, mailbox := 3, keySlot := 3, kHD := 11, kDH := 12, expect := 4, txNext := 8, ackOwed := 3, rto := 1000 }

/-- A READY device with both, and this mailbox. -/
def rdySes (m : Mailbox) : State := { rdy with
  helm := { rdy.helm with eth := { up := true }, sessions := [ses], halfOpen := [half], mailboxes := [(3, m)] }
  sec := { rdy.sec with level := 1, levelSession := some 7 } }

def fOpen1 (slot : Nat) : HelmFrame := { body := pay 72 [1, 0, 0, 0, 0, 7, slot], mac := List.replicate 16 0 }
def fOpen3 (n : Nat) : HelmFrame := withMac { session := 9, body := List.replicate 32 (BitVec.ofNat 8 n) } 8 5

theorem witness_SessionsOpenAndClose :
    ((rdySes {}).helmOn = true ∧ (rdySes {}).portSends (rdySes {}).nor.hostCfg.helmPcp = true ∧ helmHeadOk (fOpen1 3) = true ∧ (fOpen1 3).session = 0 ∧
      (fOpen1 3).mac = List.replicate 16 0 ∧ 72 ≤ (fOpen1 3).body.length ∧ (rdySes {}).nor.fuses.lifecycle ≠ 2 ∧ field (fOpen1 3).body 5 1 < 8 ∧
      (rdySes {}).partExists (field (fOpen1 3).body 4 1) = true ∧ field (fOpen1 3).body 6 1 < 4 ∧
      Tbl.get? (rdySes {}).nor.keys (4 * field (fOpen1 3).body 4 1 + field (fOpen1 3).body 6 1) = some Config.ownerKey ∧
      (rdySes {}).helm.halfOpen.length < 16) ∧
    (field (fOpen1 2).body 6 1 < 4 ∧ Tbl.get? (rdySes {}).nor.keys (4 * field (fOpen1 2).body 4 1 + field (fOpen1 2).body 6 1) = none) ∧
    ((rdySes {}).helm.halfOpen.find? (fun y => y.id == (fOpen3 4).session) = some half ∧
      helmHeadOk { fOpen3 4 with version := 2 } = false ∧ helmHeadOk (fOpen3 4) = true ∧ helmMacOk (fOpen3 4) 8 half.kHD = true ∧
      (fOpen3 4).body.take 32 = half.sA ∧ (fOpen3 5).body.take 32 ≠ half.sA ∧ helmMacOk (fOpen3 5) 8 half.kHD = true) ∧
    ((rdySes {}).authentic (withMac { session := 7 } 9 11) 9 = some ses ∧ (rdySes {}).sec.levelSession = some ses.id) ∧
    (rdySes {}).session? ses.id = some ses := by
  have e4 : helmMacOk (fOpen3 4) 8 half.kHD = true := withMac_ok _ _ _
  have e5 : helmMacOk (fOpen3 5) 8 half.kHD = true := withMac_ok _ _ _
  have a9 : (rdySes {}).authentic (withMac { session := 7 } 9 11) 9 = some ses := authentic_withMac _ _ _ ses (by decide +kernel) (by decide +kernel)
  refine ⟨⟨?_, ?_, ?_, ?_, ?_, ?_, ?_, ?_, ?_, ?_, rfl, ?_⟩, ⟨?_, ?_⟩, ⟨?_, ?_, ?_, e4, ?_, ?_, e5⟩, ⟨a9, ?_⟩, ?_⟩
  all_goals decide +kernel

/-- MB3 with one entry sent and one not. -/
def mb3 : Mailbox := { out := [{ kind := .response, body := [], sent := true, seq := 7 }, { kind := .event, body := [] }] }

def fCmd (seq : Nat) : HelmFrame := withMac { session := 7, seq := seq, body := pay 4 [1] } 1 11
def fAck : HelmFrame := withMac { session := 7, flags := 2, ackSeq := 7 } 4 11
def fBulk : HelmFrame := withMac { session := 7, seq := 4, body := pay (12 + 64) [15] } 5 11

/-- The same with bulk stream 15, whose queue holds this many bytes. -/
def rdyBulk (n : Nat) : State := { rdySes mb3 with
  helm := { (rdySes mb3).helm with bulk := [(15, { mailbox := 3, channel := 0, rxq := [List.replicate n 0] })] } }

theorem witness_SessionFramesActInOrder :
    ((rdySes mb3).helmOn = true ∧ (rdySes mb3).authentic (fCmd 4) 1 = some ses ∧ (fCmd 4).seq = ses.expect ∧ ((rdySes mb3).mbox ses.key).queue.length < 32 ∧
      (∀ c ∈ ((rdySes mb3).mbox ses.key).queue, field c.body 0 2 ∈ knownCodes) ∧ field (fCmd 4).body 0 2 ∈ knownCodes) ∧
    ((rdySes mb3).authentic (fCmd 3) 1 = some ses ∧ (fCmd 3).seq ≠ ses.expect) ∧ (rdySes mb3).authentic { fCmd 4 with session := 8 } 1 = none ∧
    ((rdySes mb3).authentic fAck 4 = some ses ∧ bit 1 fAck.flags = true ∧
      ∃ e ∈ ((rdySes mb3).mbox ses.key).out, e.sent = true ∧ e.done = false ∧ e.seq = fAck.ackSeq) ∧
    ((rdyBulk 0).authentic fBulk 5 = some ses ∧ fBulk.seq = ses.expect ∧
      (∃ b, Tbl.get? (rdyBulk 0).helm.bulk (field fBulk.body 0 1) = some b ∧ b.mailbox = ses.key ∧ field fBulk.body 4 8 = b.offset ∧
        b.atEnd = false ∧ b.discard = 0 ∧ b.held + (fBulk.body.drop 12).length ≤ 524288) ∧
      bulkLenOk (fBulk.body.drop 12).length (bit 0 (field fBulk.body 1 1)) = true ∧
      524288 < (({ mailbox := 3, channel := 0, rxq := List.replicate 64 (List.replicate 8192 0) } : BulkStream)).held + (fBulk.body.drop 12).length) ∧
    (ses.id ≠ 0 ∧ (rdySes { mb3 with out := mb3.out.tail }).session? ses.id = some ses ∧
      (∃ e es, ((rdySes { mb3 with out := mb3.out.tail }).mbox ses.key).out = e :: es ∧ e.sent = false) ∧
      ((rdySes { mb3 with out := mb3.out.tail }).mbox ses.key).unacked.length < 64) ∧
    (∃ e es, (({ rdy with helm := { rdy.helm with mailboxes := [(sbKey, mb3)] } } : State).mbox sbKey).out = e :: es) ∧
    (((rdySes mb3).mbox ses.key).unacked ≠ [] ∧ ses.ackOwed ≠ 0) := by
  have a1 : ∀ n, (rdySes mb3).authentic (fCmd n) 1 = some ses := fun n => authentic_withMac _ _ _ ses rfl rfl
  have a4 : (rdySes mb3).authentic fAck 4 = some ses := authentic_withMac _ _ _ ses (by decide +kernel) (by decide +kernel)
  have a5 : (rdyBulk 0).authentic fBulk 5 = some ses := authentic_withMac _ _ _ ses (by decide +kernel) (by decide +kernel)
  refine ⟨⟨?_, a1 4, ?_, ?_, ?_, ?_⟩, ⟨a1 3, ?_⟩, ?_, ⟨a4, ?_, ?_⟩, ⟨a5, ?_, ⟨_, rfl, ?_⟩, ?_, ?_⟩, ⟨?_, ?_, ⟨_, _, rfl, rfl⟩, ?_⟩, ⟨_, _, rfl⟩, ?_⟩
  all_goals decide +kernel

/-! ### Witnesses: streams and stages -/

/-- An armature around one stage: entry 0 is the stage, entry 1 takes its outputs, entry 2 feeds its three inputs. Streams 0 and 1 are its outputs,
2 to 4 its inputs; region 0 is 1 MiB with every access. -/
def feedV : List Byte := ent 0 1 11 0x20 0 []
def armT (e : List Byte) (code : List (List Byte)) (feed : List Byte := feedV) : List Byte :=
  armOf [e, ent 0 1 10 0x20 0 [], feed]
    [bytesOf [0, 0, 1, 0, 0, 0, 0, 0], bytesOf [0, 1, 1, 1, 0, 0, 0, 0], bytesOf [2, 0, 0, 0, 0, 0, 0, 0], bytesOf [2, 1, 0, 1, 0, 0, 0, 0],
      bytesOf [2, 1, 0, 2, 0, 0, 0, 0]]
    [pay 16 (le 8 0x100000 ++ [15, 6])] [] [token 2] code (rep := (0, 0, 0, 255, 255))

/-- The batch in hand, and one ahead of it. -/
def batchT : Batch := { epoch := 1, inv := 1, index := 0, rep := 0 }
def batchOld : Batch := { epoch := 0, inv := 1, index := 0, rep := 0, stagesDone := [0, 1, 2] }

/-- Its pipeline with these records in the FIFOs of streams; `head`: the batch is the head's. -/
def pipeT (e : List Byte) (code : List (List Byte)) (fifos : List (Nat × List Rec)) (head : Bool) (feed : List Byte := feedV) : Pipe :=
  { partition := 1, weight := 16, arm := armT e code feed, dieMap := idMap, st := .running
    batches := if head then [batchT] else [batchOld, batchT]
    invs := [{ seq := 1, mailbox := 0, nb := 2, bases := [0x1000], repeatMax := 0, admitted := 1 }], invNext := 1
    streams := [(0, { credits := 16 }), (1, { credits := 16 })] ++ fifos.map (fun q => (q.1, { fifo := q.2 })) }

/-- The device with that pipeline, its first stage, which is `k`, in this state. -/
def stateT (k : Nat) (e : List Byte) (code : List (List Byte)) (fifos : List (Nat × List Rec)) (head : Bool) (x : Stage)
    (feed : List Byte := feedV) : State := { rdyAll with
  pipes := [(0, pipeT e code fifos head feed)]
  stages := [(k, { x with st := .running, partition := 1, bind := some (0, 0) })] }

def jobT (e : List Byte) (code : List (List Byte)) (fifos : List (Nat × List Rec)) (head : Bool) (feed : List Byte := feedV) : Job :=
  { pl := 0, i := 0, p := pipeT e code fifos head feed, b := batchT }

/-- The stage runs. -/
theorem runT_ok (k : Nat) (e : List Byte) (code : List (List Byte)) (fifos : List (Nat × List Rec)) (head : Bool) (x : Stage) (feed : List Byte) :
    (stateT k e code fifos head x feed).boundAt k = some (0, 0, pipeT e code fifos head feed) ∧
      (stateT k e code fifos head x feed).running k = true ∧
      (stateT k e code fifos head x feed).stage k = { x with st := .running, partition := 1, bind := some (0, 0) } := by
  have hs : (stateT k e code fifos head x feed).stage k = { x with st := .running, partition := 1, bind := some (0, 0) } := by
    simp [State.stage, stateT, Tbl.getD, Tbl.get?]
  have hp : (stateT k e code fifos head x feed).pipe? 0 = some (pipeT e code fifos head feed) := by simp [State.pipe?, stateT, Tbl.get?]
  have hb : (stateT k e code fifos head x feed).boundAt k = some (0, 0, pipeT e code fifos head feed) := by
    unfold State.boundAt
    rw [hs]
    simp [hp]
  have hd : ((stateT k e code fifos head x feed).die (stDie k)).life = .up := by simp [State.die, stateT, rdyAll, rdy, State.reset, Tbl.getD, Tbl.get?]
  refine ⟨hb, ?_, hs⟩
  unfold State.running
  rw [hb]
  simp only [hs, hd]
  rfl

/-- The stage's work in hand. -/
theorem jobT_ok (k : Nat) (e : List Byte) (code : List (List Byte)) (fifos : List (Nat × List Rec)) (head : Bool) (x : Stage) (feed : List Byte)
    (h : (pipeT e code fifos head feed).loadsOk 0 batchT = true) : (stateT k e code fifos head x feed).job k = some (jobT e code fifos head feed) := by
  obtain ⟨hb, hr, -⟩ := runT_ok k e code fifos head x feed
  have hc : (pipeT e code fifos head feed).cur 0 = some batchT := by cases head <;> rfl
  unfold State.job
  rw [hb, hr]
  simp only [hc, h]
  rfl

/-- The batch that a G-stage takes up. -/
theorem intakeT_ok (k : Nat) (e : List Byte) (code : List (List Byte)) (fifos : List (Nat × List Rec)) (head : Bool) (x : Stage) (feed : List Byte)
    (h : (pipeT e code fifos head feed).loadsOk 0 batchT = true) (hg : x.g.ended = []) :
    (stateT k e code fifos head x feed).intake k = some (jobT e code fifos head feed) := by
  obtain ⟨hb, hr, hs⟩ := runT_ok k e code fifos head x feed
  have hc : (pipeT e code fifos head feed).batches.find? (fun b => !b.stagesDone.contains 0 && !([] : List Nat).contains b.epoch) = some batchT := by
    cases head <;> rfl
  unfold State.intake
  rw [hb, hr]
  simp only [hs, hg, hc, h]
  rfl

/-- What the stage works on, of an entry of this TYPE and opcode. -/
theorem works_of (k typ op : Nat) (e : List Byte) (code : List (List Byte)) (ins : List (Nat × List Rec)) (head : Bool) (x : Stage) (feed : List Byte)
    (h : (pipeT e code ins head feed).loadsOk 0 batchT = true ∧ stTypeOf ((jobT e code ins head feed).p.ent 0) = typ ∧
      stOpcode ((jobT e code ins head feed).p.ent 0) = op ∧ (outPorts (jobT e code ins head feed).p.arm 0).all (fun port => hasCredit (jobT e code ins head feed).p 0 port 1) = true)
    (hg : x.g.ended = []) (ho : x.outbox = []) : (stateT k e code ins head x feed).works k (jobT e code ins head feed) typ op := by
  refine ⟨?_, h.2.1, h.2.2.1, ?_⟩
  · split
    · exact intakeT_ok _ _ _ _ _ _ _ h.1 hg
    · exact jobT_ok _ _ _ _ _ _ _ h.1
  · unfold Job.clear
    have hx : ((stateT k e code ins head x feed).stage k).outbox = [] := by rw [(runT_ok k e code ins head x feed).2.2]; exact ho
    have hi : (jobT e code ins head feed).i = 0 := by unfold jobT; rfl
    rw [hx, hi, h.2.2.2]
    rfl

/-- A DATA record of the batch. -/
def recT (segEnd : Bool) (bs : List Nat) : Rec := { typ := .data, segEnd := segEnd, epoch := 1, payload := bytesOf bs }

/-- A V-stage in the middle of a run at its one instruction, INT32 records on IN0 and IN1, a row of ones in its store. -/
def entV : List Byte := ent 0 1 0 0x20 0 (le 4 0 ++ le 2 1 ++ le 2 0 ++ le 8 0 ++ le 8 0 ++ le 8 64 ++ le 4 0 ++ le 4 8192)
def stageV (bs : List Nat) (se : Bool := true) : Stage :=
  { v := { inRun := true, run0 := some (recT se bs), run1 := some (recT se bs), run2 := some (0, recT true [8, 0, 0, 0]), posKey := some (1, 0), snaps := [(1, (0, 0))] }
    store := Store.writeN (Store.writeN {} 4096 (List.replicate 64 1)) 8192 (List.replicate 64 1) }
/-- Stage 0 of die 0 that a V entry names. -/
def kV : Nat := stNum 0 1 0

/-- The three entries around a stage, the one that feeds it on die 1. -/
def pipeFar : Pipe := { pipeT entV [] [] true (ent 1 1 11 0x20 0 []) with streams := [(2, { wire := [recT true [1]], due := 2 })] }
def rdyFar : State := { rdyAll with pipes := [(0, pipeFar)], links := [0, 8, 96, 97].map (fun k => (k, { st := .up })) }

/-- A record between two dies draws its links' credits and reaches its FIFO (01: R18; 04: R134). -/
theorem test_record_over_hub :
    (match exec (.record 0 2 1 true (bytesOf [1])) rdyFar with
      | .next t => ((t.link 8).own 4, (t.link 96).own 4, (t.pipe? 0).map (fun p => ((p.str 2).fifo.length, (p.str 2).hub)))
      | _ => (0, 0, none)) = (510, 510, some (1, 0)) := by
  decide +kernel

theorem witness_StreamsCarryRecords :
    (pipeFar.st = .running ∧ 2 < armNStream pipeFar.arm ∧ pipeFar.sameDie 2 = false ∧ (pipeFar.str 2).hub = 0 ∧ (pipeFar.str 2).far = 0 ∧
      recLegal pipeFar 2 true (recT true [1]).payload = true ∧ rdyFar.findPkt (fun x => x == pipeFar.recPkt 0 2 (recT true [1])) = none ∧
      pipeFar.mates 2 = [2] ∧ rdyFar.way (pipeFar.srcDie 2) (pipeFar.recPkt 0 2 (recT true [1])) = [8, 96] ∧
      (∀ k ∈ rdyFar.way (pipeFar.srcDie 2) (pipeFar.recPkt 0 2 (recT true [1])), (rdyFar.link k).carries (pipeFar.recPkt 0 2 (recT true [1])) = true) ∧
      (State.reset.link 8).carries (pipeFar.recPkt 0 2 (recT true [1])) = false ∧ pipeFar.batch? 1 ≠ none ∧
      rdyFar.crosses (pipeFar.dstDie 2) (pipeFar.creditPkt 0 2 2) = true) ∧
    (pipeT entV [] [] true).sameDie 2 = true ∧
    (let p : Pipe := { pipeT entV [] [] true with streams := [(2, { wire := [recT true [1]] })] };
      p.st = .running ∧ 2 < armNStream p.arm ∧ (p.str 2).wire.head? = some (recT true [1]) ∧ recLegal p 2 true (recT true [1]).payload = true ∧
      ((p.str 2).newest.map (fun n => serialNewer 16 n 1)).getD false = false ∧ p.batch? 1 ≠ none ∧ ({ p with batches := [] } : Pipe).batch? 1 = none) ∧
    (let p : Pipe := { pipeT entV [] [] true with streams := [(2, { wire := [recT true [1]], newest := some 2 })] };
      ((p.str 2).newest.map (fun n => serialNewer 16 n 1)).getD false = true ∧ (({ rdyAll with stages := [(kV, { bind := some (0, 0) })] } : State).stage kV).cause = 0 ∧
      p.stg (strDst p.arm 2) = kV) ∧
    (let p : Pipe := { pipeT entV [] [] true with streams := [(2, { wire := [{ typ := .batchEnd, segEnd := false, epoch := 1, payload := [] }] })] };
      (p.str 2).fifo = [] ∧ (p.cur (strDst p.arm 2)).map (fun b => b.epoch) = some 1) ∧
    (let p : Pipe := { pipeT entV [] [] true with gap := .marked, streams := [(2, { wire := [{ typ := .gapMark, segEnd := false, epoch := 1, payload := [] }] })] };
      (p.str 2).wire.head? = some { typ := .gapMark, segEnd := false, epoch := 1, payload := [] } ∧ p.gap = .marked) ∧
    (strSrc (pipeT entV [] [] true).arm 2 ≠ strDst (pipeT entV [] [] true).arm 2 ∧
      (rdyAll.stage ((pipeT entV [] [] true).stg (strSrc (pipeT entV [] [] true).arm 2))).bind = none) := by
  repeat' with_reducible apply And.intro
  all_goals decide +kernel
def stateV (i : List Byte) (bs : List Nat) (head : Bool) (se : Bool := true) : State :=
  stateT kV entV [i] [(4, [recT true [8, 0, 0, 0]])] head (stageV bs se)
def jobV (i : List Byte) (head : Bool) : Job := jobT entV [i] [(4, [recT true [8, 0, 0, 0]])] head

theorem vAt_of (i : List Byte) (bs : List Nat) (head se : Bool) (opc : Nat)
    (h : ((jobV i head).p.loadsOk 0 batchT = true ∧ stTypeOf ((jobV i head).p.ent 0) = 1 ∧ stOpcode ((jobV i head).p.ent 0) = 0x20 ∧
      (outPorts (jobV i head).p.arm 0).all (fun port => hasCredit (jobV i head).p 0 port 1) = true) ∧
      vInstr (jobV i head).p.arm ((jobV i head).p.ent 0) 0 = i ∧ vOpc i = opc) :
    (stateV i bs head se).vAt kV (jobV i head) i opc := by
  obtain ⟨h1, h5, h6⟩ := h
  have h4 : ((stateV i bs head se).stage kV).v = (stageV bs se).v := rfl
  refine ⟨works_of _ _ _ _ _ _ _ _ _ h1 rfl rfl, by rw [h4]; rfl, by rw [h4]; exact Or.inl rfl, by rw [h4]; exact fun _ => Or.inl rfl,
    by rw [h4]; exact h5, h6, ?_⟩
  intro r0 r1 _ e0 e1
  rw [h4] at e0 e1
  cases Option.some.inj (show some (recT se bs) = some r0 from e0)
  cases Option.some.inj (show some (recT se bs) = some r1 from e1)
  exact ⟨rfl, rfl⟩

/-- The opcodes that take one element from each operand, a row or a conversion; the format byte each is shown with. -/
def vOps : List (Nat × Nat) :=
  [(0x01, 0x66), (0x02, 0x66), (0x03, 0x66), (0x04, 0x00), (0x05, 0x66), (0x06, 0x66), (0x07, 0x66), (0x08, 0x66), (0x09, 0x66), (0x0A, 0x66), (0x0B, 0x66),
    (0x0C, 0x66), (0x10, 0x66), (0x11, 0x66), (0x12, 0x66), (0x13, 0x66), (0x14, 0x66), (0x15, 0x66), (0x1A, 0x00), (0x1B, 0x00), (0x18, 0x06), (0x19, 0xD0),
    (0x28, 0x44)]

/-- An instruction of that opcode: row 2 takes IN0, IN1 and row 1. -/
def vAny (o : Nat × Nat) : List Byte := vi o.1 o.2 2 0x1000 0x2000 1 0x8000 (if o.1 = 0x19 then 32 else if o.1 = 0x28 then 16 else 4) 0 0

/-- Undo rows of another epoch, as many as there is room for. -/
def undoFull : List UndoRow := List.replicate 64 { row := 3, epoch := 0, bytes := [] }

theorem witness_VectorInstructionsAct :
    (∀ o ∈ vOps, (stateV (vAny o) (List.range 16) true).vAt kV (jobV (vAny o) true) (vAny o) o.1 ∧
      ∀ lo n, vRoom (jobV (vAny o) true) ((stateV (vAny o) (List.range 16) true).stage kV) (vAny o) lo n) ∧
    (∀ o ∈ vOps, let x := { (stageV (List.range 16)) with v := { (stageV (List.range 16)).v with undo := undoFull } };
      (stateT kV entV [vAny o] [] false x).works kV (jobT entV [vAny o] [] false) 1 0x20 ∧
      undoFits x ((jobT entV [vAny o] [] false).p.isHead 1) 1 (vRows x (vAny o) 0 8) = false) ∧
    (∀ o ∈ [0x20, 0x21, 0x22], (stateV (vAny (o, 0x66)) (List.range 16) true).vAt kV (jobV (vAny (o, 0x66)) true) (vAny (o, 0x66)) o ∧
      vSegEnd ((stateV (vAny (o, 0x66)) (List.range 16) true).stage kV) = true ∧
      vRoom (jobV (vAny (o, 0x66)) true) ((stateV (vAny (o, 0x66)) (List.range 16) true).stage kV) (vAny (o, 0x66)) 0 32) ∧
    (let i := vAny (0x20, 0x66); let s := stateV i (List.range 16) true false;
      s.vAt kV (jobV i true) i 0x20 ∧ vSegEnd (s.stage kV) = false ∧ (s.stage kV).v.run0.isNone = false ∧
      ∃ a, (reduceTree (reduceOp (vFi i) 0x20 0) 16 ((vSource (s.stage kV) i 4 (vFi i)).getD [])).1.head? = some a) := by
  have room : ∀ (i : List Byte), vKind i 2 = 0 → ∀ lo n, vRoom (jobV i true) ((stateV i (List.range 16) true).stage kV) i lo n := by
    intro i h lo n
    exact ⟨fun _ => rfl, fun port hp hk => absurd (h.symm.trans hk) (by omega)⟩
  refine ⟨fun o ho => ⟨vAt_of _ _ _ _ _ ?_, room _ ?_⟩, fun o ho => ⟨works_of _ _ _ _ _ _ _ _ _ ?_ rfl rfl, ?_⟩,
    fun o ho => ⟨vAt_of _ _ _ _ _ ?_, ?_, room _ ?_ _ _⟩, ?_⟩
  iterate 7 (· revert o; decide +kernel)
  · refine ⟨vAt_of _ _ _ _ _ (by decide +kernel), by decide +kernel, by decide +kernel, _, rfl⟩

/-- STORE of two elements, SCATTER, CONTROL and SLICE_SPLIT from row 1; SLICE_ACC of IN0 into row 2 on row 1. -/
def iStore : List Byte := vi 0x30 0x66 0 1 0x8000 0x8000 0x8000 2 0 0
def iScatter : List Byte := vi 0x31 0x66 0 1 0x8000 0x8000 0x8000 2 0 0
def iControl : List Byte := vi 0x3F 0x66 0 1 0x8000 0x8000 0x8000 2 0 0
def iSplit (dst : Nat) : List Byte := vi 0x38 0x41 dst 1 0x8000 0x8000 0x8000 4 0 0
def iAcc : List Byte := vi 0x39 0x16 2 0x1000 1 0x8000 0x8000 4 0 0
/-- A GEMM_SLICE of two rows and four columns, K 1. -/
def feedS : List Byte := ent 0 0 1 0x11 0 ([4, 4, 6, 0] ++ le 4 2 ++ le 4 1 ++ le 4 4)
def stateAcc : State := stateT kV entV [iAcc] [] true (stageV (List.range 16)) feedS
def jobAcc : Job := jobT entV [iAcc] [] true feedS

/-- The held-store buffer of die 0 with no room left. -/
def fullHeld : List (Nat × List HeldStore) := [(0, List.replicate 32768 { stage := kV, epoch := 1, pipe := 0, region := 0, addr := 0, data := [], mask := [] })]

theorem jobAcc_ok : stateAcc.vAt kV jobAcc iAcc 0x39 := by
  have h4 : (stateAcc.stage kV).v = (stageV (List.range 16)).v := rfl
  refine ⟨works_of _ _ _ _ _ _ _ _ _ (by decide +kernel) rfl rfl, by rw [h4]; rfl, by rw [h4]; exact Or.inl rfl, fun _ => by rw [h4]; exact Or.inl rfl,
    by rw [h4]; decide +kernel, by decide +kernel, ?_⟩
  intro r0 r1 h
  exact absurd h (by decide +kernel)

theorem witness_VectorElementsAreExact : ∃ a b : Nat, a < 2 ^ 32 ∧ b < 2 ^ 32 ∧ b < 32 ∧ (2 : Int) ^ 31 ≤ toSigned 32 a + toSigned 32 b ∧
    ∃ c d : Nat, c < 2 ^ 32 ∧ d < 2 ^ 32 ∧ toSigned 32 c + toSigned 32 d < -(2 ^ 31 : Int) := by
  exact ⟨0x7FFFFFFF, 1, by decide, by decide, by decide, by decide +kernel, 0x80000000, 0xFFFFFFFF, by decide, by decide, by decide +kernel⟩

theorem witness_VectorStoresAndControlAct :
    (∀ head, (stateV iStore (List.range 16) head).vAt kV (jobV iStore head) iStore 0x30) ∧
    (let s := stateV iStore (List.range 16) true;
      (∀ q ∈ maskedRuns (vMask (s.stage kV) iStore) 0x1000 0 9 (pack 32 ((vSource (s.stage kV) iStore 4 (vFi iStore)).getD [])), q.1 < 2 ^ 56) ∧
      (jobV iStore true).p.base batchT 0 = 0x1000 ∧ (jobV iStore true).p.isHead 1 = true ∧ s.plainRun 0x1000 8 ∧ vKind iStore 0xA = 8 ∧
      s.windowOk 1 0x1000 8 accWrite = true ∧ s.inFixed 0x1000 8 = false ∧ (s.stage kV).v.pos = (0, 0) ∧ (s.stage kV).v.placed = 0) ∧
    ((jobV iStore false).p.isHead 1 = false ∧ (stateV iStore [] false).held = [] ∧ (storePieces 0x1000 (List.replicate 8 0)).length = 1 ∧
      ({ stateV iStore [] false with held := fullHeld } : State).vAt kV (jobV iStore false) iStore 0x30 ∧
      (Tbl.getD fullHeld 0 []).length ≤ 32768 ∧ 32768 < (Tbl.getD fullHeld 0 []).length + 1) ∧
    (let s : State := stateT kV entV [] [] true { v := { waitHeld := true } };
      (s.stage kV).v.waitHeld = true ∧ (Tbl.getD s.held (stDie kV) []).length < 32768) ∧
    (∀ head, (stateV iScatter (List.range 16) head).vAt kV (jobV iScatter head) iScatter 0x31) ∧
    (let j := jobV iScatter true; let s := stateV iScatter (List.range 16) true;
      (s.stage kV).v.run2 = some (0, recT true [8, 0, 0, 0]) ∧ entriesOf 0 64 0 512 (recT true [8, 0, 0, 0]).payload = [some 512] ∧
      entryAddr 0 (j.p.base j.b 0 + 0) 512 = 0x1200 ∧ (vSource (s.stage kV) iScatter 4 (vFi iScatter)).map List.length = some 2 ∧
      s.plainRun 0x1200 8 ∧ s.windowOk 1 0x1200 8 accWrite = true ∧ s.inFixed 0x1200 8 = false ∧ vKind iScatter 0xA = 8) ∧
    (∀ head, (stateV iControl [] head).vAt kV (jobV iControl head) iControl 0x3F) ∧
    (armControl (jobV iControl true).p.arm = (jobV iControl true).i ∧ armControl armV ≠ 0) := by
  refine ⟨fun h => vAt_of _ _ _ _ _ (by revert h; decide +kernel), ?_, ⟨by decide +kernel, by decide +kernel, by decide +kernel, ?_, ?_⟩, by decide +kernel,
    fun h => vAt_of _ _ _ _ _ (by revert h; decide +kernel), ?_, fun h => vAt_of _ _ _ _ _ (by revert h; decide +kernel), by decide +kernel⟩
  · unfold State.plainRun; decide +kernel
  · exact (vAt_of iStore [] false true 0x30 (by decide +kernel) : (stateV iStore [] false).vAt kV (jobV iStore false) iStore 0x30)
  · have h : ∀ l : List HeldStore, Tbl.getD [(0, l)] 0 [] = l := fun _ => rfl
    rw [fullHeld, h, List.length_replicate]
    decide
  · unfold State.plainRun; decide +kernel

theorem witness_SliceModeActs :
    (∀ d ∈ [2, 0x6000, 0x7000], (stateV (iSplit d) [] true).vAt kV (jobV (iSplit d) true) (iSplit d) 0x38) ∧
    (let s := stateV (iSplit 2) [] true; let vs := ((vSource (s.stage kV) (iSplit 2) 4 .fp64).getD []).map (Fmt.decode .fp64);
      (∀ v ∈ vs, ∃ a b c, v = .fin a b c) ∧ 0 < vs.length ∧ vs.length ≤ 4096 ∧ (jobV (iSplit 2) true).p.isHead 1 = true ∧ vSegEnd (s.stage kV) = true) ∧
    (∀ port, port < 2 → canEmit (jobV (iSplit 2) true).p 0 port 8 = true) ∧
    (∃ q rt nt row opens pair, stateAcc.vAt kV jobAcc iAcc 0x39 ∧ (streamsInto jobAcc.p.arm 0 0).head? = some q ∧
      jobAcc.p.ent (strSrc jobAcc.p.arm q) = feedS ∧ (sliceTiles feedS).isEmpty = false ∧ slicePlace feedS (sliceTiles feedS) 0 = (rt, nt, opens, pair, row) ∧
      (lsElems (stateAcc.stage kV).store 8192 16 (512 * rt + row) 1).getD 0 0 ≠ sliceBad ∧
      (∀ c, c < 4 → (lsElems (stateAcc.stage kV).store (8192 + 2 * mRows feedS) 16 (512 * nt + c) 1).getD 0 0 ≠ sliceBad) ∧
      undoFits (stateAcc.stage kV) (jobAcc.p.isHead 1) 1 [2] = true) := by
  refine ⟨fun d hd => vAt_of _ _ _ _ _ (by revert d; decide +kernel), ⟨?_, by decide +kernel, by decide +kernel⟩, by decide +kernel,
    2, 0, 0, 0, true, (0, 6), jobAcc_ok, ?_⟩
  · have h : ((vSource ((stateV (iSplit 2) [] true).stage kV) (iSplit 2) 4 .fp64).getD []).map (Fmt.decode .fp64) =
        List.replicate 4 (Fmt.decode .fp64 0x0101010101010101) := by decide +kernel
    intro v hv
    simp only [h, List.mem_replicate] at hv
    rw [hv.2]
    exact ⟨_, _, _, rfl⟩
  · decide +kernel

/-! ### Witnesses: matrix, gather and special stages -/

/-- A matrix stage of INT8 on INT8, drained as INT32; A_LS 4096, B_LS 8192, DRAIN_LS 12288. -/
def entM (op flags rows k n : Nat) : List Byte :=
  ent 0 0 0 op flags ([4, 4, 6, 0] ++ le 4 rows ++ le 4 k ++ le 4 n ++ le 4 4096 ++ le 4 8192 ++ le 4 0 ++ le 4 0 ++ le 4 0 ++ le 4 12288)
def kM : Nat := stNum 0 0 0
def stateM (e : List Byte) (ins : List (Nat × List Rec)) (head : Bool) (m : MState) : State :=
  stateT kM e [] ins head { m := m, store := Store.writeN (Store.writeN {} 4096 (List.replicate 64 1)) 8192 (List.replicate 64 1) }
def jobM (e : List Byte) (ins : List (Nat × List Rec)) (head : Bool) : Job := jobT e [] ins head

/-- A record on IN0, and one on IN1. -/
def in0 (bs : List Nat) : List (Nat × List Rec) := [(2, [recT true bs])]
def in1 (bs : List Nat) : List (Nat × List Rec) := [(3, [recT true bs])]
def goM : MState := { started := true }

theorem witness_MatrixStagesAct :
    (∀ q ∈ [(0x10, 2, 4), (0x11, 2, 4), (0x10, 1, 600), (0x10, 1, 4), (0x11, 1, 4)], let e := entM q.1 8 q.2.1 q.2.2 4;
      (stateM e [] true goM).works kM (jobM e [] true) 0 q.1 ∧ (stateM e [] true goM).bTileIs kM (jobM e [] true) ∧
      ∃ a, (stateM e [] true goM).aRowIs kM (jobM e [] true) a) ∧
    (let e := entM 0x10 0x10 2 4 4; let s := stateM e (in0 [1, 2, 3, 4]) true { goM with bCur := some (List.replicate 16 1) };
      s.works kM (jobM e (in0 [1, 2, 3, 4]) true) 0 0x10 ∧ s.bTileIs kM (jobM e (in0 [1, 2, 3, 4]) true) ∧
      ∃ a, s.aRowIs kM (jobM e (in0 [1, 2, 3, 4]) true) a) ∧
    (mRowsAt (entM 0x10 8 2 4 4) 0 = 2 ∧ mRowsAt (entM 0x10 8 1 600 4) 0 = 1 ∧ 1 < ceilDiv (mK (entM 0x10 8 1 600 4)) (mKt (entM 0x10 8 1 600 4)) ∧
      ceilDiv (mK (entM 0x10 8 1 4 4)) (mKt (entM 0x10 8 1 4 4)) ≤ 1 ∧ mSlice (entM 0x10 8 1 600 4) = false ∧ mSlice (entM 0x11 8 1 4 4) = true) ∧
    (let e := entM 0x10 0x48 2 4 4; (stateM e (in1 [1, 2, 3, 4]) true {}).works kM (jobM e (in1 [1, 2, 3, 4]) true) 0 0x10 ∧ mC0 e = 2 ∧
      (dataOf (jobM e (in1 [1, 2, 3, 4]) true) ((stateM e (in1 [1, 2, 3, 4]) true {}).stage kM) 1).isSome = true ∧ 1 < mRowsAt e 0) ∧
    (let e := entM 0x10 0x18 2 4 4; (stateM e (in1 [1, 2, 3, 4]) true goM).works kM (jobM e (in1 [1, 2, 3, 4]) true) 0 0x10 ∧ mBFromIn1 e = true ∧
      (dataOf (jobM e (in1 [1, 2, 3, 4]) true) ((stateM e (in1 [1, 2, 3, 4]) true goM).stage kM) 1).map (fun f => f.2.2.payload.length) = some 4 ∧
      4 < bTileBytes e (mColsAt e 0) (mKAt e 0)) ∧
    (∀ q ∈ [(0x108, true), (0x108, false), (0x188, true), (0x8, true), (0x488, true)], let e := entM 0x10 q.1 2 4 4;
      (stateM e [] q.2 { drain := some (0, 0, 0) }).works kM (jobM e [] q.2) 0 0x10 ∧ mDrainLs e = decide (0x100 ≤ q.1 ∧ q.1 < 0x400) ∧
      (jobM e [] q.2).p.isHead 1 = q.2 ∧ canEmit (jobM e [] q.2).p 0 0 1 = true) := by
  refine ⟨fun q hq => ⟨works_of _ _ _ _ _ _ _ _ _ (by revert q; decide +kernel) rfl rfl, ?_, ?_⟩, ⟨works_of _ _ _ _ _ _ _ _ _ (by decide +kernel) rfl rfl, ?_, ?_⟩,
    by decide +kernel, ⟨works_of _ _ _ _ _ _ _ _ _ (by decide +kernel) rfl rfl, by decide +kernel⟩,
    ⟨works_of _ _ _ _ _ _ _ _ _ (by decide +kernel) rfl rfl, by decide +kernel⟩, fun q hq => ⟨works_of _ _ _ _ _ _ _ _ _ (by revert q; decide +kernel) rfl rfl, ?_⟩⟩
  · revert q; unfold State.bTileIs; decide +kernel
  · unfold State.aRowIs
    have h : mAFromLs ((jobM (entM q.1 8 q.2.1 q.2.2 4) [] true).p.ent (jobM (entM q.1 8 q.2.1 q.2.2 4) [] true).i) = true := by revert q; decide +kernel
    simp only [h, if_true]
    exact ⟨_, rfl⟩
  · unfold State.bTileIs; decide +kernel
  · let e := entM 0x10 0x10 2 4 4
    let x := (stateM e (in0 [1, 2, 3, 4]) true { goM with bCur := some (List.replicate 16 1) }).stage kM
    unfold State.aRowIs
    have h : mAFromLs ((jobM e (in0 [1, 2, 3, 4]) true).p.ent 0) = false := by decide +kernel
    obtain ⟨f, hf⟩ := Option.isSome_iff_exists.mp (show (dataOf (jobM e (in0 [1, 2, 3, 4]) true) x 0).isSome = true by decide +kernel)
    have hb : (dataOf (jobM e (in0 [1, 2, 3, 4]) true) x 0).map (fun f =>
        decide (aRowBytes ((jobM e (in0 [1, 2, 3, 4]) true).p.ent 0) (mKAt ((jobM e (in0 [1, 2, 3, 4]) true).p.ent 0) x.m.kt) ≤
          (x.m.aPart ++ f.2.2.payload).length)) = some true := by decide +kernel
    rw [hf] at hb
    refine ⟨aFromIn ((jobM e (in0 [1, 2, 3, 4]) true).p.ent 0) (x.m.aPart ++ f.2.2.payload) (mKAt ((jobM e (in0 [1, 2, 3, 4]) true).p.ent 0) x.m.kt), ?_⟩
    show if mAFromLs ((jobM e (in0 [1, 2, 3, 4]) true).p.ent 0) = true then _ else _
    rw [if_neg (by rw [h]; exact Bool.false_ne_true)]
    exact ⟨f, hf, of_decide_eq_true (Option.some.inj hb), rfl⟩
  · revert q; decide +kernel

/-- A gather stage on region 0: IDX32 entries 64 bytes apart, rows of 16 bytes, elements of 4, ADD32, a span of 4,096. -/
def entG (op fmt : Nat) : List Byte := ent 0 2 0 op 0 ([0, fmt, 4, 1] ++ le 4 16 ++ le 8 0 ++ le 8 64 ++ le 8 0 ++ le 8 4096)
def kG : Nat := stNum 0 2 0
def gIns (bs : List Nat) : List (Nat × List Rec) := [(2, [recT true bs]), (3, [recT true [7, 0, 0, 0, 9, 0, 0, 0]])]
def idx2 : List (Nat × List Rec) := gIns [1, 0, 0, 0, 2, 0, 0, 0]
def stateG (op fmt : Nat) (ins : List (Nat × List Rec)) (g : GState) : State := stateT kG (entG op fmt) [] ins true { g := g }
def jobG (op fmt : Nat) (ins : List (Nat × List Rec)) : Job := jobT (entG op fmt) [] ins true

/-- An index record of two entries, both still to issue, and one whose only request is out. -/
def itTodo : GItem := { id := 0, epoch := 1, window := 0, bytes := 4, pos := 0, todo := [some 64, some 128], operands := bytesOf [7, 0, 0, 0, 9, 0, 0, 0] }
def itOut : GItem := { id := 0, epoch := 1, window := 0, bytes := 4, pos := 0, segEnd := true, count := 1 }
def goTodo : GState := { items := [itTodo], nextItem := 1, windows := [(0, 1)] }
def reqOut : GReq := { tag := 5, window := 0, epoch := 1, addr := 0x1040, len := 4, pa := 0x1040, pn := 4, item := 0, ent := 0, issuedAt := 0 }
def rspOf (st : Nat) : HubPkt := { typ := 6, tc := 1, partition := 1, src := hubUnit 0, dst := stId kG, tag := 5, specific := st, payload := bytesOf [1, 2, 3, 4] }
def stateRsp (st : Nat) (r : GReq) (its : List GItem) : State :=
  doneState (stateG 0x32 0 idx2 { items := its, reqs := [r], nextItem := 1, windows := [(0, 1)], nextTag := 6 }) (rspOf st)

/-- A CSR_WALK item with one row to begin. -/
def itRow : GItem := { id := 0, epoch := 1, window := 0, bytes := 0, pos := 0, phase := 5, todo := [some 3] }

theorem witness_GatherStagesAct :
    ((stateG 0x30 0 [] {}).works kG (jobG 0x30 0 []) 2 0x30 ∧ windowFor (jobG 0x30 0 []) {} = some 0 ∧ slotsOf {} 0 + (blocksOf 0x1000 16).length ≤ 4096 ∧
      field (entG 0x30 0) 0xC 4 = 16 ∧ field (entG 0x30 0) 0x28 8 = 4096 ∧ entryAddr 0 ((jobG 0x30 0 []).p.base batchT 0) 0 + 16 < 2 ^ 56 ∧
      windowFor (jobG 0x30 0 []) { loaded := 4080 } = some 0 ∧ 4096 ≤ 4080 + min 16 (4096 - 4080)) ∧
    (∀ op ∈ [0x31, 0x32, 0x35], (stateG op 0 idx2 {}).works kG (jobG op 0 idx2) 2 op ∧ windowFor (jobG op 0 idx2) {} = some 0 ∧
      (dataOf (jobG op 0 idx2) ((stateG op 0 idx2 {}).stage kG) 0).map (fun f => entriesOf 0 64 0 512 f.2.2.payload) = some [some 64, some 128] ∧
      (dataOf (jobG op 0 idx2) ((stateG op 0 idx2 {}).stage kG) 1).map (fun f => f.2.2.payload.length) = some (2 * (atomicLen 1).getD 0)) ∧
    (∀ op ∈ [0x31, 0x32, 0x35], (stateG op 0 idx2 goTodo).works kG (jobG op 0 idx2) 2 op ∧ windowFor (jobG op 0 idx2) goTodo = some 0 ∧
      slotsOf goTodo 0 < 4096 ∧ (∀ t ∈ goTodo.items, t.id < goTodo.nextItem ∧ t.asks = []) ∧ itTodo.window = 0 ∧ itTodo.nulls = [] ∧
      goTodo.items.find? (fun t => t.epoch == 1 && !t.todo.isEmpty) = some itTodo ∧
      entryAddr 0 ((jobG op 0 idx2).p.base batchT 0 + 0) 64 = 0x1040 ∧ (∀ t ∈ goTodo.items, t.id = itTodo.id → t = itTodo)) ∧
    (∀ op ∈ [0x33, 0x34], let ins := gIns (if op = 0x33 then [3, 0, 0, 0, 1, 0, 0, 0] else [3, 0, 0, 0]);
      (stateG op 0 ins {}).works kG (jobG op 0 ins) 2 op ∧ windowFor (jobG op 0 ins) {} = some 0 ∧
      (op = 0x33 → (dataOf (jobG op 0 ins) ((stateG op 0 ins {}).stage kG) 0).map (fun f => entriesOf 2 1 0 512 f.2.2.payload) = some [some 3]) ∧
      (op = 0x34 → (dataOf (jobG op 0 ins) ((stateG op 0 ins {}).stage kG) 0).map (fun f => entriesOf 0 64 0 512 f.2.2.payload) = some [some 192])) ∧
    (let g : GState := { items := [itRow], nextItem := 1, windows := [(0, 1)] };
      (stateG 0x33 0 [] g).works kG (jobG 0x33 0 []) 2 0x33 ∧ windowFor (jobG 0x33 0 []) g = some 0 ∧ itRow.id < g.nextItem ∧
      (let e := (jobG 0x33 0 []).p.ent 0; let a := entryAddr 0 ((jobG 0x33 0 []).p.base batchT (field e 8 1)) (field e 0x10 8 + csrPtr e * 3);
        a + 2 * csrPtr e ≤ 2 ^ 56 ∧ slotsOf g 0 + (blocksOf a (2 * csrPtr e)).length ≤ 4096)) ∧
    ((let s := stateRsp 0 { reqOut with discard := true } []; (s.hubQ.map (fun x => (x.2, s.crosses (queuePlace x.1) (rspOf 0)))) = [([rspOf 0], true)]) ∧ (rspOf 0).dst = stId kG ∧ reqOut.issued = true ∧ reqOut.status = none) ∧
    (((stateRsp 3 reqOut [itOut]).stage kG).bind = some (0, 0) ∧ (jobG 0x32 0 idx2).p.isHead reqOut.epoch = true ∧ (jobG 0x32 0 idx2).p.posts = [] ∧
      ((stateRsp 3 reqOut [itOut]).stage kG).cause = 0) ∧
    ((stateRsp 0 reqOut [itOut]).works kG (jobG 0x32 0 idx2) 2 0x32 ∧ gArrival (entG 0x32 0) = false ∧
      (slice (rspOf 0).payload (reqOut.pa - reqOut.addr) reqOut.pn).length = itOut.bytes ∧ itOut.gone = 0 ∧ itOut.asks = [] ∧
      canEmit (jobG 0x32 0 idx2).p 0 0 1 = true) := by
  refine ⟨⟨works_of _ _ _ _ _ _ _ _ _ (by decide +kernel) rfl rfl, by decide +kernel⟩,
    fun q hq => ⟨works_of _ _ _ _ _ _ _ _ _ (by revert q; decide +kernel) rfl rfl, by revert q; decide +kernel⟩,
    fun q hq => ⟨works_of _ _ _ _ _ _ _ _ _ (by revert q; decide +kernel) rfl rfl, by revert q; decide +kernel⟩,
    fun q hq => ⟨works_of _ _ _ _ _ _ _ _ _ (by revert q; decide +kernel) rfl rfl, by revert q; decide +kernel⟩,
    ⟨works_of _ _ _ _ _ _ _ _ _ (by decide +kernel) rfl rfl, by decide +kernel⟩, by decide +kernel, by decide +kernel,
    ⟨(works_of kG 2 0x32 (entG 0x32 0) [] idx2 true _ feedV (by decide +kernel) rfl rfl :
      (stateG 0x32 0 idx2 { items := [itOut], reqs := [reqOut], nextItem := 1, windows := [(0, 1)], nextTag := 6 }).works kG (jobG 0x32 0 idx2) 2 0x32), by decide +kernel⟩⟩

/-- A special-function stage in FP32: LB 32, K 2, one segment. -/
def entS (op nlist : Nat) : List Byte := ent 0 3 0 op 0 ([0, 0, 0, nlist] ++ le 4 0 ++ le 4 0 ++ le 2 32 ++ le 2 2 ++ le 4 1 ++ le 4 0 ++ le 8 16)
def kS : Nat := stNum 0 3 0
/-- A record of ones on IN0, and as many identifiers taken. -/
def insS (n : Nat) (se : Bool) : List (Nat × List Rec) := [(2, [recT se ((List.replicate n [0, 0, 128, 63]).flatten)])]
def stateS (op nlist n : Nat) (se : Bool) : State := stateT kS (entS op nlist) [] (insS n se) true { s := { ids := List.range n } }
def jobS (op nlist n : Nat) (se : Bool) : Job := jobT (entS op nlist) [] (insS n se) true
def frontS (n : Nat) (se : Bool) : Nat × Nat × Rec := (0, 2, recT se ((List.replicate n [0, 0, 128, 63]).flatten))

theorem sAt_of (op nlist n : Nat) (se : Bool)
    (h : ((jobS op nlist n se).p.loadsOk 0 batchT = true ∧ stTypeOf ((jobS op nlist n se).p.ent 0) = 3 ∧ stOpcode ((jobS op nlist n se).p.ent 0) = op ∧
        (outPorts (jobS op nlist n se).p.arm 0).all (fun port => hasCredit (jobS op nlist n se).p 0 port 1) = true) ∧
      dataOf (jobS op nlist n se) ((stateS op nlist n se).stage kS) 0 = some (frontS n se) ∧
      dataOf (jobS op nlist n se) ((stateS op nlist n se).stage kS) 1 = none ∧
      (unpack (sFmtIn ((jobS op nlist n se).p.ent 0)).width (frontS n se).2.2.payload).length ≤ n) :
    (stateS op nlist n se).sAt kS (jobS op nlist n se) op (frontS n se) :=
  ⟨works_of _ _ _ _ _ _ _ _ _ h.1 rfl rfl, h.2.1, h.2.2.1, Or.inl (by
    have hl : ((stateS op nlist n se).stage kS).s.ids.length = n := List.length_range
    rw [hl]; exact h.2.2.2)⟩

theorem witness_SpecialStagesAct :
    (∀ op ∈ [0x40, 0x41, 0x42, 0x43, 0x44, 0x45, 0x46, 0x48, 0x49, 0x4A], ∀ se,
      (stateS op 1 2 se).sAt kS (jobS op 1 2 se) op (frontS 2 se)) ∧
    ((stateS 0x48 1 32 false).sAt kS (jobS 0x48 1 32 false) 0x48 (frontS 32 false) ∧ (frontS 32 false).2.2.payload.length = 4 * sLb (entS 0x48 1)) ∧
    ((stateS 0x4A 2 2 true).sAt kS (jobS 0x4A 2 2 true) 0x4A (frontS 2 true) ∧ 1 < sNList (entS 0x4A 2) ∧ sNList (entS 0x4A 1) ≤ 1) ∧
    (∀ op ∈ [0x40, 0x41, 0x42, 0x43, 0x44, 0x45, 0x46, 0x48, 0x49, 0x4A], ∀ n ∈ [8, 128], ∀ port, port < 2 →
      (jobS op 1 2 true).roomFor port (List.replicate n 0)) ∧
    (sIdIn1 (entS 0x49 1) = false ∧ (sInputs (entS 0x49 1) (frontS 2 true).2.2.payload).length = 2) := by
  refine ⟨fun op h se => sAt_of _ _ _ _ (by revert op se; decide +kernel), ⟨sAt_of _ _ _ _ (by decide +kernel), by decide +kernel⟩,
    ⟨sAt_of _ _ _ _ (by decide +kernel), by decide +kernel⟩, ?_, by decide +kernel⟩
  unfold Job.roomFor
  decide +kernel

theorem witness_StagesAreCaredFor :
    ({} : Stage).st = .free ∧ ({} : Stage).busyTest = false ∧
    (∃ x : Stage, x.st = .running ∧ x.bind.isSome = true ∧ x.cause = 0) ∧ (∃ x : Stage, x.st = .bound ∧ x.bind.isSome = true ∧ x.cause = 0) ∧
    (∃ x : Stage, x.st = .zeroing ∧ x.bind = none) ∧
    (let p : Pipe := { pipeV .releasing with releaseWait := some (8, 1) };
      let s : State := { rdyAll with pipes := [(0, p)], stages := [(kV, { st := .zeroing, bind := some (0, 0) })], helm := { rdyAll.helm with mailboxes := [(8, { running := some 1 })] } };
      (s.stage kV).st = .zeroing ∧ (s.stage kV).bind = some (0, 0) ∧ p.st = .releasing ∧ p.posts = [] ∧ p.releaseWait = some (8, 1) ∧ (s.mbox 8).running = some 1 ∧
      ∀ q ∈ p.stgs, q ≠ kV → ((s.stage q).bind.map (·.1)) ≠ some 0) ∧
    (∃ x : Stage, x.st = .zeroing ∧ x.bind = some (0, 0) ∧ (pipeV .idle).st ≠ .releasing) ∧
    (∃ x : Stage, x.busyTest = true ∧ x.bind = none) := by
  refine ⟨rfl, rfl, ⟨{ st := .running, bind := some (0, 0) }, rfl, rfl, rfl⟩, ⟨{ st := .bound, bind := some (0, 0) }, rfl, rfl, rfl⟩, ⟨{ st := .zeroing }, rfl, rfl⟩,
    ?_, ⟨{ st := .zeroing, bind := some (0, 0) }, rfl, rfl, by decide⟩, ⟨{ busyTest := true }, rfl, rfl⟩⟩
  repeat' with_reducible apply And.intro
  all_goals decide +kernel

/-! ### Witnesses: pipelines -/

/-- A V-stage with a FEED source of 256-byte records, four to a batch, and a load of 64 bytes for each invocation; `w`: the load's WHEN. -/
def armR (w : Nat) (rep : Nat := 0) : List Byte :=
  armOf [ent 0 1 0 0x20 0 (le 4 0 ++ le 2 1)] [] [pay 16 (le 8 0x100000 ++ [15, 6])] [pay 32 ([0, w, 0, 0] ++ le 4 64 ++ le 4 64 ++ le 4 0 ++ le 8 512 ++ le 8 64)]
    [pay 32 ([0, 0, 0, 0] ++ le 4 0 ++ le 2 0 ++ le 2 256 ++ le 2 2 ++ le 2 0 ++ le 8 0 ++ le 8 1024)] [vi 0x01 0x66 0 0x1000 1 0x8000 0x8000 4 0 0]
    (rep := (rep, 5, 255, 255, 255))
def invR : Inv := { seq := 1, mailbox := 0, nb := 2, bases := [0x1000], repeatMax := 0 }
def srcR : SrcState := { level := 65536 }
def pipeR (w : Nat) : Pipe :=
  { partition := 1, weight := 16, arm := armR w, dieMap := idMap, st := .running, invs := [invR], invNext := 1, sources := [(0, srcR)], loadsDone := [(0, 1)] }
/-- The device with that pipeline, its window opened on four nodes. -/
def withPipe (p : Pipe) (xs : List (Nat × Stage) := []) : State := { rdyAll with
  parts := [(1, { hallTag := 7, stageSet := 2 ^ 360 - 1, window := [(0, { nodeLo := 0, nodeHi := 3, access := 31, base := 0, limit := 0xFFFFFFFF, raw := [] })] })]
  pipes := [(0, p)], stages := xs }

theorem withPipe_pipe (p : Pipe) (xs : List (Nat × Stage)) : (withPipe p xs).pipe? 0 = some p := rfl

def grantL : ChanGrant := { chan := 63, pipe := 0, feed := false, item := (0, 1) }
def grantF : ChanGrant := { chan := 48, pipe := 0, feed := true, item := (0, 1) }
def batR : Batch := { epoch := 0, inv := 1, index := 0, rep := 0 }

theorem witness_AdmissionFeedsAndLoadsAct :
    (0 < armNSource (pipeR 1).arm ∧ (pipeR 1).nextBatch = some (invR, 0, 0) ∧ (pipeR 1).st = .running ∧ (withPipe (pipeR 1)).fab.twin ≠ .standby ∧
      (pipeR 1).batches.length ≤ (pipeR 1).runAhead ∧ invR.admitted = 0 ∧ (∀ i, i < armNSource (pipeR 1).arm → 1 ≤ srcBurst (pipeR 1).arm i) ∧
      (withPipe (pipeR 1)).afterOk (pipeR 1) invR = true ∧ (pipeR 1).loadsFor invR 0 0 = true ∧
      (withPipe (pipeR 1)).heldError (pipeR 1) (pipeR 1).epochNext = none ∧ (pipeR 1).endedAhead = false ∧
      ((withPipe (pipeR 1)).stage ((pipeR 1).stg (srcStage (pipeR 1).arm 0))).outbox = []) ∧
    (let p : Pipe := { pipeR 1 with readmit := [(1, 0, 0)], epochNext := 3 };
      p.readmit = [(1, 0, 0)] ∧ p.inv? 1 = some invR ∧ invR.ending = none ∧ p.batches = [] ∧ p.tokensOk = true ∧ (withPipe p).heldError p 3 = none) ∧
    (let p : Pipe := { pipeR 1 with batches := [batR] }; let s : State := { withPipe p with grants := [(0, [grantF])] };
      srcFeed p.arm 0 = true ∧ p.batches.find? (fun b => !(p.src 0).done.contains b.epoch) = some batR ∧ p.plinth (srcStage p.arm 0) = 0 ∧
      grantF ∈ Tbl.getD s.grants 0 [] ∧ grantF.item = (0, batR.inv) ∧ 65536 ≤ (p.src 0).level ∧ (p.str 256).fifo.length < 64 ∧ p.isHead 0 = true ∧
      (p.src 0).fed + 1 < srcBatchRecs p.arm 0 ∧ Nat.min (srcRecBytes p.arm 0) (srcBatchBytes p.arm 0) = 256 ∧
      p.base batR (srcRegion p.arm 0) + srcOffset p.arm 0 = 0x1000 ∧ s.windowOk 1 0x1000 256 accRead = true) ∧
    (withPipe (pipeR 1)).plainRun 0x1000 256 ∧
    (∀ feed : Bool, let s : State := { withPipe (pipeR 1) with chanQueue := [(b2n (!feed), [{ pipe := 0, feed := feed, items := [(0, 1)] }])] };
      (Tbl.getD s.chanQueue (2 * 0 + b2n (!feed)) []).map (fun r => r.items.length) = [1] ∧
      1 ≤ (if feed then ((s.freeChans 0).filter (fun c => c < 60)).take 1 else (s.freeChans 0).reverse.take 1).length) ∧
    (let p : Pipe := { pipeR 1 with loadsDone := [] }; let s : State := { withPipe p with grants := [(0, [grantL])] };
      s.grantOn 63 = some grantL ∧ ldWhen p.arm 0 ≠ 2 ∧ ldLen p.arm 0 = 64 ∧
      p.base (p.loadBatch (0, 1)) (ldRegion p.arm 0) + ldOffset p.arm 0 + Pipe.loadUnit p.arm 0 (p.loadBatch (0, 1)) * ldStride p.arm 0 = 0x1200 ∧
      p.overUsed (0, 1) (ldLs p.arm 0) 64 = [] ∧ s.windowOk 1 0x1200 64 accRead = true ∧ s.windowOk 1 (2 ^ 42 + 0x1200) 64 accRead = true ∧ s.isLocal (2 ^ 42 + 0x1200) = false ∧
      (s.stage (p.stg (ldStage p.arm 0))).cause = 0) ∧
    (withPipe (pipeR 1)).plainRun 0x1200 64 := by
  refine ⟨?_, ?_, ?_, ?_, ?_, ?_, ?_⟩
  · repeat' with_reducible apply And.intro
    all_goals decide +kernel
  · repeat' with_reducible apply And.intro
    all_goals decide +kernel
  · repeat' with_reducible apply And.intro
    all_goals decide +kernel
  · unfold State.plainRun; decide +kernel
  · decide +kernel
  · repeat' with_reducible apply And.intro
    all_goals decide +kernel
  · unfold State.plainRun; decide +kernel

/-- A pipeline of one stage with these batches and its invocation of two batches. -/
def batN (e i : Nat) (d : Bool) : Batch := { epoch := e, inv := 1, index := i, rep := 0, stagesDone := if d then [0] else [] }
def invN : Inv := { seq := 1, mailbox := 0, nb := 2, bases := [0x1000], repeatMax := 5, admitted := 2 }
def pipeN (bs : List Batch) (st : PipeSt := .running) : Pipe :=
  { partition := 1, weight := 16, arm := armV, dieMap := idMap, st := st, runAhead := 2, epochNext := 3, batches := bs, invs := [invN], invNext := 1 }
def pipeP (v : Inv) : Pipe := { pipeN [{ batN 0 1 true with index := 1 }] with arm := armR 1 1, invs := [v] }
def xsN : List (Nat × Stage) := [(kV, { st := .running, partition := 1, bind := some (0, 0) })]
def heldN : HeldStore := { stage := kV, epoch := 1, pipe := 0, region := 0, addr := 0x1000, data := bytesOf [1, 2, 3, 4], mask := [true, true, true, true] }
def threeN : List Batch := [batN 0 0 true, batN 1 1 false, batN 2 2 false]

theorem witness_BatchesCommitSquashAndEnd :
    (let p := pipeN [batN 0 0 true];
      p.batchDone (batN 0 0 true) = true ∧ armRepeat p.arm = false ∧ p.inv? 1 = some invN ∧ invN.ending = none ∧ (batN 0 0 true).rep = invN.reps) ∧
    (let p := { pipeN threeN with held := [(1, 7)] };
      (∀ hs : List HeldStore, ({ withPipe p xsN with held := [(0, hs)] } : State).gIssued p 1 ∧
        ({ withPipe p xsN with held := [(0, hs)] } : State).heldError p 1 = none) ∧
      p.stgs = [kV] ∧ p.held.find? (fun h => h.1 = 1) = some (1, 7) ∧ ({ withPipe p xsN with held := [(0, [heldN])] } : State).heldOf 0 kV 1 = [heldN] ∧
      (withPipe p xsN).windowOk 1 0x1000 4 accWrite = true ∧ (withPipe p xsN).inFixed 0x1000 4 = false) ∧
    (withPipe (pipeN threeN) xsN).plainRun 0x1000 4 ∧
    ((pipeN threeN).batches.map (fun x => x.epoch)).Nodup ∧
    (let p := { pipeN threeN with invs := [{ invN with ending := some 0 }] }; p.endedAhead = true) ∧
    (let p := { pipeN threeN with errs := [(1, 3)] }; ((withPipe p xsN).heldError p 1).isSome = true) ∧
    (let v := { invN with controlIn := true, control := 7 };
      armRepeat (pipeP v).arm = true ∧ (pipeP v).batches.head? = some (batN 0 1 true) ∧ (pipeP v).batchDone (batN 0 1 true) = true ∧ (pipeP v).inv? 1 = some v ∧ 1 + 1 = v.nb) ∧
    (let v := { invN with done := 2 }; let p := { pipeN [] with invs := [v] };
      p.gateStop = false ∧ p.stopWait = [] ∧ (∀ b ∈ p.batches, b.inv ≠ v.seq) ∧ (!armRepeat p.arm && v.done == v.nb) = true) := by
  refine ⟨?_, ⟨fun hs => ⟨?_, ?_⟩, ?_⟩, ?_, ?_, ?_, ?_, ?_, ?_⟩
  · repeat' with_reducible apply And.intro
    all_goals decide +kernel
  · have h : (withPipe ({ pipeN threeN with held := [(1, 7)] }) xsN).gIssued { pipeN threeN with held := [(1, 7)] } 1 := by
      unfold State.gIssued; decide +kernel
    exact h
  · have h : (withPipe ({ pipeN threeN with held := [(1, 7)] }) xsN).heldError { pipeN threeN with held := [(1, 7)] } 1 = none := by decide +kernel
    exact h
  · repeat' with_reducible apply And.intro
    all_goals decide +kernel
  · unfold State.plainRun; decide +kernel
  all_goals decide +kernel

theorem witness_GapsOpenAndCloseAndDrainsRunOut :
    (let p := { pipeN [] with gap := .marked, gapPassed := [0] }; p.gap = .marked ∧ p.batches = [] ∧ ∀ i ∈ p.idxs, i ∈ p.gapPassed) ∧
    (let p := { pipeN [] with gap := .opened, gapReleased := [0, 1, 2, 3, 4, 5, 6] }; p.gap = .opened ∧
      (List.range 8).all (fun b => (7 :: p.gapReleased).contains b || ((withPipe p).die (16 + b)).life != .up) = true ∧ ((withPipe p).beacon 7).gapSights = [] ∧
      (∃ x ∈ ((withPipe p).setBeacon 7 { gapSights := [(0, 0)] } |>.beacon 7).gapSights, x.2 = 0)) ∧
    (let p := { pipeN threeN with gateStop := true };
      ({ withPipe p xsN with power := { (withPipe p xsN).power with gating := [(stDie kV, stDomain kV)] } } : State).gateBusy p = true ∧
        p.st = .running ∧ p.stopWait = [] ∧ (withPipe p xsN).openWrites p = [] ∧
        (withPipe p [(kV, { v := { stores := [(0, 0)] } })]).openWrites p ≠ []) := by
  refine ⟨⟨rfl, rfl, by decide +kernel⟩, ⟨rfl, by decide +kernel⟩, by decide +kernel, rfl, rfl, by decide +kernel, by decide +kernel⟩

/-- 04: R144. A stop that comes after the last BATCH_END has left every stage leaves the invocation OK; one that comes earlier does not. -/
theorem test_drain_marks_unfinished :
    ((pipeN [batN 1 1 true]).drain (0, 9)).invs.map (fun v => v.stopped) = [false] ∧
      ((pipeN [batN 1 1 false]).drain (0, 9)).invs.map (fun v => v.stopped) = [true] := by decide +kernel

/-! ### Witnesses: memory -/

/-- Errors in one symbol, and in two. -/
def err1 : ErrPattern := { errors := [(3, 5)] }
def err2 : ErrPattern := { errors := [(3, 5), (9, 70)] }

theorem witness_BlocksAreReadStoredAndScrubbed :
    (rdyMem.die (12 + homePlinth 0)).life = .up ∧ rdyMem.verdict 0 {} = .clean ∧ rdyMem.verdict 0 err1 = .corrected 0 ∧ rdyMem.verdict 256 {} = .poisoned ∧
    rdyMem.verdict 0 err2 = .uncorrectable ∧ err2.index = none ∧ rdyMem.verdict (rdyMem.scrubAddr 5 7 0) {} = .clean ∧
    rdyMem.verdict (rdyMem.scrubAddr 5 7 0) err2 = .uncorrectable ∧ rdyMem.verdict (rdyMem.scrubAddr 5 7 0) err1 = .corrected 0 ∧
    rdyMem.unitHolds 0 = false ∧ ({ rdyMem with atomicUnits := [(0, [0])] } : State).unitHolds 0 = true ∧
    rdyMem.busyAt 0 0 = false ∧ rdyMem.busyAt (rdyMem.scrubAddr 5 7 0) 3 = false ∧
    (rdyMem.setStack 0 { repairing := [(0, 2, 9)] }).busyAt 0 2 = true ∧ (rdyMem.setStack 0 { repairing := [(0, 2, 9)] }).busyAt 0 1 = false ∧
    atomicSize 0x01 = some 4 ∧ atomicOk 0 0x01 (bytesOf [1, 0, 0, 0]) = true := by
  repeat' with_reducible apply And.intro
  all_goals decide +kernel

/-- 06: R181: one wrong symbol is put right from its syndromes. -/
theorem test_corrected_symbol : (rdyMem.delivered 0 err1).take 8 = (Store.readN rdyMem.mem 0 256).take 8 := by decide +kernel

/-- A re-lay of these plinths, its command waiting. -/
def relayOf (ps : List Nat) : Relay := { waiter := some (0, 1), plinths := ps, newKey := [1, 2], cast := {}, v := 0 }
def rdyRelay (ps : List Nat) : State := { rdy with
  upd := { rdy.upd with relay := some (relayOf ps) }
  helm := { rdy.helm with mailboxes := [(0, { running := some 1 })] } }
/-- A window of the hot-spot monitor of plinth 1 with these bytes. -/
def rdySkew (b : Nat) (m : SkewMon) : State := { rdy with skew := [(1, { m with bytes := [(0, b), (1, b)] })] }

/-- SKEW_MIN_LOAD at 0: windows without bytes count. -/
def minLoad0 : State := { rdy with nor := { rdy.nor with cast := rdy.nor.cast.put 0x00010003 0 } }

theorem witness_StacksAreRepairedAndWatched :
    rdy.norRange = true ∧ rdy.noneWait ∧ ({ rdy with dies := [(12, { tj := -10 })] } : State).norRange = false ∧
    ({ repairing := [(1, 2, 5)] } : Stack).repairing = [(1, 2, 5)] ∧ ({ exhaustedBanks := [(1, 2)] } : Stack).exhaustedBanks.contains (1, 2) = true ∧
    rdy.verdict (rdy.scrubAddr 3 1 9) err2 = .uncorrectable ∧ rdy.verdict (rdy.scrubAddr 3 1 9) err1 = .corrected 0 ∧ (rdy.stack 3).bandDue = none ∧
    (rdySkew (2 ^ 40) {}).relaying 1 = false ∧
    (2 * 2 ^ 40 ≥ rdy.setting 0x00010003 * 102400000 ∧ 0 < 2 * 2 ^ 40 ∧ rdy.setting 0x00010002 * (2 * 2 ^ 40) ≤ 2 ^ 40 * 256 * 16) ∧
    (rdySkew 0 {}).relaying 1 = false ∧ 0 < rdy.setting 0x00010003 ∧ minLoad0.relaying 1 = false ∧ minLoad0.setting 0x00010003 = 0 ∧
    (∃ m : SkewMon, m.armed = false) ∧ rdy.setting 0x00010004 ≠ 0 ∧
    (rdy.stack 3).power = .active ∧ ({ power := .powerDown } : Stack).power = .powerDown ∧
    ((rdy.setStack 3 { power := .selfRefresh }).stack 3).power = .selfRefresh ∧ (rdy.stack 3).power ≠ .selfRefresh ∧ rdy.boot.dev ≠ .failureStop ∧
    ((rdyRelay [1, 2]).upd.relay = some (relayOf [1, 2]) ∧ (rdyRelay [1, 2]).noneWait ∧
      (∀ i, i < 32 → ((rdyRelay [1, 2]).tx (2 * 1 + i / 16) (i % 16)).spilled = 0) ∧ ((rdyRelay [1]).mbox 0).running = some 1) := by
  repeat' with_reducible apply And.intro
  all_goals first | decide +kernel | exact ⟨{ armed := false }, rfl⟩ | exact ⟨rfl, rfl, rfl, rfl, rfl⟩ | rfl

/-! ### Witnesses: links and hubs -/

/-- A flit: FTYPE and FSEQ, AK and ACK_SEQ, payload, CRC. -/
def flitOf (h a : Nat) (p : List Byte) : List Byte :=
  let b := leBytes 2 h ++ leBytes 2 a ++ padTo 120 p
  b ++ leBytes 4 (crc32c b)
/-- A control message without data, to unit 0 of die 12, as it stands on the wire. -/
def pktW : List Byte := leBytes 8 (9 + unitId 12 0 * 2 ^ 35) ++ leBytes 8 5
/-- Link end 96, of plinth 0 to compute die 0, and its other end. -/
def rdyLink (e : LinkEnd) : State := { rdy with links := [(96, e), (0, e)] }
def upEnd : LinkEnd := { st := .up, unacked := [{ fseq := 3, ftype := 1 }, { fseq := 4, ftype := 1 }], rxSeq := 7, txSeq := 5, ackDue := 1 }

theorem witness_LinkFlitsAreTakenAndReplayed :
    (((rdyLink upEnd).link 96).st = .up ∧ ((rdyLink upEnd).link 96).early = [] ∧ (0 < max 1 (linkBundles 96) ∧ 0 = upEnd.rxCount % max 1 (linkBundles 96)) ∧
      (5 < max 1 (linkBundles 96) ∧ 5 ≠ upEnd.rxCount % max 1 (linkBundles 96))) ∧ 96 ∈ linkEnds ∧ (flitOf 0x1008 0 pktW).length = 128 ∧
    (let f := (flitOf 0x1008 0 pktW).set 5 1; f.length = 128 ∧ field f 0x7C 4 ≠ crc32c (f.take 0x7C)) ∧
    (let f := flitOf 0 0x1003 []; field f 0x7C 4 = crc32c (f.take 0x7C) ∧ field f 0 2 / 4096 = 0 ∧ bits 13 12 (field f 2 2) = 1) ∧
    (let f := flitOf 0 0x2003 []; field f 0x7C 4 = crc32c (f.take 0x7C) ∧ field f 0 2 / 4096 = 0 ∧ bits 13 12 (field f 2 2) = 2 ∧
      upEnd.unacked.filter (fun x => !flitUpTo x.fseq (field f 2 2 % 4096)) ≠ []) ∧
    (let f := flitOf 0x1008 0 pktW; field f 0x7C 4 = crc32c (f.take 0x7C) ∧ field f 0 2 / 4096 = 1 ∧ bits 13 12 (field f 2 2) = 0 ∧
      field f 0 2 % 4096 = (upEnd.rxSeq + 1) % 4096 ∧
      splitPkts 16 (upEnd.partialIn ++ slice f 4 120) =
        ([{ typ := 9, tc := 0, partition := 0, src := 0, dst := unitId 12 0, specific := 5 }], []) ∧
      pktOk 9 0 = true ∧ ((rdyLink upEnd).die (unitId 12 0 / 128)).life = .up) ∧
    (let f := flitOf 0x1006 0 pktW; field f 0x7C 4 = crc32c (f.take 0x7C) ∧ field f 0 2 % 4096 ≠ (upEnd.rxSeq + 1) % 4096 ∧
      flitUpTo (field f 0 2 % 4096) upEnd.rxSeq = true) ∧
    (upEnd.ackDue ≠ 0 ∧ ∀ c, c < 6 → Tbl.getD upEnd.owed c 0 = 0) ∧
    (let e := { upEnd with owed := [(2, 40)] }; (∃ c, c < 6 ∧ Tbl.getD e.owed c 0 ≠ 0) ∧ e.unacked.length < 2047) ∧
    upEnd.unacked ≠ [] := by
  repeat' with_reducible apply And.intro
  all_goals first | decide +kernel | exact ⟨2, by decide, by decide⟩

def retrainEnd : LinkEnd := { upEnd with st := .retraining }

theorem witness_LinksRetrainAndFail :
    96 ∈ linkEnds ∧ ((rdyLink upEnd).link 96).st = .up ∧ plinthLink 99 = true ∧ 99 ∈ linkEnds ∧ (rdyLink upEnd).boot.dev ≠ .failureStop ∧
    plinthLink 96 = false ∧ ((rdyLink upEnd).die (linkDie 96)).life = .up ∧ ((rdyLink retrainEnd).link 96).st = .retraining ∧
    (bit 8 0x100 = true ∧ ((rdyLink retrainEnd).link 96).unacked.length < 2046 ∧ ((rdyLink retrainEnd).link 96).retrainRefs.length < 4 ∧ ((rdyLink retrainEnd).link 96).replayRefs.length < 16 ∧
      ((rdyLink retrainEnd).link (linkPeer 96)).replayRefs.length < 16) ∧
    bit 8 0x0FF = false ∧ flitUpTo (6 % 4096) ((rdyLink upEnd).link 96).rxSeq = true ∧ flitUpTo (9 % 4096) ((rdyLink upEnd).link 96).rxSeq = false ∧
    3 < linkBundles 96 ∧ 3 ∉ ((rdyLink upEnd).link 96).asleep ∧ bit 9 ({ upEnd with profile := 0x300 } : LinkEnd).profile = true ∧ bit 9 upEnd.profile = false := by
  repeat' with_reducible apply And.intro
  all_goals decide +kernel

/-- A V-stage with a store under way, and the answer to it. -/
def stState (st : Nat) : State :=
  doneState (withPipe { pipeN [] with batches := [{ batN 0 0 true with stores := 1 }] } [(kV, { st := .running, partition := 1, bind := some (0, 0), v := { stores := [(5, 0)] } })])
    { typ := 6, tc := 2, partition := 1, src := hubUnit 0, dst := stId kV, tag := 5, specific := st }

theorem witness_PacketsReachTheirUnits :
    (kV < 360 ∧ stType kV ≠ 2 ∧ ((stState 0).stage kV).g.reqs = [] ∧ ((stState 0).stage kV).v.stores.find? (fun x => x.1 = 5) = some (5, 0) ∧
      ((stState 0).stage kV).bind = some (0, 0) ∧ (pipeN [{ batN 0 0 true with stores := 1 }]).batch? 0 = some { batN 0 0 true with stores := 1 } ∧
      ((stState 0).findPkt (fun x => x.typ = 6 && x.dst = stId kV && x.tag = 5 && x.specific = 0 && x.payload == [])).map (fun r => (stState 0).crosses (queuePlace r.1) r.2) = some true) ∧
    ((pipeN []).st ≠ .failed ∧ (pipeN []).st ≠ .releasing ∧ ((stState 3).stage kV).cause = 0 ∧ (pipeN []).stopWait = [] ∧
      ((stState 3).findPkt (fun x => x.typ = 6 && x.dst = stId kV && x.tag = 5 && x.specific = 3 && x.payload == [])).map (fun r => (stState 3).crosses (queuePlace r.1) r.2) = some true) ∧
    (rdy.die (unitId 12 0 / 128)).life = .up ∧ (rdy.die (unitId 0 0 / 128)).life = .up ∧ fenceable (unitId 0 0 / 128) = true ∧
    (let s := { stState 0 with links := [] }; (s.findPkt (fun x => x.typ = 6 && x.tag = 5)).map (fun r => s.crosses (queuePlace r.1) r.2) = some false) ∧
    (let q : UnitReq := { src := unitId 0 6, partition := 1, tag := 3, addr := 0 }; rdy.unitUp q.src = true ∧ q.src ≠ exsarUnit ∧ rdy.hubQ = [] ∧
      fenceable (q.src / 128) = true) ∧
    eventInfo 0x7777 = none ∧ (eventInfo 0x0032).isSome = true := by
  repeat' with_reducible apply And.intro
  all_goals decide +kernel

/-! ### Witnesses: memory requests -/

/-- A READY device of node 0 with PT1, windows on four nodes and one usable word to node 1; `ls`: lines of plinth 0's cache. -/
def rdyFab (ls : List CacheLine) : State := { withPipe (pipeN []) with
  fab := { rdy.fab with node := some 0, hallSize := 4, nodeTable := [(1, [2 ^ 60])] }
  txEnds := [(0, { st := .up, hall := true })], caches := [(0, { lines := ls })]
  mem := Store.writeN {} 0x1000 (bytesOf (List.range 32))
  tags := [(0, { members := [(0, 3)], member := true, waypoint := some 5 }),
    (7, { members := [(0, 3)], member := true, waypoint := some 9, regions := [{ node := 0, base := 0x20000, length := 0x10000, st := .inEffect }] })] }
def reqU (a : Nat) : UnitReq := { src := unitId 0 6, partition := 1, tag := 3, addr := a }
/-- Block 16 of node 1 in the cache, leased under waypoint 9. -/
def lineF : CacheLine := { hallTag := 7, block := (2 ^ 42 + 0x1000) / 256, st := .leased 9, data := bytesOf (List.range 256), age := 1 }

theorem reqU_from (ls : List CacheLine) (a : Nat) : (rdyFab ls).fromUnit (reqU a) := by
  refine ⟨?_, by show unitId 0 6 ≠ exsarUnit; decide, fun x h => nomatch h⟩
  rfl

theorem witness_UnitRequestsAreServed :
    ((∀ ls a, (rdyFab ls).fromUnit (reqU a)) ∧ (rdyFab []).windowOk 1 0x1000 16 accRead = true ∧ (rdyFab []).plainRun 0x1000 16 ∧
      (rdyFab []).windowOk 1 (9 * 2 ^ 42) 16 accRead = false ∧ (rdyFab []).windowOk 1 0x10F8 16 accRead = true ∧ 256 < 0x10F8 % 256 + 16) ∧
    ((rdyFab [lineF]).windowOk 1 (2 ^ 42 + 0x1000) 16 accRead = true ∧ (rdyFab [lineF]).isLocal (2 ^ 42 + 0x1000) = false ∧
      (rdyFab [lineF]).fab.node ≠ none ∧ (rdyFab [lineF]).tagOfPart 1 = 7 ∧ (rdyFab [lineF]).waypointOf 7 = some 9 ∧
      ((rdyFab [lineF]).cache 0).lines.find? (fun l => l.hits 7 ((2 ^ 42 + 0x1000) / 256) (some 9)) = some lineF) ∧
    (((rdyFab []).cache 0).lines.find? (fun l => l.hits 7 ((2 ^ 42 + 0x1000) / 256) (some 9)) = none ∧
      (rdyFab []).sameBlock 0 (2 ^ 42 + 0x1000) = [] ∧ (rdyFab []).chooseRoute 0 (nodeOf (2 ^ 42 + 0x1000)) ((2 ^ 42 + 0x1000) / 256) = some (2 ^ 60)) ∧
    ((rdyFab []).windowOk 1 0x1000 4 accWrite = true ∧ (rdyFab []).inFixed 0x1000 4 = false ∧ (rdyFab []).windowOk 1 0x20000 4 accWrite = true ∧
      (rdyFab []).inFixed 0x20000 4 = true) ∧
    ((rdyFab []).windowOk 1 0x1000 1 accRead = true ∧ (rdyFab []).isLocal 0x1000 = true ∧ (rdyFab []).memBusy (localOf 0x1000) = false) ∧
    (∀ n ∈ [4, 8, 16], (rdyFab []).plainRun 0x1000 n ∧ (rdyFab []).windowOk 1 0x1000 n accAtomic = true ∧ (rdyFab []).inFixed 0x1000 n = false) ∧
    (rdyFab []).windowOk 1 0x1000 1 accAtomic = true ∧
    ((rdyFab []).windowOk 0 (3 * 2 ^ 40) 16 accRead = true ∧ (rdyFab []).plainRun (3 * 2 ^ 40) 16 ∧ homePlinth (localOf (3 * 2 ^ 40)) = 3 ∧
      plinthOf ((reqU 0).src / 128) = 0) := by
  refine ⟨⟨reqU_from, ?_⟩, ?_, ?_, ?_, ?_, ?_, ?_, ?_⟩
  all_goals first | decide +kernel | (unfold State.plainRun; decide +kernel)

/-- A request of node 1 to this package, and the block the package exports to its tag; `w`: its twin state. -/
def reqF (a arg : Nat) (twin : Bool := false) : FabReq := { srcNode := 1, hallTag := 7, srcUnit := 5, reqId := 77, addr := a, arg := arg, twin := twin }
def rdyHome (w : TwinSt) (ready : Bool := true) : State := { rdyFab [] with
  fab := { (rdyFab []).fab with twin := w }
  boot := if ready then rdy.boot else { rdy.boot with dev := .starting } }
/-- WR of two words at offset 8 of the block. -/
def wrBytes : List Byte := leBytes 4 6 ++ bytesOf (List.range 16)

theorem witness_OtherPackagesAreServed :
    ((rdyHome .none).atHome (reqF 0x1000 15) ∧ (rdyHome .none).homeStop (reqF 0x1000 15) 16 accRead (decide (0x1000 % 256 + 16 ≤ 256)) = none ∧
      (rdyHome .none).isPoison 0x1000 = false) ∧
    (rdyHome .none false).isReady = false ∧ ((rdyHome .standby).isReady = true ∧ (rdyHome .standby).fab.twin = .standby) ∧
    ((rdyHome .none).isReady = true ∧ (rdyHome .none).fab.twin ≠ .standby ∧
      (rdyHome .none).exportOk ((rdyHome .none).partOfTag 9) 0x1000 16 accRead = false) ∧
    ((wrPayload 0x1000 wrBytes).isSome = true ∧ (rdyHome .none).homeStop (reqF 0x1000 0) 256 accWrite true = none ∧
      (rdyHome .none).mirrors (localOf 0x1000) 256 = false) ∧
    (atomicSize 1 = some 4 ∧ atomicOk 0x1000 1 (bytesOf [1, 0, 0, 0]) = true ∧ (rdyHome .none).homeStop (reqF 0x1000 1) 4 accAtomic true = none) ∧
    (rdyHome .none).homeStop (reqF 0x1000 0) 1 accRead true = none ∧ (rdyHome .standby).memBusy (localOf 0x1000) = false ∧
    ({ rdyRelay [0] with fab := { rdy.fab with twin := .standby } } : State).memBusy (localOf 0x1000) = true := by
  repeat' with_reducible apply And.intro
  all_goals first | decide +kernel | rfl

/-- A read of node 1's block 16 on its way, its tag leased under waypoint 9; `st`: a store has left since. -/
def outR (stale twin : Bool) : OutReq :=
  { plinth := 0, unit := unitId 0 6, tag := 3, reqId := 77, partition := 1, hallTag := 7, kind := .rd, addr := 2 ^ 42 + 0x1000, len := 16
    waypoint := some 9, stale := stale, twin := twin, orig := 5, data := bytesOf [1, 2, 3, 4] }
def rdyOut (r : OutReq) : State := { rdyFab [lineF, { lineF with block := 7, st := .leased 8 }] with
  fab := { (rdyFab []).fab with outstanding := [r], closedIds := [(78, 0)] } }

theorem witness_CompletionsFillAndTimeOut :
    (∀ stale, (rdyOut (outR stale false)).fab.outstanding.find? (fun x => x.reqId == 77 && !x.twin) = some (outR stale false) ∧
      (outR stale false).kind = .rd ∧ (rdyOut (outR stale false)).noneWait ∧ unitId 0 6 ≠ exsarUnit ∧ (outR stale false).fromNode = none ∧
      ((rdyOut (outR stale false)).die (unitId 0 6 / 128)).life = .up ∧ (outR stale false).waypoint = some 9 ∧
      (rdyOut (outR stale false)).waypointOf 7 = some 9) ∧
    ((∀ x ∈ (rdyOut (outR false false)).fab.outstanding, x.reqId ≠ 78) ∧
      (rdyOut (outR false false)).fab.closedIds.find? (fun x => x.1 == 78) = some (78, 0)) ∧
    ((outR false true).kind ≠ .hint ∧ (rdyOut (outR false true)).fab.outstanding.find? (fun x => x.reqId == 77 && x.twin) = some (outR false true)) ∧
    (let y : Resync := { rateCap := 0, todo := [(5, [])] };
      let s : State := { rdy with fab := { rdy.fab with twin := .resync, resync := some y } };
      s.fab.resync = some y ∧ y.done = false ∧ y.failed = false ∧ s.fab.twin = .resync ∧ ∀ t ∈ y.todo, t.2 = [] ∧ (s.chan t.1).st = .idle) := by
  refine ⟨fun st => ⟨?_, ?_, ⟨rfl, rfl, rfl, rfl, rfl⟩, ?_, ?_, ?_, ?_, ?_⟩, ?_, ?_, ?_⟩
  · cases st <;> decide +kernel
  · cases st <;> rfl
  · decide
  · cases st <;> rfl
  · cases st <;> decide +kernel
  · cases st <;> rfl
  · cases st <;> decide +kernel
  all_goals decide +kernel

/-! ### Witnesses: advances, regions and collectives -/

/-- Tag 7 of nodes 0 to 3 in this advance; its command waits in mailbox 8. -/
def tagA (a : Advance) : TagSt := { members := [(0, 3)], member := true, waypoint := some 9, advance := some a }
def advA : Advance := { target := 10, root := 0, waiter := some (8, 1) }
/-- The device with this tag and these cache lines. -/
def rdyAdv (g : TagSt) (t0 : TagSt := { members := [(0, 3)], member := true, waypoint := some 5 }) : State := { rdyFab [lineF] with
  tags := [(0, t0), (7, g)]
  helm := { rdy.helm with mailboxes := [(8, { running := some 1 })] } }
def storeOut : OutReq := { outR false false with kind := .wr, waypoint := none }

theorem witness_AdvancesArriveCommitAndAbort :
    (((rdyAdv (tagA advA)).tagSt 7).advance = some advA ∧ advA.entered = true ∧ (rdyAdv (tagA advA)).storesDone 7 = true ∧
      ({ rdyAdv { tagA advA with entry := 1 } with fab := { (rdyAdv (tagA advA)).fab with outstanding := [storeOut] } } : State).storesDone 7 = false ∧
      ((rdyAdv (tagA advA)).tagSt 7).member = true ∧ 1 ∉ advA.arrivals) ∧
    (((rdyAdv { tagA advA with advance := none }).tagSt 7).advance = none ∧ 1 ∉ ((rdyAdv { tagA advA with advance := none }).tagSt 7).early) ∧
    (({ advA with arrived := true } : Advance).target = 10 ∧ ((rdyAdv (tagA { advA with arrived := true })).tagSt 7).regionOp = none ∧
      (rdyAdv (tagA { advA with arrived := true })).awaits (8, 1)) ∧
    (let t0 : TagSt := { members := [(0, 3)], member := true, waypoint := some 5, advance := some { advA with target := 6, arrived := true } };
      let s := rdyAdv { tagA advA with advance := none } t0;
      (s.tagSt 0).advance = some { advA with target := 6, arrived := true } ∧ s.upd.castArm = none ∧ s.upd.updArm = none ∧ s.fab.twinArm = none ∧
        (Tbl.keys s.tags).Nodup) ∧
    ((rdyAdv (tagA { advA with root := 3 })).ownNode ≠ 3 ∧ (rdyAdv (tagA advA)).ownNode = 0) ∧
    ((rdyAdv { tagA advA with advance := none }).waypointHeld 7 = some 9) ∧
    (let s : State := { rdyAdv (tagA advA) with fab := { (rdyFab []).fab with
        arrived := [{ ftype := 9, tc := 0, srcNode := 2, dstNode := 0, hallTag := 7, opcode := opReportRequest, payload := [1] }] } };
      (s.tagSt 7).advance ≠ none ∧ s.outcomeAsked 7 2 = true ∧ s.outcomeAsked 7 3 = false ∧ s.waypointHeld 7 = some 9) ∧
    (let s : State := { rdyAdv { tagA advA with advance := none } with fab := { (rdyFab []).fab with
        arrived := [{ ftype := 9, tc := 0, srcNode := 2, dstNode := 0, hallTag := 7, opcode := opAbort, payload := abortBytes [3] 2 }] } };
      s.abortRoot 7 = 2 ∧ 2 ≠ s.ownNode ∧ (s.tagSt 0).advance = none) ∧
    (∃ g : TagSt, g.asking = true ∧ g.advance = none) := by
  refine ⟨?_, ?_, ⟨rfl, rfl, rfl⟩, ?_, ?_, ?_, ?_, ?_, ⟨{ asking := true }, rfl, rfl⟩⟩
  all_goals decide +kernel

/-- An armed region of node 0, and an operation on it. -/
def regA (st : RegionSt) : Region := { node := 1, base := 0, length := 0x10000, st := st }
def tagG (st : RegionSt) (o : Option RegionOp) (hi : Nat := 3) : TagSt :=
  { members := [(0, hi)], member := true, waypoint := some 9, regions := [regA st], regionOp := o }
def opR (unfix : Bool) (acked : List Nat) : RegionOp := { unfix := unfix, phase := 1, node := 1, base := 0, length := 0x10000, acked := acked, waiter := (8, 1) }
/-- An ALL-GATHER of four bytes over nodes 0 and 1, from 0x1000 to 0x2000. -/
def collG (phase step : Nat) (items : List (Nat × List Byte)) : Coll :=
  { id := 9, slot := 0, op := 6, dtype := 0, redop := 1, hallTag := 7, root := 0, src := 0x1000, dst := 0x2000, count := 4
    phases := [(2, 0, 255), (2, 1, 255)], dims := [2, 1, 1], phase := phase, step := step, items := items, partition := 1, mailbox := 0 }
def rdyColl (c : Coll) : State := { rdyAdv (tagG .armed none 1) with fab := { (rdyFab []).fab with colls := [c] } }

/-- Two members on one line sum two numbers: the ring's one exchange gives each the part meant for it, the second ring both parts. -/
theorem test_ring_all_reduce :
    let c : Coll := { collG 1 0 [] with op := 4, dtype := 6, redop := 0, count := 512, phases := [(1, 0, 255), (2, 0, 255)] };
    c.message 2 0 1 = [1] ∧ c.message 2 1 0 = [0] ∧ c.keyLen 2 1 = 256 ∧ c.holds 2 1 0 0 = true ∧ c.holds 2 1 0 1 = false ∧
      ({ c with phase := 2 } : Coll).message 2 0 1 = [0] ∧ (c.outKeys 2 0) = [0, 1] := by
  decide +kernel

theorem witness_RegionsAndCollectivesRun :
    (((rdyAdv (tagG .unfixing none)).tagSt 7).member = true ∧ (∀ r ∈ (tagG .unfixing none).regions, r.same 1 0 0x10000 = true → r.st = .unfixing) ∧
      (rdyAdv (tagG .armed none)).ownNode ≠ 2 ∧ (∃ r ∈ (tagG .armed none).regions, r.same 1 0 0x10000 = true ∧ r.st ≠ .unfixing)) ∧
    ((opR false []).phase = 1 ∧ (rdyAdv (tagG .armed (some (opR false [])))).awaits (opR false []).waiter ∧
      (∃ n ∈ (tagG .armed (some (opR false []))).nodes, n ∉ [1]) ∧ (∀ n ∈ (tagG .armed (some (opR false [0, 1, 2]))).nodes, n ∈ [0, 1, 2, 3]) ∧
      (opR true [0, 1, 2]).unfix = true ∧ ∃ n ∈ (tagG .armed (some (opR true [0, 1, 2]))).nodes, n ≠ (rdyAdv (tagG .armed none)).ownNode) ∧
    ((rdyColl (collG 1 0 [])).coll? 9 = some (collG 1 0 []) ∧ 1 ≠ (rdyColl (collG 1 0 [])).collMe (collG 1 0 []) ∧
      1 < ((rdyColl (collG 1 0 [])).collNodes (collG 1 0 [])).length ∧ (collG 1 0 []).step < (collG 1 0 []).steps ∧
      (collG 1 1 []).steps ≤ (collG 1 1 []).step) ∧
    (0 < (collG 1 1 []).phase ∧ (collG 1 1 []).phase < (collG 1 1 []).phases.length ∧ (collG 0 0 []).phase = 0 ∧
      (rdyColl (collG 0 0 [])).windowOk 1 0x1000 4 accRead = true ∧ (rdyColl (collG 0 0 [])).runBusy (localOf 0x1000) 4 = false ∧
      (∀ b ∈ blocksOf (localOf 0x1000) 4, (rdyColl (collG 0 0 [])).isPoison (256 * b) = false) ∧
      (∃ b ∈ blocksOf (localOf 0x1000) 4, ({ rdyColl (collG 0 0 []) with poison := [16] } : State).isPoison (256 * b) = true)) ∧
    (let c := collG 2 0 [(0, bytesOf [1, 2, 3, 4]), (1, bytesOf [5, 6, 7, 8])]; let s := rdyColl c;
      c.phases.length ≤ c.phase ∧ c.steps ≤ c.step ∧ c.stored = false ∧ s.fab.twin = .none ∧ s.collStores c = false ∧
      (c.result (s.collNodes c).length (s.collMe c)).take (c.outLen (s.collNodes c).length (s.collMe c)) = bytesOf [1, 2, 3, 4, 5, 6, 7, 8] ∧
      s.windowOk 1 0x2000 8 accWrite = true ∧ s.inFixed 0x2000 8 = false ∧ s.runBusy (localOf 0x2000) 8 = false ∧ localOf 0x2000 % 256 + 8 ≤ 256) := by
  refine ⟨?_, ⟨rfl, rfl, ?_⟩, ?_, ?_, ?_⟩
  all_goals decide +kernel

/-! ### Witnesses: beacons -/

/-- Beacon 7 with this ring and lane at the last receive line; `e`: the rest of it. -/
def kR : Nat := lineKey 1 15 17
def rdyRing (r : Ring) (l : Lane := { st := .active }) (e : Beacon := {}) : State :=
  rdyBcn { e with built := true, rings := [(kR, r)], lanes := [(kR, l)] }
def ringL : Ring := { st := .locked, peak := 1000 }

theorem witness_RingLoopsAndMatricesAct :
    ((rdyRing ringL).beaconOn 7 = true ∧ ((rdyRing ringL).beacon 7).frozen = false ∧ kR < 576 ∧ ((rdyRing ringL).ring 7 kR).retired = false) ∧
    (ringL.st = .locked ∧ 0 < ringL.peak ∧ ringL.peak ≤ 5 * 900 ∧ 900 ≤ ringL.peak ∧ ringL.rampSteps = 0 ∧ ¬(ringL.peak ≤ 5 * 100) ∧ ringL.steps < 9) ∧
    (({ ringL with steps := 9 } : Ring).attempts < 2 ∧ ({ ringL with st := .sweeping } : Ring).steps < 42 ∧ kR ∉ ((rdyRing { ringL with st := .sweeping }).beacon 7).sights) ∧
    ((rdyRing ringL {} { frozen := true }).beacon 7).frozen = true ∧ ((rdyRing ringL).beacon 7).matrices = [] ∧ (rdyRing ringL).beaconActs 7 = true ∧
    (rdyRing ringL).bankSweeps 7 31 = false ∧ (rdyRing { ringL with st := .sweeping }).bankSweeps 7 31 = true ∧
    ((rdyRing ringL {} { matrices := [(31, { fitting := true })] }).matrix 7 31).fitting = true ∧ (List.replicate 324 5).length = 324 := by
  repeat' with_reducible apply And.intro
  all_goals decide +kernel

/-- A gap notice held opens every window. -/
def rdySight (e : Beacon) (w : Option Waiter := none) : State :=
  let s := rdyRing { ringL with st := if e.sights = [] then .locked else .sweeping } { st := .active, clean := 32 } { e with notices := [(0, 300, 0)] }
  { s with helm := { s.helm with mailboxes := [(0, { running := w.map (·.2) })] } }

theorem witness_SightsAreTaken :
    ((rdySight {}).beaconActs 7 = true ∧ kR < 576 ∧ (rdySight {}).sightable 7 kR = true ∧ ((rdySight {}).beacon 7).sights.length < (rdySight {}).setting 0x00030003 ∧
      ∀ j, j < 576 → (rdySight {}).sightable 7 j = true → ((rdySight {}).ring 7 kR).lastSight ≤ ((rdySight {}).ring 7 j).lastSight) ∧
    (rdySight { sights := List.range 16 }).setting 0x00030003 ≤ ((rdySight { sights := List.range 16 }).beacon 7).sights.length ∧
    (kR ∈ ((rdySight { sights := [kR] }).beacon 7).sights ∧ kR ∉ ((rdySight { sights := [kR] }).beacon 7).spoiled) ∧
    kR ∈ ((rdySight { sights := [kR], spoiled := [kR] }).beacon 7).spoiled ∧
    (((rdySight { sights := [kR], laneWaits := [(kR, (0, 1))] } (some (0, 1))).beacon 7).laneWaits.find? (fun x => x.1 == kR) = some (kR, (0, 1)) ∧
      (rdySight { sights := [kR], laneWaits := [(kR, (0, 1))] } (some (0, 1))).awaits (0, 1)) ∧
    (((rdyRing ringL { st := .active, degraded := true }).lane 7 kR).degraded = true ∧ kR ∉ ((rdyRing ringL { st := .active, degraded := true }).beacon 7).sights ∧
      ∀ x ∈ ((rdyRing ringL { st := .active, degraded := true }).beacon 7).sights, linePort x ≠ linePort kR) ∧
    (let p : Pipe := { pipeN [] with gap := .opened }; p.gap = .opened ∧ 7 ∉ p.gapReleased) ∧ 3 ∉ ((rdyRing ringL).beacon 7).idlePorts := by
  refine ⟨?_, ?_, ?_, ?_, ⟨?_, rfl⟩, ?_, ?_, ?_⟩
  all_goals decide +kernel

/-- The check symbols of a word make every power of α below 15 a root of it (09: R279). -/
theorem test_code_word_has_roots :
    let w := [1, 7] ++ rsChecks [1, 7];
    w.length = 17 ∧ (List.range 15).all (fun j => w.foldl (fun acc x => Nat.xor (gfTimes acc (gfAlpha j)) x) 0 == 0) = true := by
  decide +kernel

/-- Five flits fill four blocks, and a lost block takes the flits it carried a part of (10: R315). -/
theorem test_flits_fill_blocks :
    groupFlits ((groupBlocks ((List.range 5).map (fun i => List.replicate 256 (BitVec.ofNat 8 i)))).map some) =
        (List.range 5).map (fun i => List.replicate 256 (BitVec.ofNat 8 i)) ∧
      (groupFlits [none, some (List.replicate 320 1), some (List.replicate 320 2), none]).length = 1 := by
  decide +kernel

/-- Blocks go round the active lanes; the first of a codeword with MARK every 64 codewords (09: R279, R282). -/
theorem test_blocks_go_round :
    let s := (rdyBcn { built := true }).setLanes 7 2 0 [(0, 0), (1, 3), (2, 5)];
    let t := (List.range 4).foldl (fun (a : State) i => a.putBlock 7 2 [BitVec.ofNat 8 i]) s;
    ((t.tx 7 2).words.filter (fun w => !headerFill w.header)).map (fun w => (w.line, w.place, headerMark w.header)) =
        [(0, 0, true), (3, 0, true), (5, 0, true), (0, 1, false)] ∧ (t.tx 7 2).block = 4 := by
  decide +kernel

theorem witness_LanesAndModulesAreWatched :
    (let s := (rdyBcn { built := true }).setTx 7 2 { rota := [0, 3, 5], block := 1 }; (s.tx 7 2).block ≠ 0 ∧ 0 < (s.tx 7 2).rota.length) ∧
    (lineSide kR = 1 ∧ ((rdyRing ringL).lane 7 kR).st = .active ∧ ((rdyRing ringL).lane 7 kR).degraded = false ∧ ((rdyRing ringL).lane 7 kR).fails = [] ∧
      ringL.attempts < 2) ∧
    (berAbove 0 0 4 = false ∧ berAbove 1000 400 4 = true ∧ berAbove 1000 272 4 = false ∧
      ({ nearWords := 1000, nearErrs := 2721 } : Lane).failed = true ∧ ({ nearLost := 17 } : Lane).failed = true ∧ ({ nearLost := 16 } : Lane).failed = false) ∧
    (let k := lineKey 1 2 3;
      let s := (rdyBcn { built := true, lanes := [(k, { st := .active, frameLock := true, mark := some 5 })] }).setRx 7 2
        { rota := List.range 16, place := 5 };
      (s.lane 7 k).mark = some 5 ∧ (s.rx 7 (linePort k)).rota = List.range 16 ∧ k % 18 < 15 ∧ (s.rx 7 (linePort k)).place ≠ 0 ∧
      parity 10 (0x003 % 1024) = 0 ∧ 0x003 % 32 = lineIdx k ∧ headerMark 0x003 = false ∧ headerFill 0x003 = false ∧
      (s.lane 7 (lineKey 1 (linePort k) 15)).inq = [] ∧ ∀ i, i < 18 → (s.lane 7 (lineKey 1 (linePort k) i)).inq.length ≤ 2) ∧
    (let s := rdyRing ringL { st := .active, fails := [0, 0] }; (s.lane 7 kR).fails.length = 2 ∧
      (∀ x ∈ (s.lane 7 kR).fails, subMod 64 (s.now (16 + 7)) x < 10 * 156250000) ∧ (s.beacon 7).frozen = false) ∧
    (5 ≤ 7 ∧ 7 < 8 ∧ 0x11 % 32 = lineIdx kR ∧ 0x12 % 32 ≠ lineIdx kR) ∧
    (({ st := .withdrawn, clean := 31 } : Lane).clean = 31 ∧ ({ st := .active, wrong := 3 } : Lane).wrong = 3 ∧ ringL.mislocks = []) ∧
    (((rdyRing ringL).ring 7 3).st = .locked ∧ ((rdyRing ringL).ring 7 3).retired = false ∧ ((rdyRing ringL).ring 7 3).mislocks = [] ∧ ((rdyRing ringL).ring 7 3).attempts < 2) ∧
    (((rdyBcn { built := true, repointTo := some 3, quiesce := [2] }).beacon 7).repointTo = some 3 ∧ (rdyBcn { built := true }).beaconActs 7 = true ∧
      ((rdyBcn { built := true }).tx 7 2).unacked = []) ∧
    (rdyBcn { built := true }).noneWait ∧ ((rdyBcn { built := true }).tx 7 2).st = .down ∧ (∃ x : TxEnd, x.st ≠ .down) ∧
    ((rdyBcn { built := true }).beacon 7).laserFault = false := by
  refine ⟨?_, ?_, ?_, ?_, ?_, ?_, ?_, ?_, ?_, ⟨rfl, rfl, rfl, rfl, rfl⟩, ?_, ⟨{ st := .up }, by decide⟩, ?_⟩
  all_goals decide +kernel

/-! ### Witnesses: the fabric link layer -/

/-- A packet for node 0 whose route is used up, and the DATA flit that carries it from port 2 of beacon 3 of node 1 in session 9. -/
def unitF : FabUnit := { route := 2 ^ 60 + 2 ^ 56, pkt := { ftype := 5, tc := 2, srcNode := 1, dstNode := 0, hallTag := 7, reqId := 77, payload := bytesOf [1, 2, 3, 4] } }
def fabFlitOf (fseq : Nat) : List Byte :=
  let b := leBytes 4 (fseq + 2 ^ 20) ++ leBytes 4 0 ++ leBytes 4 (1 + 3 * 2 ^ 14 + 2 * 2 ^ 17 + 9 * 2 ^ 21) ++ padTo 240 unitF.bytes
  b ++ leBytes 4 (crc32c b)
def chanF : ChanId := { node := 1, beacon := 3, port := 2, session := 9 }
/-- Port 5 of beacon 7 with these ends. -/
def rdyPort (x : TxEnd) (y : RxEnd) : State := { rdyFab [] with
  txEnds := [(16 * 7 + 5, x)], rxEnds := [(16 * 7 + 5, y)], beacons := [(7, { built := true, idlePorts := [5] })] }
def rxF : RxEnd := { st := .up, ident := some chanF, expect := 4 }
def txF : TxEnd := { st := .up, session := 3, unacked := [{ fseq := 1, ftype := 1 }, { fseq := 2, ftype := 1 }] }

theorem witness_FabricFlitsAndAcknowledgementsAct :
    (((rdyPort txF rxF).die (16 + 7)).life = .up ∧ ((rdyPort txF rxF).rx 7 5).st = .up ∧ (fabFlitOf 4).length = 256 ∧ ((rdyPort txF rxF).rx 7 5).ident = some chanF) ∧
    (let f := fabFlitOf 4; crc32c (f.take 252) = field f 252 4 ∧ bits 23 20 (field f 0 4) = 1 ∧ bits 21 20 (field f 4 4) = 0 ∧
      rxF.ident = some { node := bits 13 0 (field f 8 4), beacon := bits 16 14 (field f 8 4), port := bits 20 17 (field f 8 4), session := bits 28 21 (field f 8 4) } ∧
      field f 0 4 % 2 ^ 20 = rxF.expect ∧ splitUnits 60 (rxF.partialIn ++ slice f 12 240) = ([unitF], []) ∧ nhopsOf unitF.route ≤ nextOf unitF.route ∧
      (rdyPort txF rxF).fab.node = some unitF.pkt.dstNode ∧ unitF.pkt.ftype < 16) ∧
    (let f := (fabFlitOf 4).set 20 9; f.length = 256 ∧ crc32c (f.take 252) ≠ field f 252 4) ∧
    (let f := fabFlitOf 3; field f 0 4 % 2 ^ 20 ≠ rxF.expect ∧ serialNewer 20 rxF.expect (field f 0 4 % 2 ^ 20) = true) ∧
    ((rdyPort txF rxF).tx 7 5).session = 3 ∧ ((rdyPort txF rxF).tx 7 5).waiting = [] ∧ (∀ x ∈ (rdyPort txF rxF).rxEnds, x.2.pool = []) ∧
    (0 < ackedCount 1 txF.unacked ∧ txF.hall = false ∧ ackedCount 1 txF.unacked < txF.unacked.length) ∧ (rdyPort txF rxF).noneWait ∧
    (({ st := .bringup, echoes := List.replicate 7 5, granted := [(0, 1)] } : TxEnd).echoes.length = 7) := by
  refine ⟨?_, ?_, ?_, ?_, rfl, rfl, ?_, ?_, ⟨rfl, rfl, rfl, rfl, rfl⟩, rfl⟩
  all_goals decide +kernel

/-- Flits that spill, one more than stay on chip. -/
def txSpill : TxEnd := { txF with share := 32768, unacked := List.replicate 6145 { fseq := 1, ftype := 1 } }

theorem witness_ChannelsComeUpAndGoDown :
    (((rdyPort {} {}).tx 7 5).st = .down ∧ (rdyPort {} {}).canBring 7 5 0 = true ∧ (rdyPort {} {}).lit 7 5 = true ∧ ((rdyPort {} {}).rx 7 5).st = .down ∧
      (rdyPort {} {}).canBring 7 5 1 = true) ∧
    (({ st := .bringup } : RxEnd).st ≠ .down ∧ rxF.hall = false ∧ rxF.ident = some chanF ∧ ({ st := .bringup } : RxEnd).ident ≠ some chanF) ∧
    (txF.unacked ≠ [] ∧ txF.expiries < 7 ∧ 7 ≤ ({ txF with expiries := 7 } : TxEnd).expiries) ∧
    (0 < min (min 5 ((rdyPort txSpill rxF).replayCap 7 5 - 6144 - txSpill.spilled)) (txSpill.unacked.length - txSpill.spilled - 6144)) ∧
    (min (min 5 ((rdyPort txF rxF).replayCap 7 5 - 6144 - txF.spilled)) (txF.unacked.length - txF.spilled - 6144) = 0) ∧
    (({ rxF with pool := [unitF] } : RxEnd).pool = [unitF]) ∧ (rdyPort txF rxF).noneWait := by
  refine ⟨?_, ?_, ?_, ?_, ?_, rfl, ⟨rfl, rfl, rfl, rfl, rfl⟩⟩
  · decide +kernel
  · decide +kernel
  · decide +kernel
  · have h : txSpill.unacked.length = 6145 := List.length_replicate
    rw [h]
    decide +kernel
  · decide +kernel

/-! ### Witnesses: tender descriptors -/

/-- A descriptor: CTRL, the bytes at 4, LEN, SRC, DST, NEXT, BURST. -/
def descT (ctrl len src dst next burst : Nat) : List Byte :=
  leBytes 4 ctrl ++ leBytes 4 0 ++ leBytes 8 len ++ leBytes 8 src ++ leBytes 8 dst ++ leBytes 8 next ++ leBytes 8 0 ++ leBytes 4 burst ++ leBytes 12 0
/-- A pattern into the store of stage V0 of die 0. -/
def lsDst : Nat := 2 ^ 38 + 0x40
def descPat : List Byte := descT (3 * 2 ^ 16 + 2 ^ 20) 128 0xAB lsDst 0 0
def descBad : List Byte := descT (3 * 2 ^ 16 + 2 ^ 20) 0 0xAB lsDst 0 0
/-- A request line's bytes, paced on line 18 or not, to memory. -/
def descReq (paced : Bool) : List Byte := descT (2 * 2 ^ 16 + (if paced then 2 ^ 8 + 18 * 2 ^ 9 else 0)) 4096 18 0x1000 0 64
/-- Memory to memory. -/
def descMem : List Byte := descT 0 4096 0x1000 0x8000 0 0
/-- A READY device with channel 5 of plinth 0, owned by PT1, in this state. -/
def rdyCh (c : Chan) (lines : Tbl (List Nat) := []) : State := { rdyFab [] with
  chans := [(5, { c with owner := 1 })], tenders := [(0, { lines := lines })]
  parts := [(1, { pt1 with stageSet := 2 ^ 360 - 1 })] }
def chT (d : List Byte) : Chan := { st := .running, inlineCur := true, slots := [(0, d)] }
/-- The same channel at work on the descriptor, with this many reads outstanding. -/
def chW (d : List Byte) (n : Nat := 0) : Chan := { chT d with desc := d, reads := List.replicate n { tag := 3, off := 0, len := 256, addr := 0x1000 } }

theorem witness_DescriptorsAreTakenAndServed :
    ((rdyCh (chT descPat)).restOf 0 5 ∧ ((rdyCh (chT descPat)).chan 5).desc = [] ∧ ((rdyCh (chT descPat)).chan 5).st = .running) ∧
    (rdyCh (chT descBad)).malformed 0 1 descBad = true ∧
    ((rdyCh (chT (descReq true))).malformed 0 1 (descReq true) = false ∧ dLine (descReq true) = some 18) ∧
    ({ chT descPat with inlineCur := false, curDesc := 4 } : Chan).curDesc % 64 ≠ 0 ∧
    (let s := rdyCh (chT descPat); let d := descPat; s.malformed 0 1 d = false ∧ dSrcSpace d = 3 ∧ dDstSpace d = 1 ∧ dLine d = none ∧ dExtra d = 0 ∧
      lsOffset (dDst d) % 256 + dLen d ≤ 256 ∧ 1 ≤ (chT d).weight ∧ 256 ≤ s.setting 0x00040001 ∧ s.slotsUsed 0 < 4096 ∧
      (s.die (lsDie (dDst d))).life = .up) ∧
    ((rdyCh {}).chan 5).st = .idle ∧
    (let s := rdyCh (chW (descReq true) 256) [(18, [5])]; let c := s.chan 5; Tbl.getD (s.tender 0).lines 18 [] = [5] ∧ s.restOf 0 5 ∧
      c.moves = true ∧ c.st = .running ∧ s.setting 0x00040001 < c.holds + 256 ∧ c.sendable = 0 ∧ dSrcSpace c.desc = 2 ∧
      s.setting 0x00040001 ≤ c.holds) ∧
    (let s := rdyCh (chW (descReq false) 255) [(18, [5])]; let c := s.chan 5; let data := bytesOf [1]
      let m := min (min (min (if dPaced c.desc then dBurst c.desc else data.length) data.length) (dLen c.desc - c.issued - c.credit))
        (s.setting 0x00040001 - c.holds)
      let c' := ({ c with issued := c.issued + m } : Chan).takeIn c.issued (data.take m)
      Tbl.getD (s.tender 0).lines 18 [] = [5] ∧ s.restOf 0 5 ∧ c.moves = true ∧ c.st = .running ∧ dSrcSpace c.desc = 2 ∧ 0 < m ∧
      s.setting 0x00040001 < c'.holds + 256 ∧ c'.sendable = 0) ∧
    Tbl.getD ((rdyCh (chW descPat)).tender 0).lines 18 [] = [] := by
  unfold State.restOf
  repeat' with_reducible apply And.intro
  all_goals decide +kernel

/-- A completion for the tender of plinth 0. -/
def tDone (status : Nat) (data : List Byte) : HubPkt := completionPkt (hubUnit 0) 0 (tenderUnit 0) 3 status data
def rdyDone (c : Chan) (status : Nat) (data : List Byte) : State := doneState (rdyCh c) (tDone status data)
def fullT (d : List Byte) : Chan := { chW d 1 with issued := 4096 }
def storedT (off : Nat) (d : List Byte) : Chan := { chW d with issued := 4096, written := 256, stores := [{ tag := 3, off := off, len := 256, addr := 0x8000 }] }
def endedT (d : List Byte) (e : Option Nat) (ab : Bool) : Chan := { chW d with issued := 4096, written := 4096, err := e, aborting := ab }

theorem witness_DescriptorsMoveAndEnd :
    (((rdyDone (fullT descMem) 7 []).takeDone (tenderUnit 0) 3 7 []).isSome = true ∧ (rdyDone (fullT descMem) 7 []).restOf 0 5 ∧
      ((fullT descMem).reads.find? (fun r => r.tag = 3)).isSome = true ∧ (fullT descMem).err = none) ∧
    (let c := fullT descMem; let data := List.replicate 256 (9 : Byte)
      ((rdyDone c 0 data).takeDone (tenderUnit 0) 3 0 data).isSome = true ∧ c.issued = dLen c.desc ∧
      ({ c with reads := [] }.takeIn 128 (slice data 0 256)).sendable = 0) ∧
    (∀ off ∈ [256, 512], ((rdyDone (storedT off descMem) 0 []).takeDone (tenderUnit 0) 3 0 []).isSome = true ∧ (rdyDone (storedT off descMem) 0 []).restOf 0 5 ∧
      ((storedT off descMem).stores.find? (fun r => r.tag = 3)).isSome = true ∧ dSrcSpace descMem ≠ 4 ∧ (storedT off descMem).issued = dLen descMem ∧
      (storedT off descMem).sendable = 0 ∧ (storedT off descMem).doneRuns = [] ∧ (storedT off descMem).err = none ∧
      ((storedT off descMem).written = off ∨ (storedT off descMem).written < off)) ∧
    ((rdyDone (storedT 256 descMem) 4 []).takeDone (tenderUnit 0) 3 4 []).isSome = true ∧
    ((endedT descMem none false).endsAs = some 1 ∧ (endedT descMem (some 7) false).endsAs = some 2 ∧ (endedT descMem none true).endsAs = some 4 ∧
      ({ endedT descMem none false with nocrc := true } : Chan).endsAs = some 5 ∧ dNextKind descMem = 0 ∧ (rdyCh (endedT descMem none false)).restOf 0 5 ∧
      (rdyCh (endedT descMem none false)).fab.resync = none ∧ (endedT descMem none false).waiters = [] ∧ (chT descMem).endsAs = none) ∧
    (({ chW descMem with st := .pausing } : Chan).stands = true ∧ (chW descMem).stands = false) ∧
    (({ chW descMem with st := .pausing, pausePwr := true } : Chan).desc ≠ [] ∧ ({ chT descMem with curDesc := 4 } : Chan).desc = [] ∧ (chW descMem).pausePwr = false) := by
  simp only [State.restOf]
  repeat' with_reducible apply And.intro
  all_goals decide +kernel

/-! ### Witnesses: temperature, power and the gates -/

/-- A READY device with this die record. -/
def rdyDie (d : Nat) (x : Die) : State := { rdy with dies := [(d, x)], rails := [(d, { setpoint := 650 })], power := { budget := 1200, measured := 900 } }
def warmDie : Die := { tj := 300, rise := [300, 280, 260, 250] }
/-- Five readings a degree apart, the hottest over THROTTLE_START. -/
def reads5 : List Int := [380, 384, 388, 392, 396]

theorem witness_TemperatureIsWatched :
    (let s := rdyDie 3 warmDie; let rs := reads5.take (sensorCount 3); s.watches = true ∧ (s.die 3).life = .up ∧ (s.die 3).excluded = [] ∧ rs ≠ [] ∧
      (∀ v ∈ rs, -160 ≤ v ∧ v ≤ 600 ∧ farOff (median2 rs) v = false) ∧ s.boot.gap = false ∧ s.boot.dev ≠ .failureStop) ∧
    (({ rdy with boot := { rdy.boot with gap := true } } : State).boot.gap = true ∧ ({ rdy with boot := { rdy.boot with gap := true } } : State).watches = true) ∧
    (State.reset.watches = false) ∧
    (let s := rdyDie 3 { warmDie with rise := [300, 290, 280, 260, 250] }; s.detects = true ∧ (s.die 3).rise[4]? = some 250 ∧ (s.die 3).tripped = false ∧
      2 * s.setting 0x00050003 ≤ 4 * ((400 : Int) - 250)) ∧
    (let s := rdyDie 3 { warmDie with rise := [300, 290, 280, 260, 250], tripped := true }; s.detects = true ∧ (s.die 3).rise[4]? = some 250 ∧ (s.die 3).tripped = true ∧
      4 * ((250 : Int) - 250) < 2 * s.setting 0x00050003) ∧
    ((rdyDie 3 warmDie).die 3).rise.length < 5 ∧
    (rdy.pins.shutdownLatch = false ∧ rdy.pins.aux = true ∧ rdy.pins.mainRails = true ∧ rdy.pins.resetN = true ∧ rdy.isReady = true ∧ rdy.boot.exsarGone = false ∧ (460 : Int) ≤ 460 ∧ (459 : Int) < 460) := by
  repeat' with_reducible apply And.intro
  all_goals decide +kernel

def lowDie : Die := { fThermal := 6400, thermLow := true, powLow := 501, budget := some 100, fPower := 6400 }
def reports2 : List (Nat × Nat × Nat × Nat) := [(0, 90, 200, 40), (11, 80, 300, 40), (12, 50, 0, 0), (23, 60, 0, 0)]

theorem witness_PowerIsShared :
    (rdy.isReady = true ∧ rdy.detects = true ∧ rdy.boot.gap = false ∧ ((rdyDie 11 lowDie).die 11).life = .up ∧ ((rdyDie 11 lowDie).die 11).thermLow = true ∧
      550 < (Tbl.getD (rdyDie 11 lowDie).rails 11 {}).setpoint) ∧
    (let x := (rdyDie 0 {}).die 0; ¬ (x.thermLow = true ∨ 500 < x.powLow) ∧ x.warm = false ∧ x.heavy = false ∧
      (Tbl.getD (rdyDie 0 {}).rails 0 {}).setpoint < (rdyDie 0 {}).setting 0x00050004) ∧
    (let x := (rdyDie 0 { warm := true }).die 0; ¬ (x.thermLow = true ∨ 500 < x.powLow) ∧ x.warm = true) ∧
    ((reports2.map (fun r => r.1)).Nodup ∧ ∀ r ∈ reports2, r.1 < 24 → ((rdyDie 0 {}).die r.1).life = .up) ∧
    (let x := (rdyDie 0 { starved := true }).die 0; x.starved = true ∨ x.currentHold = true) ∧
    (let x := (rdyDie 0 { budget := some 100 }).die 0; x.starved = false ∧ x.currentHold = false ∧ x.budget = some 100 ∧
      let b := min (1000 * 100) (min 440000 (629 * (Tbl.getD (rdyDie 0 { budget := some 100 }).rails 0 {}).setpoint))
      b < 1000 * 101 ∧ 100000 * 94 < 95 * b ∧ 95 * b ≤ 100000 * 95 ∧ 1000 * 95 ≤ b) ∧
    (rdy.watches = true ∧ rdy.detects = true ∧ 630000 < 630001 ∧ 599999 < 600000) := by
  repeat' with_reducible apply And.intro
  all_goals decide +kernel

/-- A READY device that must shed, whose pipeline 0 on stage V0 of die 0 is in this state, a channel at work on its store. -/
def rdyShed (st : PipeSt) : State := { withPipe { pipeN [] st with powerIdle := st == .suspended } with
  chans := [(5, chW descPat)], power := { budget := 100, measured := 900 }
  dies := (List.range 12).map (fun d => (d, { fPower := 3200 })), rails := (List.range 12).map (fun d => (d, { setpoint := 550 })) }
/-- The domain of that stage gated. -/
def rdyGated : State := { rdyShed .suspended with
  chans := [], power := { shed := [(0, stDomain kV)] }, dies := [(0, { gated := 2 ^ stDomain kV })] }
def rdyFuse (t : Int) : State := { rdyDie 12 { tj := t } with
  nor := { rdy.nor with fuses := { rdy.nor.fuses with rollbackMin := 1, heldRollback := some 3, heldRevoke := true } } }

theorem witness_DomainsAndFusesAct :
    (rdy.isReady = true ∧ rdy.boot.gap = false ∧ rdy.gateable 11 11 = true ∧ rdy.setting 0x00050005 ≠ 0 ∧ rdy.domainChans 11 11 = [] ∧
      ∀ k ∈ domainStages 11 11, (rdy.stage k).st = .free ∧ (rdy.stage k).bind = none ∧ (rdy.stage k).busyTest = false) ∧
    (let s := { rdy with chans := [(5, chW descPat)] }; s.gateable 0 (stDomain kV) = true ∧ (chW descPat).st = .running ∧
      ∀ k ∈ domainStages 0 (stDomain kV), (s.stage k).st = .free ∧ (s.stage k).bind = none ∧ (s.stage k).busyTest = false) ∧
    (∃ k ∈ domainStages 0 (stDomain kV), (({ rdy with stages := [(kV, { st := .bound })] } : State).stage k).st ≠ .free) ∧
    (∀ st ∈ [PipeSt.idle, .running, .draining], (rdyShed st).isReady = true ∧ (rdyShed st).boot.gap = false ∧ (rdyShed st).mustShed = true ∧
      (rdyShed st).shedOrder.find? (fun g => (rdyShed st).gateable g.1 g.2) = some (0, stDomain kV) ∧
      ((rdyShed st).pipe? 0).map (fun p => p.inDomain 0 (stDomain kV)) = some true ∧ descInDomain (chW descPat).desc 0 (stDomain kV) = true) ∧
    rdy.mustShed = false ∧
    (rdyGated.isReady = true ∧ rdyGated.boot.gap = false ∧ rdyGated.mayWake 0 (stDomain kV) = true ∧ rdyGated.power.paused = [] ∧ stDomain kV < 12 ∧
      (rdyGated.pipe? 0).map (fun p => p.st == .suspended && p.powerIdle) = some true) ∧
    rdy.mayWake 0 (stDomain kV) = false ∧
    ((rdyFuse 80).fuseRange = true ∧ (rdyFuse 79).fuseRange = false ∧ (rdyFuse 80).isReady = true ∧ (rdyFuse 80).boot.gap = false) := by
  repeat' with_reducible apply And.intro
  all_goals decide +kernel

/-! ### Witnesses: failures, fences and service packets -/

/-- A READY device with a channel at work, one mailbox running a command and another running a memory command. -/
def helmBusy : Helm :=
  let boxes : Tbl Mailbox := [(0, { running := some 9, runCode := 0x0020 }), (1, { running := some 4, runCode := 0x0028 })]
  { rdy.helm with mailboxes := boxes, memOps := [(1, { seq := 4, code := 0x0028, body := [] })] }
def rdyBusy (b : Boot) : State :=
  let tx : Tbl TxEnd := [(0, { st := .up })]
  { withPipe (pipeN []) xsN with boot := b, chans := [(5, chW descPat)], txEnds := tx, helm := helmBusy }
def bootG : Boot := { rdy.boot with gap := true, coreA := .held, coreB := .active, activeB := true }

theorem witness_FailuresStopOrChangeOver :
    ((rdyBusy rdy.boot).isReady = true ∧ (State.reset.isReady = false) ∧ ((rdyBusy rdy.boot).mbox sbKey).events < 64) ∧
    ((rdyBusy rdy.boot).coresRun = true ∧ rdy.boot.standbyOk = true ∧ (rdyBusy rdy.boot).upd.staging = none ∧ rdy.boot.core (!rdy.boot.activeB) = .standby) ∧
    (let b : Boot := { rdy.boot with coreB := .out }; (rdyBusy b).coresRun = true ∧ b.standbyOk = false ∧ (rdyBusy b).isReady = true) ∧
    ((rdyBusy bootG).boot.gap = true ∧ Tbl.has (rdyBusy bootG).helm.mailboxes 0 = true ∧ ((rdyBusy bootG).mbox 0).running = some 9 ∧
      Tbl.get? (rdyBusy bootG).helm.memOps 0 = none ∧ Tbl.has (rdyBusy bootG).helm.mailboxes 1 = true ∧ ((rdyBusy bootG).mbox 1).running = some 4 ∧
      (Tbl.get? (rdyBusy bootG).helm.memOps 1).isSome = true) ∧
    (let s : State := { State.reset with
        startIn := { railsUp := true, lateSubs := [(11, 3)] }
        boot := { phase := 8, coreA := .held, coreB := .active, activeB := true, gap := true } };
      s.boot.gap = true ∧ s.boot.dev = .starting ∧ 6 ≤ s.boot.phase ∧ badLane s.startIn = none ∧ s.startIn.badWord = none ∧ s.startIn.lateSubs ≠ [] ∧
        ∀ l ∈ s.startIn.lateSubs, 0 < l.2 ∧ (s.die l.1).life ≠ .retired) ∧
    (let s : State := { State.reset with boot := { phase := 8, coreA := .active, coreB := .standby, restarted := true } };
      s.coresRun = true ∧ s.boot.standbyOk = true ∧ s.boot.dev = .starting ∧ s.boot.phase ≠ 0) ∧
    rdy.boot.dev ≠ .starting ∧
    (let b : Boot := { bootG with gap := false }; b.exsarGone = false ∧ b.core (!b.activeB) = .held) ∧
    (rdy.boot.core (!rdy.boot.activeB) ≠ .held ∧ rdy.coresRun = true ∧ (rdy.boot.core true = .active ∨ rdy.boot.core true = .standby)) := by
  repeat' with_reducible apply And.intro
  all_goals decide +kernel

/-- The same device with this record of die `d`. -/
def rdyLife (d : Nat) (x : Die) : State := { rdyBusy rdy.boot with dies := [(d, x)] }
def fencedDie (n : Nat) : Die := { life := .fenced, attempts := n, fences := [5] }
/-- A register of PD0's rail 0. -/
def svcGood : Nat := svcAddr 12 9 0

theorem witness_DiesFenceReadmitAndAnswer :
    (∀ d ∈ [0, 11, 16, 23], (rdyLife d {}).detects = true ∧ fenceable d = true ∧ ((rdyLife d {}).die d).life = .up ∧
      ((({} : Die).fences.filter (fun r => decide (subMod 64 (rdyLife d {}).now0 r < 3600 * 156250000))).length < 3) ∧
      3 ≤ ([0, 0, 0].filter (fun r => decide (subMod 64 (rdyLife d {}).now0 r < 3600 * 156250000))).length) ∧
    (descTouches (chW descPat).desc 0 = true ∧ ((rdyLife 0 {}).pipe? 0).map (fun p => p.stgs.any (fun k => stDie k == 0) && p.loadWait.isNone &&
      p.st != .releasing && p.st != .failed) = some true) ∧
    (fenceable 12 = false ∧ State.reset.detects = false ∧ (rdyLife 0 {}).switching 0 = false ∧ ((rdyLife 0 { life := .retired }).die 0).life = .retired) ∧
    (∀ d ∈ [0, 23], ∀ n ∈ [1, 2], fenceable d = true ∧ ((rdyLife d (fencedDie n)).die d).life = .fenced ∧ (rdyLife d (fencedDie n)).boot.gap = false ∧
      (rdyLife d (fencedDie n)).detects = true ∧ ((rdyLife d (fencedDie n)).die d).resetWait = none ∧ ((rdyLife d (fencedDie n)).die d).attempts = n) ∧
    ((rdyLife 0 (fencedDie 0)).stage 29).bind = none ∧
    ((rdyBusy rdy.boot).detects = true ∧ ((rdyBusy rdy.boot).die (unitId 0 6 / 128)).life = .up ∧ (∀ x ∈ (rdyBusy rdy.boot).hubOut, x.typ ≠ 0xA ∧ x.typ ≠ 0xB) ∧
      svcReaches exsarUnit svcGood = true ∧ svcReaches (unitId 0 6) svcGood = false ∧ svcGood % 8 = 0 ∧
      (match (rdyBusy rdy.boot).svcPlace svcGood 8 with | .inr _ => true | .inl _ => false) = true ∧
      (match (rdyBusy rdy.boot).svcPlace (svcAddr 12 0x1F 0) 8 with | .inl (.ok _) => false | .inl _ => true | .inr _ => false) = true ∧
      svcReaches exsarUnit (svcAddr 12 0x1F 0) = true) := by
  repeat' with_reducible apply And.intro
  all_goals decide +kernel

/-- 14: R447: a changeover during step 6 runs the start from step 6 again. -/
theorem test_changeover_restarts_a_start :
    leaves (exec (.coreFailover 120) { State.reset with
      stages := [(3, { st := .zeroing })], startIn := { railsUp := false }
      boot := { phase := 6, coreA := .held, coreB := .active, activeB := true, gap := true } })
      (fun t => !t.boot.gap && t.boot.phase == 6 && t.boot.restarted && t.stages == [] && t.boot.dev == .starting) = true := by
  decide +kernel

/-- A failure stop drops a collective under way, and with it what its DST held (16: R481, R494). -/
theorem test_failure_stop_drops_work :
    (let c : Coll := { id := 9, slot := 0, op := 2, dtype := 0, redop := 0, hallTag := 0, root := 0, src := 0, dst := 0, count := 4, phases := []
                       partition := 0, mailbox := 0 };
      leaves (exec (.failureStop 0x15 true) { rdy with fab := { rdy.fab with colls := [c] } })
        (fun t => t.fab.colls.isEmpty && t.free == rdy.free + 1 && t.boot.dev == .failureStop)) = true := by decide +kernel

/-! ### Witnesses: every command, and the invariants -/

theorem witness_CommandsWaitForReady :
    (∀ mb ∈ [0, sbKey], let s := cmd (starting 9) mb 1 hd (pay 4 [0, 0])
      s.helmOn = true ∧ s.isReady = false ∧ s.partExists (mbPartition mb) = true ∧ (s.mbox mb).running = none ∧
        (s.mbox mb).queue = [{ seq := 1, body := hd ++ pay 4 [0, 0] }]) ∧
    hd.length = 4 ∧ (∃ x ∈ readyRows, x.2.2 = none) ∧
    (∃ x ∈ readyRows, x.2.2 = some (1, 0) ∧ 1 < (pay 4 [0, 0]).length ∧ field (pay 4 [0, 0]) 1 1 = 0) ∧
    (0 < (pay 1 [0]).length ∧ field (pay 1 [0]) 0 1 = 0) := by
  refine ⟨by decide +kernel, by decide +kernel, ⟨(.windowSet, 0x0014, none), by simp [readyRows], rfl⟩,
    ⟨(.pipelineStopDrain, 0x0022, some (1, 0)), by simp [readyRows], rfl, by decide +kernel, by decide +kernel⟩, by decide +kernel⟩

/-- An address of PD0 in a block that nothing decodes, and one past the last instance of a block that something does. -/
def noBlock : Nat := svcAddr 12 0x10 8
def noRail : Nat := svcAddr 12 9 (0x20 * 20)

theorem witness_UndecodedAddressesAreUnmapped :
    (∀ a ∈ [noBlock, noRail], a < 2 ^ 32 ∧ placeOf a = none ∧ ¬ (addrDie a = 12 ∧ addrBlock a = 0x1F) ∧ accessOk a 4 = true ∧ accessOk a 8 = true ∧ a % 4 = 0 ∧
      field (pSvc a 4) 0 4 = a ∧ accessOk a (field (pSvc a 4) 4 1) = true) ∧
    ((pSvc noBlock 4).length = 8 ∧ (pay 16 (le 4 noBlock ++ [8])).length = 16 ∧ field (pay 16 (le 4 noBlock ++ [8])) 0 4 = noBlock ∧
      accessOk noBlock (field (pay 16 (le 4 noBlock ++ [8])) 4 1) = true) ∧
    ((cmd rdySvc 0 1 hd (pSvc noBlock 4)).serves0 0 1 hd (pSvc noBlock 4) ∧ rdySvc.serviceOpen (0, 1) = true) ∧
    (rdy.detects = true ∧ (rdy.die (unitId 0 6 / 128)).life = .up ∧ (∀ x ∈ rdy.hubOut, x.typ ≠ 0xA ∧ x.typ ≠ 0xB) ∧
      ∀ data ∈ [List.replicate 4 (7 : Byte), List.replicate 8 7], accessOk noBlock data.length = true) := by
  refine ⟨by decide +kernel, by decide +kernel, ⟨serves0_of _ _ _ _ _ (by decide +kernel) rfl, by decide +kernel⟩, by decide +kernel⟩

theorem witness_FailedReadmissionsRetireTheDie :
    (∀ d ∈ [0, 11, 16, 23], ∀ n ∈ [1, 2], fenceable d = true ∧ (rdyLife d (fencedDie n)).detects = true ∧ (rdyLife d (fencedDie n)).boot.gap = false ∧
      ((rdyLife d (fencedDie n)).die d).life = .fenced ∧ ((rdyLife d (fencedDie n)).die d).attempts = n) ∧
    (let s := rdyLife 23 { fences := [0, 0, 0, 7] }; s.detects = true ∧ (s.die 23).life = .up ∧ (s.die 23).fences = 0 :: 0 :: 0 :: [7] ∧
      ∀ r ∈ [0, 0, 0], subMod 64 s.now0 r < 3600 * 156250000) ∧
    ((rdyLife 0 { life := .retired }).die 0).life = .retired := by
  decide +kernel

def rdyPart : State := { rdyBusy rdy.boot with parts := [(1, pt1)] }

theorem witness_MailboxesQueueRefuseAndReport :
    ((rdyBusy rdy.boot).helmOn = true ∧ (rdyBusy rdy.boot).partExists (mbPartition 0) = true ∧ ((rdyBusy rdy.boot).mbox 0).running.isSome = true ∧
      (rdy.mbox 0).running = none ∧ (rdy.mbox 0).queue.head? ≠ some { seq := 3, body := hd }) ∧
    ((cmd rdyPart 8 1 hd []).serves 8 1 hd [] ∧ mbPartition 8 ≠ 0 ∧ (∃ x ∈ readyRows, ownerCodes.contains x.2.1 = false ∧ x.2.2 = none)) ∧
    (hd.length = 4 ∧ rdy.isReady = true ∧ (cmd rdy sbKey 1 hd []).takes sbKey 1 hd ∧ (∃ x ∈ readyRows, x.2.2 = none ∧ x.2.1 ≠ 0x0055 ∧ sidebandCodes.contains x.2.1 = false)) ∧
    (eventInfo 0x0040).isSome = true ∧
    ((∃ mb ∈ mailboxesOf 0, bit 7 (({ rdy with helm := { rdy.helm with mailboxes := [(0, { mask := 0xFFF })] } } : State).mbox mb).mask = true) ∧
      (rdy.mbox 0).events < 256 ∧ bit 7 (rdy.mbox 1).mask = false) := by
  refine ⟨by decide +kernel, ⟨serves_of _ _ _ _ _ (by decide +kernel), by decide +kernel, ⟨(.logbookClear, 0x0005, none), by simp [readyRows], by decide, rfl⟩⟩,
    ⟨rfl, rfl, ⟨by decide +kernel, by decide +kernel, rfl, [], rfl⟩, ⟨(.logbookClear, 0x0005, none), by simp [readyRows], rfl, by decide, by decide⟩⟩,
    by decide +kernel, ?_⟩
  decide +kernel

/-- Steps on a queue that holds POWER_OFF, from a state with the shutdown latch set and one in failure stop. -/
def rdyLatch (c : Instr) : State := { rdy with
  pending := [c]
  boot := { rdy.boot with dev := .failureStop }
  pins := { rdy.pins with shutdownLatch := true, thermtripN := false, failstopN := false } }

theorem witness_EveryStepKeepsMemoryCanonical :
    Memory.wf (rdyLatch .powerOff).mem.cells = true ∧ (match step (rdyLatch .powerOff) with | .next _ => true | _ => false) = true := by
  decide +kernel

theorem witness_EveryStepKeepsStopPinsLow :
    (∀ c ∈ [Instr.powerOff, .fuseProgram], (rdyLatch c).stopPinsLow ∧ (rdyLatch c).pins.shutdownLatch = true ∧
      (match step (rdyLatch c) with | .next _ => true | _ => false) = true) := by
  simp only [State.stopPinsLow]
  decide +kernel

/-! ### The package: lands, fibres, the handshake rate -/

/-- 19: R543, R545: the worked example of LSM_SDA[5], and the first slots. -/
theorem test_lands_of_slots :
    land 4 27 = .slot 124 ∧ slotLand 124 = (4, 27) ∧ landAt 4 27 = (-67, 113) ∧ signalOf 124 = some (.lsmSda 5) ∧
    land 1 4 = .slot 1 ∧ land 1 3 = .gnd ∧ signalOf 1 = some (.refclk true) := by decide +kernel

/-- 19: R544: the rail of a land and its ground neighbour. -/
theorem test_lands_of_rails : land 63 22 = .vddCd 7 ∧ land 63 21 = .gnd := by decide +kernel

/-- 20: R562: a value of the table, and one between two set-points. -/
theorem test_handshake_rate : rateBetween 650 380 rateRows = (5250 * 120, 120) ∧ (rateBetween 675 380 rateRows).1 = 5600 * 120 := by decide +kernel

/-- 19: R545: land counts of rails. -/
theorem test_land_counts : landsOf .vddPd = 760 ∧ landsOf (.vddCd 7) = 420 ∧ landsOf .vhtr = 60 := by decide +kernel

end Sys2Proof.Tests
end

/-!
Addresses that no block decodes (00: R16): what a service access does once the map names no place, and the row of each access.
-/
namespace Sys2Proof.Machine

open Sys2Proof

/-- No block decodes the address, and it does not lie in the block SECURE of PD0 (00: R16; 17: R516). -/
def Undecoded (a : Nat) : Prop := placeOf a = none ∧ ¬ (addrDie a = 12 ∧ addrBlock a = 0x1F)

/-! ### The rows of service accesses -/

theorem exec_registerWrite_eq (a width v : Nat) (s : State) :
    exec (.registerWrite a width v) s = .next (s.svcWrite a width v).2 := rfl

theorem exec_counterLowRead_eq (a : Nat) (s : State) : exec (.counterLowRead a) s = .next (s.svcRead a 4).2 := rfl

theorem exec_serviceRead_eq (mb seq : Nat) (body : List Byte) (s : State) :
    exec (.serviceRead mb seq body) s = s.runHelm 0x0064 true (some [4, 1, 3]) mb seq body serviceReadRun := rfl

theorem exec_serviceWrite_eq (mb seq : Nat) (body : List Byte) (s : State) :
    exec (.serviceWrite mb seq body) s = s.runHelm 0x0065 true (some [4, 1, 3, 8]) mb seq body serviceWriteRun := rfl

theorem exec_svcRd_eq (src dst tag a : Nat) (s : State) : exec (.svcRd src dst tag a) s = execSvcRd src dst tag a s := rfl

theorem exec_svcWr_eq (src dst tag a : Nat) (data : List Byte) (s : State) :
    exec (.svcWr src dst tag a data) s = execSvcWr src dst tag a data s := rfl

/-! ### Accesses that the map stops (21: R573) -/

theorem State.svcRead_of_stopped (s : State) (a width : Nat) (e : SvcEnd) (h : s.svcPlace a width = .inl e) :
    s.svcRead a width = (e, s) := by
  simp [State.svcRead, h]

theorem State.svcWrite_of_stopped (s : State) (a width v : Nat) (e : SvcEnd) (h : s.svcPlace a width = .inl e) :
    s.svcWrite a width v = (e, s) := by
  simp [State.svcWrite, h]

theorem State.svcPlace_of_undecoded (s : State) (a width : Nat) (ha : Undecoded a) (hw : accessOk a width = true) :
    s.svcPlace a width = .inl .unmapped := by
  obtain ⟨hnone, hsecure⟩ := ha
  simp [State.svcPlace, hw, hsecure, hnone]

theorem State.svcRead_of_undecoded (s : State) (a width : Nat) (ha : Undecoded a) (hw : accessOk a width = true) :
    s.svcRead a width = (.unmapped, s) :=
  s.svcRead_of_stopped a width .unmapped (s.svcPlace_of_undecoded a width ha hw)

theorem State.svcWrite_of_undecoded (s : State) (a width v : Nat) (ha : Undecoded a) (hw : accessOk a width = true) :
    s.svcWrite a width v = (.unmapped, s) :=
  s.svcWrite_of_stopped a width v .unmapped (s.svcPlace_of_undecoded a width ha hw)

/-- SVC_RD picks its width by the address, so no SVC_RD of a word address is INVALID. -/
theorem accessOk_svcRd_width (a : Nat) (h : a % 4 = 0) : accessOk a (if a % 8 = 0 then 8 else 4) = true := by
  by_cases h8 : a % 8 = 0 <;> simp [accessOk, h, h8]

/-- So a SVC_WR of an allowed width is never a protocol error of its link (07: R213). -/
theorem pktOk_svcWr_of_accessOk (a len : Nat) (h : accessOk a len = true) : pktOk 0xB len = true := by
  simp only [accessOk, Bool.and_eq_true] at h
  exact h.1

/-! ### SERVICE_READ and SERVICE_WRITE (13: R420) -/

theorem serviceReadRun_of_undecoded (w : Waiter) (p : List Byte) (s : State) (ho : s.serviceOpen w = true)
    (ha : Undecoded (field p 0 4)) (hw : accessOk (field p 0 4) (field p 4 1) = true) :
    serviceReadRun w p s = .done 0xC [] s := by
  simp [serviceReadRun, ho, s.svcRead_of_undecoded _ _ ha hw, svcAnswer, errAns]

theorem serviceWriteRun_of_undecoded (w : Waiter) (p : List Byte) (s : State) (ho : s.serviceOpen w = true)
    (ha : Undecoded (field p 0 4)) (hw : accessOk (field p 0 4) (field p 4 1) = true) :
    serviceWriteRun w p s = .done 0xC [] s := by
  simp [serviceWriteRun, ho, s.svcWrite_of_undecoded _ _ _ ha hw, svcAnswer, errAns]

@[simp] theorem State.serviceOpen_taken (s : State) (mb seq : Nat) (body : List Byte) (w : Waiter) :
    (s.taken mb seq body).serviceOpen w = s.serviceOpen w := rfl

/-! ### SVC_RD and SVC_WR (07: R212) -/

/-- Where no packet of the queues passes the test, the row's packet came from elsewhere and the queues stand. -/
theorem State.takeHub_of_none (s : State) (same : HubPkt → Bool) (h : ∀ x ∈ s.hubOut, same x = false) :
    s.takeHub same = some s := by
  have hfind : s.findPkt same = none := by
    simp only [State.findPkt, List.findSome?_eq_none_iff, Option.map_eq_none_iff, List.find?_eq_none, Bool.not_eq_true]
    exact fun q hq x hx => h x (List.mem_flatMap.mpr ⟨q, hq, hx⟩)
  simp [State.takeHub, hfind]

theorem State.complete_of_up (s : State) (src pt unit tag status : Nat) (data : List Byte) (h : (s.die (unit / 128)).life = .up) :
    s.complete src pt unit tag status data = s.toUnit (completionPkt src pt unit tag status data) := by
  simp [State.complete, completionPkt, h]

theorem exec_svcRd_of_undecoded (s : State) (src dst tag a : Nat) (ha : Undecoded a) (h4 : a % 4 = 0) (hd : s.detects = true)
    (hup : (s.die (src / 128)).life = .up) (hq : ∀ x ∈ s.hubOut, x.typ ≠ 0xA) :
    exec (.svcRd src dst tag a) s = .next (s.toUnit (completionPkt dst 0 src tag 0x0C [])) := by
  have htake := s.takeHub_of_none (fun p => p.typ == 0xA && p.dst == dst && p.tag == tag && p.specific == a)
    (fun x hx => by simp [hq x hx])
  have hread := s.svcRead_of_undecoded a _ ha (accessOk_svcRd_width a h4)
  have hdone := s.complete_of_up dst 0 src tag 0x0C [] hup
  rw [exec_svcRd_eq, execSvcRd]
  by_cases hr : svcReaches dst a
  · simp [hd, htake, hr, hread, SvcEnd.status, hdone]
  · simp [hd, htake, hr, hdone]

theorem exec_svcWr_of_undecoded (s : State) (src dst tag a : Nat) (data : List Byte) (ha : Undecoded a)
    (hw : accessOk a data.length = true) (hd : s.detects = true) (hup : (s.die (src / 128)).life = .up)
    (hq : ∀ x ∈ s.hubOut, x.typ ≠ 0xB) :
    exec (.svcWr src dst tag a data) s = .next (s.toUnit (completionPkt dst 0 src tag 0x0C [])) := by
  have htake := s.takeHub_of_none (fun p => p.typ == 0xB && p.dst == dst && p.tag == tag && p.specific == a)
    (fun x hx => by simp [hq x hx])
  have hlen := pktOk_svcWr_of_accessOk a data.length hw
  have hwrite := s.svcWrite_of_undecoded a data.length (leNat data) ha hw
  have hdone := s.complete_of_up dst 0 src tag 0x0C [] hup
  rw [exec_svcWr_eq, execSvcWr]
  by_cases hr : svcReaches dst a
  · simp [hd, htake, hlen, hr, hwrite, SvcEnd.status, hdone]
  · simp [hd, htake, hlen, hr, hdone]

/-! ### The obligation -/

/-- Settles O55: the map stops every access to such an address with UNMAPPED, on the state as it was; each row then only sends its answer. -/
theorem undecodedAddressesAreUnmapped : Obligations.UndecodedAddressesAreUnmapped := by
  unfold Obligations.UndecodedAddressesAreUnmapped
  intro s a _ hnone hsecure
  have ha : Undecoded a := ⟨hnone, hsecure⟩
  refine ⟨fun width v hw => ?register, fun h4 => ?counter, fun mb seq h p hserves ho hpa hw => ⟨fun hp => ?read, fun hp => ?write⟩,
    fun src dst tag hd hup hq h4 => ⟨?svcRd, fun data hw => ?svcWr⟩⟩
  case register => rw [exec_registerWrite_eq, s.svcWrite_of_undecoded a width v ha hw]
  case counter => rw [exec_counterLowRead_eq, s.svcRead_of_undecoded a 4 ha (by simp [accessOk, h4])]
  case read =>
    subst hpa
    obtain ⟨hs, hpt⟩ := hserves
    rw [exec_serviceRead_eq]
    exact s.serves_answer _ _ _ mb seq h p _ _ _ hs (fun _ => hpt) (by simp [hp, shortAt])
      (serviceReadRun_of_undecoded (mb, seq) p _ (by simpa using ho) ha hw)
  case write =>
    subst hpa
    obtain ⟨hs, hpt⟩ := hserves
    rw [exec_serviceWrite_eq]
    exact s.serves_answer _ _ _ mb seq h p _ _ _ hs (fun _ => hpt) (by simp [hp, shortAt])
      (serviceWriteRun_of_undecoded (mb, seq) p _ (by simpa using ho) ha hw)
  case svcRd => exact exec_svcRd_of_undecoded s src dst tag a ha h4 hd hup (fun x hx => (hq x hx).1)
  case svcWr => exact exec_svcWr_of_undecoded s src dst tag a data ha hw hd hup (fun x hx => (hq x hx).2)

end Sys2Proof.Machine

/-!
What leaves the records of the dies alone: mailboxes, counters, the memory, the beacons' channels, the requests of units, the pipelines and the tenders. A fence
works on all of these after it has written the die's own record (07: R225, R226).
-/
namespace Sys2Proof.Machine

open Sys2Proof

/-- A fold of steps that each keep the dies. -/
theorem foldl_dies {α : Type} (f : State → α → State) (h : ∀ s a, (f s a).dies = s.dies) (l : List α) (s : State) :
    (l.foldl f s).dies = s.dies := by
  induction l generalizing s with
  | nil => rfl
  | cons a l ih => rw [List.foldl_cons, ih, h]

/-- The same where the steps also count. -/
theorem foldl_snd_dies {α : Type} (f : Nat × State → α → Nat × State) (h : ∀ acc a, (f acc a).2.dies = acc.2.dies) (l : List α)
    (acc : Nat × State) : (l.foldl f acc).2.dies = acc.2.dies := by
  induction l generalizing acc with
  | nil => rfl
  | cons a l ih => rw [List.foldl_cons, ih, h]

/-! ### Reports, mailboxes and packets -/

@[simp] theorem State.postTo_dies (s : State) (pt code cls sev source ref : Nat) (data : List Byte) :
    (s.postTo pt code cls sev source ref data).dies = s.dies := by
  refine foldl_dies _ (fun acc mb => ?_) _ _
  dsimp only
  split
  · split <;> simp
  · rfl

@[simp] theorem State.postFor_dies (s : State) (pt code source : Nat) (data : List Byte) : (s.postFor pt code source data).dies = s.dies := by
  unfold State.postFor
  split <;> simp

@[simp] theorem State.post_dies (s : State) (code source : Nat) (data : List Byte) : (s.post code source data).dies = s.dies :=
  s.postFor_dies 0 code source data

@[simp] theorem State.satCheck_dies (s : State) (source item old new : Nat) : (s.satCheck source item old new).dies = s.dies := by
  unfold State.satCheck
  split <;> simp

@[simp] theorem State.satBump_dies (s : State) (t : Tbl Nat) (i n source addr : Nat) : (s.satBump t i n source addr).dies = s.dies :=
  s.satCheck_dies _ _ _ _

@[simp] theorem State.postCompletion_dies (s : State) (mb code source : Nat) (data : List Byte) :
    (s.postCompletion mb code source data).dies = s.dies := rfl

theorem State.onlyMailbox_dies {s t : State} {mb : Nat} (h : s.onlyMailbox t mb) : t.dies = s.dies := by
  rw [h.1]

theorem State.onlyMailbox_log {s t : State} {mb : Nat} (h : s.onlyMailbox t mb) : t.log = s.log := by
  rw [h.1]

/-- An answer changes its own mailbox, or nothing where the command no longer runs. -/
theorem State.answerCmd_only (s : State) (w : Waiter) (code status : Nat) (p : List Byte) : s.onlyMailbox (s.answerCmd w code status p) w.1 := by
  by_cases h : (s.mbox w.1).running = some w.2
  · exact (s.answerCmd_spec w.1 w.2 code status p h).2.1
  · simpa [State.answerCmd, h] using s.onlyMailbox_refl w.1

@[simp] theorem State.answerCmd_dies (s : State) (w : Waiter) (code status : Nat) (p : List Byte) : (s.answerCmd w code status p).dies = s.dies :=
  State.onlyMailbox_dies (s.answerCmd_only w code status p)

@[simp] theorem State.answerCmd_log (s : State) (w : Waiter) (code status : Nat) (p : List Byte) : (s.answerCmd w code status p).log = s.log :=
  State.onlyMailbox_log (s.answerCmd_only w code status p)

@[simp] theorem State.undefine_dies (s : State) (a n : Nat) : (s.undefine a n).dies = s.dies := by
  unfold State.undefine
  split <;> rfl

@[simp] theorem State.undefineLs_dies (s : State) (k off n : Nat) : (s.undefineLs k off n).dies = s.dies := rfl

@[simp] theorem State.toUnit_dies (s : State) (p : HubPkt) : (s.toUnit p).dies = s.dies := rfl

@[simp] theorem State.dropPkts_dies (s : State) (same : HubPkt → Bool) : (s.dropPkts same).dies = s.dies := rfl

@[simp] theorem State.complete_dies (s : State) (src pt unit tag status : Nat) (data : List Byte) :
    (s.complete src pt unit tag status data).dies = s.dies := by
  unfold State.complete
  split <;> simp

@[simp] theorem State.lostTo_dies (s : State) (p : HubPkt) : (s.lostTo p).dies = s.dies := by
  unfold State.lostTo
  split <;> simp

@[simp] theorem State.fenceLink_dies (s : State) (die : Nat) (st : LinkSt) : (s.fenceLink die st).dies = s.dies := rfl

@[simp] theorem State.fenceLink_log (s : State) (die : Nat) (st : LinkSt) : (s.fenceLink die st).log = s.log := rfl

/-! ### The memory of the package (06: R176 to R200; 08: R257 to R259) -/

@[simp] theorem State.bumpStack_dies (s : State) (k i n : Nat) : (s.bumpStack k i n).dies = s.dies := by
  simp only [State.bumpStack]
  split <;> simp

@[simp] theorem State.setPoison_dies (s : State) (l : Nat) (p : Bool) : (s.setPoison l p).dies = s.dies := rfl

@[simp] theorem State.skewBytes_dies (s : State) (l n : Nat) : (s.skewBytes l n).dies = s.dies := by
  simp only [State.skewBytes]
  split <;> rfl

@[simp] theorem State.setBand_dies (s : State) (k b : Nat) : (s.setBand k b).dies = s.dies := by
  simp only [State.setBand]
  split <;> simp

@[simp] theorem State.wakeStack_dies (s : State) (k : Nat) : (s.wakeStack k).dies = s.dies := by
  simp only [State.wakeStack]
  split
  · split <;> simp
  · simp

@[simp] theorem State.hold_dies (s : State) (id : Option Nat) (c : Instr) (l entry : Nat) : (s.hold id c l entry).dies = s.dies := rfl

@[simp] theorem State.moveBytes_dies (s : State) (l n : Nat) : (s.moveBytes l n).dies = s.dies := by
  simp [State.moveBytes]

@[simp] theorem State.reach_dies (s : State) (l n : Nat) : (s.reach l n).dies = s.dies := by
  unfold State.reach
  split <;> simp

@[simp] theorem State.unitBack_dies (s : State) (l : Nat) : (s.unitBack l).dies = s.dies := by
  unfold State.unitBack
  split <;> simp

@[simp] theorem State.unitTake_dies (s : State) (l : Nat) : (s.unitTake l).dies = s.dies := by
  simp only [State.unitTake]
  split <;> simp

@[simp] theorem State.ctlRead_dies (s : State) (l n : Nat) : (s.ctlRead l n).2.2.dies = s.dies := by
  simp only [State.ctlRead]
  split <;> simp

@[simp] theorem State.ctlWrite_dies (s : State) (l : Nat) (data : List Byte) (mask : List Bool) : (s.ctlWrite l data mask).dies = s.dies := by
  simp only [State.ctlWrite]
  split
  · simp
  · split <;> simp

@[simp] theorem State.ctlStore_dies (s : State) (l : Nat) (data : List Byte) : (s.ctlStore l data).dies = s.dies :=
  s.ctlWrite_dies l data _

@[simp] theorem State.applyAtomic_dies (s : State) (l op : Nat) (old payload : List Byte) : (s.applyAtomic l op old payload).dies = s.dies := by
  simp [State.applyAtomic]

@[simp] theorem State.atomicAt_dies (s : State) (l op : Nat) (payload : List Byte) : (s.atomicAt l op payload).2.2.dies = s.dies := by
  simp only [State.atomicAt]
  split
  · simp
  · split <;> simp

/-! ### The channels of the beacons (10: R313 to R343) -/

@[simp] theorem State.putBlock_dies (s : State) (b q : Nat) (block : List Byte) : (s.putBlock b q block).dies = s.dies := by
  simp only [State.putBlock]
  generalize (if (s.tx b q).block = 0 then s.activeLines b q 0 else (s.tx b q).rota) = rota
  split <;> simp

@[simp] theorem State.putFlits_dies (s : State) (b q : Nat) (idle : FabFlit) (fl : List FabFlit) : (s.putFlits b q idle fl).dies = s.dies :=
  foldl_dies _ (fun _ _ => foldl_dies _ (fun t x => t.putBlock_dies b q x) _ _) _ _

@[simp] theorem State.lightFlits_dies (s : State) (b q : Nat) (fl : List FabFlit) : (s.lightFlits b q fl).dies = s.dies :=
  s.putFlits_dies b q _ fl

@[simp] theorem State.lightCtrl_dies (s : State) (b q : Nat) (pkt : FabPkt) : (s.lightCtrl b q pkt).dies = s.dies :=
  s.lightFlits_dies b q _

@[simp] theorem State.bumpTx_dies (s : State) (b q i n : Nat) : (s.bumpTx b q i n).dies = s.dies := by
  simp only [State.bumpTx]
  split <;> simp

@[simp] theorem State.bumpRx_dies (s : State) (b q i n : Nat) : (s.bumpRx b q i n).dies = s.dies := by
  simp only [State.bumpRx]
  split <;> simp

@[simp] theorem State.bumpBeacon_dies (s : State) (b i : Nat) : (s.bumpBeacon b i).dies = s.dies := by
  simp only [State.bumpBeacon]
  split <;> simp

@[simp] theorem State.packUnit_dies (s : State) (b q : Nat) (u : FabUnit) : (s.packUnit b q u).dies = s.dies := by
  simp [State.packUnit]

@[simp] theorem pumpUnits_dies (b q : Nat) (stuck us : List FabUnit) (s : State) : (pumpUnits b q stuck us s).2.dies = s.dies := by
  induction us generalizing stuck s with
  | nil => rfl
  | cons u us ih =>
    unfold pumpUnits
    split <;> simp [ih]

@[simp] theorem State.pump_dies (s : State) (b q : Nat) : (s.pump b q).dies = s.dies := by
  simp [State.pump]

@[simp] theorem State.sendUnit_dies (s : State) (u : FabUnit) : (s.sendUnit u).dies = s.dies := by
  simp [State.sendUnit]

@[simp] theorem State.sendPkt_dies (s : State) (p : Nat) (pkt : FabPkt) : (s.sendPkt p pkt).dies = s.dies := by
  unfold State.sendPkt
  split <;> simp

@[simp] theorem State.sendLink_dies (s : State) (b q ftype dst : Nat) (payload : List Byte) :
    (s.sendLink b q ftype dst payload).dies = s.dies := by
  simp only [State.sendLink]
  split <;> simp

@[simp] theorem State.holdWord_dies (s : State) (w : Nat) : (s.holdWord w).dies = s.dies := rfl

@[simp] theorem State.routeFail_dies (s : State) (b cause hop : Nat) (head : List Byte) (u : FabUnit) :
    (s.routeFail b cause hop head u).dies = s.dies := by
  simp only [State.routeFail]
  split <;> simp

@[simp] theorem State.dropUnit_dies (s : State) (b : Nat) (u : FabUnit) : (s.dropUnit b u).dies = s.dies := by
  simp only [State.dropUnit]
  split <;> simp

@[simp] theorem State.sendCredit_dies (s : State) (b q : Nat) : (s.sendCredit b q).dies = s.dies := by
  simp only [State.sendCredit]
  split <;> simp

@[simp] theorem State.freeUnit_dies (s : State) (b q : Nat) (u : FabUnit) : (s.freeUnit b q u).dies = s.dies := by
  simp only [State.freeUnit]
  split
  · rfl
  · split <;> simp

@[simp] theorem moveUnits_dies (b q : Nat) (stuck us : List FabUnit) (s : State) : (moveUnits b q stuck us s).2.dies = s.dies := by
  induction us generalizing stuck s with
  | nil => rfl
  | cons u us ih =>
    simp only [moveUnits]
    split
    · simp [ih]
    · split <;> simp [ih]

@[simp] theorem State.movePool_dies (s : State) (b q : Nat) : (s.movePool b q).dies = s.dies := by
  simp [State.movePool]

@[simp] theorem State.movePools_dies (s : State) : s.movePools.dies = s.dies :=
  foldl_dies _ (fun t i => t.movePool_dies (i / 16) (i % 16)) _ _

@[simp] theorem State.postPortDown_dies (s : State) (b q cause : Nat) : (s.postPortDown b q cause).dies = s.dies :=
  s.post_dies _ _ _

@[simp] theorem State.txDown_dies (s : State) (b q cause : Nat) : (s.txDown b q cause).dies = s.dies := by
  simp only [State.txDown]
  split
  · rfl
  · simp [foldl_dies]

@[simp] theorem State.rxDown_dies (s : State) (b q cause : Nat) : (s.rxDown b q cause).dies = s.dies := by
  simp only [State.rxDown]
  split
  · rfl
  · simp

@[simp] theorem State.portDown_dies (s : State) (b q cause : Nat) : (s.portDown b q cause).dies = s.dies := by
  simp [State.portDown]

/-! ### Requests of units (08: R238 to R249, R272 to R274) -/

@[simp] theorem State.bumpCache_dies (s : State) (p i n : Nat) : (s.bumpCache p i n).dies = s.dies := by
  simp only [State.bumpCache]
  split <;> simp

@[simp] theorem State.violation_dies (s : State) (p pt a need : Nat) : (s.violation p pt a need).dies = s.dies := by
  simp [State.violation]

@[simp] theorem State.dropLines_dies (s : State) (p : Nat) (gone : CacheLine → Bool) : (s.dropLines p gone).dies = s.dies := rfl

@[simp] theorem State.newReqId_dies (s : State) : s.newReqId.2.dies = s.dies := rfl

@[simp] theorem State.sendMirror_dies (s : State) (pkt : FabPkt) : (s.sendMirror pkt).dies = s.dies := by
  simp only [State.sendMirror]
  split
  · rfl
  · split
    · split <;> simp
    · split <;> simp

@[simp] theorem State.mirrorOut_dies (s : State) (l mask : Nat) (half : Bool) (r : OutReq) : (s.mirrorOut l mask half r).dies = s.dies := by
  simp [State.mirrorOut]

@[simp] theorem State.reply_dies (s : State) (home node hallTag unit reqId status : Nat) (data : List Byte) :
    (s.reply home node hallTag unit reqId status data).dies = s.dies :=
  s.sendPkt_dies home _

@[simp] theorem State.finish_dies (s : State) (r : OutReq) (status : Nat) (data : List Byte) : (s.finish r status data).dies = s.dies := by
  simp only [State.finish]
  split
  · simp
  · split <;> simp

@[simp] theorem State.answer_dies (s : State) (p : Nat) (q : UnitReq) (k : Ask) (status : Nat) (data : List Byte) (id : Nat) :
    (s.answer p q k status data id).dies = s.dies := by
  unfold State.answer
  split <;> simp

@[simp] theorem State.serveLocal_dies (s : State) (q : UnitReq) (k : Ask) (id entry : Nat) : (s.serveLocal q k id entry).dies = s.dies := by
  cases k with
  | rd n => simp [State.serveLocal]
  | hint => simp [State.serveLocal]
  | wr d | part d =>
    simp only [State.serveLocal]
    split <;> simp
  | atomic op p =>
    simp only [State.serveLocal]
    split <;> simp

theorem State.sendRequest_dies {s t : State} {p : Nat} {q : UnitReq} {k : Ask} {id entry : Nat} (h : s.sendRequest p q k id entry = some t) :
    t.dies = s.dies := by
  simp only [State.sendRequest] at h
  split at h
  · split at h
    · cases h
      split <;> simp
    · cases h
  · split at h
    · cases h
      split <;> simp
    · cases h
      simp

theorem State.cacheRead_dies {s t : State} {p : Nat} {q : UnitReq} {k : Ask} {id entry : Nat} (h : s.cacheRead p q k id entry = some t) :
    t.dies = s.dies := by
  simp only [State.cacheRead] at h
  split at h
  · cases h
    simp
  · simpa using State.sendRequest_dies h

@[simp] theorem State.holdRoute_dies (s : State) (id : Nat) (c : Instr) (entry : Nat) : (s.holdRoute id c entry).dies = s.dies := rfl

/-- A step that may have to wait keeps the dies where both of its ends do. -/
theorem getD_dies {s u : State} {o : Option State} (ho : ∀ t, o = some t → t.dies = s.dies) (hu : u.dies = s.dies) : (o.getD u).dies = s.dies := by
  cases o with
  | none => exact hu
  | some t => exact ho t rfl

@[simp] theorem State.routeRequest_dies (s : State) (q : UnitReq) (k : Ask) (id entry : Nat) : (s.routeRequest q k id entry).dies = s.dies := by
  simp only [State.routeRequest]
  split
  · split
    · simp
    · split <;> simp
  · split
    · simp
    · split
      · simp
      · refine getD_dies (fun t ht => ?_) (s.holdRoute_dies _ _ _)
        split at ht
        · exact State.cacheRead_dies ht
        · exact State.cacheRead_dies ht
        · exact State.sendRequest_dies ht

@[simp] theorem State.request_dies (s : State) (q : UnitReq) (k : Ask) : (s.request q k).dies = s.dies := by
  simp only [State.request]
  split
  · simp
  · split
    · simp
    · split <;> simp

/-! ### Pipelines (04: R117, R129, R137, R142) -/

@[simp] theorem State.onPipe_dies (s : State) (pl : Nat) (f : Pipe → Pipe) : (s.onPipe pl f).dies = s.dies := rfl

@[simp] theorem State.onStage_dies (s : State) (k : Nat) (f : Stage → Stage) : (s.onStage k f).dies = s.dies := rfl

@[simp] theorem State.closeGap_dies (s : State) (pl : Nat) : (s.closeGap pl).dies = s.dies := by
  rw [State.closeGap, State.onPipe_dies, foldl_dies]
  exact fun _ _ => rfl

@[simp] theorem State.endInv_dies (s : State) (pl : Nat) (p : Pipe) (v : Inv) (status : Nat) (fault : List Byte) :
    (s.endInv pl p v status fault).dies = s.dies := rfl

@[simp] theorem State.endLater_dies (s : State) (pl : Nat) (p : Pipe) (v : Inv) (status : Nat) (fault : List Byte) :
    (s.endLater pl p v status fault).dies = s.dies := by
  simp only [State.endLater]
  split <;> simp

@[simp] theorem State.releaseDone_dies (s : State) (pl : Nat) : (s.releaseDone pl).dies = s.dies := by
  simp only [State.releaseDone]
  split
  · rfl
  · split
    · split <;> simp
    · rfl

@[simp] theorem State.wroteHome_dies (s : State) (pl : Nat) (home : Nat × Nat → Bool) : (s.wroteHome pl home).dies = s.dies := by
  simp only [State.wroteHome]
  split
  · rfl
  · split
    · rfl
    · rw [State.releaseDone_dies, foldl_dies, State.setPipe_dies]
      exact fun _ _ => rfl

@[simp] theorem State.undefineInv_dies (s : State) (p : Pipe) (v : Inv) : (s.undefineInv p v).dies = s.dies := by
  rw [State.undefineInv, foldl_dies, foldl_dies]
  · intro t r
    split <;> simp
  · exact fun _ _ => rfl

@[simp] theorem State.endInvs_dies (s : State) (pl : Nat) (p : Pipe) (status : Nat) (fault : List Byte) :
    (s.endInvs pl p status fault).dies = s.dies := by
  simp [State.endInvs, foldl_dies, apply_ite State.dies]

@[simp] theorem State.answerStops_dies (s : State) (p : Pipe) (status : Nat) : (s.answerStops p status).dies = s.dies := by
  simp [State.answerStops, foldl_dies]

@[simp] theorem State.dropGrants_dies (s : State) (pl : Nat) (gone : ChanGrant → Bool) : (s.dropGrants pl gone).dies = s.dies := by
  refine foldl_dies _ (fun t pd => ?_) _ _
  dsimp only
  rw [foldl_dies]
  exact fun _ _ => rfl

@[simp] theorem State.dropChanReqs_dies (s : State) (pl : Nat) : (s.dropChanReqs pl).dies = s.dies := rfl

@[simp] theorem State.discardAll_dies (s : State) (pl : Nat) : (s.discardAll pl).dies = s.dies := by
  simp only [State.discardAll]
  split
  · rfl
  · rw [State.setPipe_dies, State.dropChanReqs_dies, State.dropGrants_dies, foldl_dies]
    exact fun _ _ => rfl

@[simp] theorem State.postFailed_dies (s : State) (pl : Nat) (p : Pipe) (status : Nat) (fault : List Byte) :
    (s.postFailed pl p status fault).dies = s.dies :=
  s.postFor_dies _ _ _ _

@[simp] theorem State.failPipe_dies (s : State) (pl status : Nat) (k : Option Nat) (cause : Nat) : (s.failPipe pl status k cause).dies = s.dies := by
  simp only [State.failPipe]
  split
  · rfl
  · split <;> simp

@[simp] theorem State.loadRefused_dies (s : State) (pl k : Nat) : (s.loadRefused pl k).dies = s.dies := by
  simp only [State.loadRefused]
  split
  · rfl
  · split
    · rfl
    · rw [State.answerCmd_dies, foldl_dies]
      exact fun _ _ => rfl

/-! ### Tenders (11: R349 to R369) -/

@[simp] theorem State.setTender_dies (s : State) (p : Nat) (t : Tender) : (s.setTender p t).dies = s.dies := rfl

@[simp] theorem State.onChan_dies (s : State) (k : Nat) (f : Chan → Chan) : (s.onChan k f).dies = s.dies := rfl

@[simp] theorem State.bumpChan_dies (s : State) (k i n : Nat) : (s.bumpChan k i n).dies = s.dies := by
  simp only [State.bumpChan]
  split <;> simp

@[simp] theorem State.tenderTag_dies (s : State) (p : Nat) : (s.tenderTag p).2.dies = s.dies := rfl

@[simp] theorem State.chanAsk_dies (s : State) (k tag a : Nat) (q : Ask) : (s.chanAsk k tag a q).dies = s.dies :=
  s.request_dies _ q

@[simp] theorem State.lsAccess_dies (s : State) (k tag a n : Nat) (data : Option (List Byte)) : (s.lsAccess k tag a n data).dies = s.dies := by
  simp only [State.lsAccess]
  split
  · simp
  · split <;> simp

@[simp] theorem State.serveCopy_dies (s : State) (q : UnitReq) (k : Nat) : (s.serveCopy q k).dies = s.dies := by
  simp only [State.serveCopy]
  split <;> simp

@[simp] theorem State.holdCopy_dies (s : State) (q : UnitReq) (k : Nat) : (s.holdCopy q k).dies = s.dies := rfl

@[simp] theorem State.mirrorBlock_dies (s : State) (k tag a : Nat) : (s.mirrorBlock k tag a).dies = s.dies := by
  simp only [State.mirrorBlock]
  split
  · simp
  · split <;> simp

@[simp] theorem State.takeRxq_dies (s : State) (line n : Nat) : (s.takeRxq line n).2.dies = s.dies := by
  simp only [State.takeRxq]
  split <;> rfl

theorem State.issueOne_dies {s t : State} {k n : Nat} (h : s.issueOne k = some (n, t)) : t.dies = s.dies := by
  simp only [State.issueOne] at h
  split at h
  · cases h
  · split at h
    · cases h
      simp
    · cases h
      simp
    · split at h
      · cases h
      · cases h
        simp
    · cases h
      simp
    · split at h
      · cases h
      · cases h
        simp

@[simp] theorem State.sendBlock_dies (s : State) (k off : Nat) (data : List Byte) (words : Tbl (List Byte)) :
    (s.sendBlock k off data words).dies = s.dies := by
  simp only [State.sendBlock]
  split <;> simp

@[simp] theorem State.askWords_dies (s : State) (k off : Nat) (ws : List Nat) : (s.askWords k off ws).dies = s.dies := by
  induction ws generalizing s with
  | nil => rfl
  | cons w ws ih => simp [State.askWords, ih]

theorem State.sendOne_dies {s t : State} {k : Nat} (h : s.sendOne k = some t) : t.dies = s.dies := by
  simp only [State.sendOne] at h
  generalize (if dDstSpace (s.chan k).desc = 1 then [] else _) = need at h
  split at h
  · cases h
  · split at h
    · cases h
      simp
    · cases h
      simp

@[simp] theorem State.serveChan_dies (k n budget : Nat) (s : State) : (State.serveChan k n budget s).2.dies = s.dies := by
  induction n generalizing budget s with
  | zero => rfl
  | succ n ih =>
    simp only [State.serveChan]
    split
    next hsent => rw [ih, State.sendOne_dies hsent]
    next =>
      split
      next hissued =>
        split at hissued
        · cases hissued
        · rw [ih, State.issueOne_dies hissued]
      next => rfl

@[simp] theorem State.serveRound_dies (ks : List Nat) (s : State) : (s.serveRound ks).2.dies = s.dies := by
  rw [State.serveRound, foldl_snd_dies]
  exact fun acc k => State.serveChan_dies k _ _ acc.2

@[simp] theorem State.serveRounds_dies (ks : List Nat) (n : Nat) (s : State) : (State.serveRounds ks n s).dies = s.dies := by
  induction n generalizing s with
  | zero => rfl
  | succ n ih =>
    simp only [State.serveRounds]
    split <;> simp [ih]

@[simp] theorem State.pumpTender_dies (s : State) (p : Nat) : (s.pumpTender p).dies = s.dies :=
  State.serveRounds_dies _ _ s

@[simp] theorem State.setPause_dies (s : State) (k : Nat) (pause pwr : Bool) : (s.setPause k pause pwr).dies = s.dies := by
  simp [State.setPause]

/-! ### The parts of a fence (07: R225, R226) -/

@[simp] theorem State.unpause_dies (s : State) (die dom : Nat) : (s.unpause die dom).dies = s.dies := by
  simp [State.unpause, foldl_dies, apply_ite State.dies]

@[simp] theorem State.dropGates_dies (s : State) (die : Nat) : (s.dropGates die).dies = s.dies := by
  simp [State.dropGates, foldl_dies]

@[simp] theorem State.fenceChans_dies (s : State) (die : Nat) : (s.fenceChans die).dies = s.dies := rfl

@[simp] theorem State.fencePipes_dies (s : State) (die : Nat) : (s.fencePipes die).dies = s.dies := by
  refine foldl_dies _ (fun t pl => ?_) _ _
  split
  · rfl
  · split
    · rfl
    · split <;> simp

@[simp] theorem State.fenceStages_dies (s : State) (die : Nat) : (s.fenceStages die).dies = s.dies := by
  simp only [State.fenceStages]
  rw [foldl_dies, foldl_dies]
  · exact fun _ _ => rfl
  · exact fun t pl => by simp

@[simp] theorem State.fenceBeacon_dies (s : State) (b : Nat) : (s.fenceBeacon b).dies = s.dies := by
  unfold State.fenceBeacon
  extract_lets down e cleared answered
  have hdown : down.dies = s.dies := foldl_dies _ (fun t q => t.portDown_dies b q 2) _ _
  clear_value down
  have hcleared : cleared.dies = s.dies := (down.setBeacon_dies b _).trans hdown
  clear_value cleared
  have hanswered : answered.dies = s.dies := (foldl_dies _ (fun t (w : Nat × Waiter) => t.answerCmd_dies w.2 0x004A 0x10 []) _ _).trans hcleared
  clear_value answered
  cases e.repointWait with
  | none => exact hanswered
  | some w => exact (answered.answerCmd_dies w 0x0049 0x10 []).trans hanswered

@[simp] theorem State.gapsWithout_dies (s : State) : s.gapsWithout.dies = s.dies := by
  refine foldl_dies _ (fun t pl => ?_) _ _
  split
  · rfl
  · split <;> simp

end Sys2Proof.Machine

/-!
Retirement (07: R228): what it leaves of the die and in the logbook, and the two ways to it, a third failed re-admission and a fourth fence within the hour.
-/
namespace Sys2Proof.Machine

open Sys2Proof

/-! ### Reports that the logbook takes (16: R483 to R486) -/

/-- A report coalesced into the newest entry of its code and source leaves its count there. -/
theorem logCoalesce_logs {es es' : List LogEntry} {code source ref : Nat} (h : logCoalesce es code source ref = some es') :
    ∃ e ∈ es', e.code = code ∧ e.source = source ∧ e.refLast = ref := by
  unfold logCoalesce at h
  split at h
  · cases h
  next e hfind =>
    split at h
    · cases h
      have hmem : e ∈ es := List.mem_reverse.mp (List.mem_of_find?_eq_some hfind)
      have hkey := List.find?_some hfind
      simp only [Bool.and_eq_true, beq_iff_eq] at hkey
      exact ⟨{ e with count := satAdd 32 e.count 1, refLast := ref }, List.mem_map.mpr ⟨e, hmem, if_pos rfl⟩, hkey.1, hkey.2, rfl⟩
    · cases h

/-- A report taken stands in the logbook: in an entry that took it, or in one of its own at the end. -/
theorem Logbook.take_logs (l : Logbook) (code cls sev source ref : Nat) (data : List Byte) :
    ∃ e ∈ (l.take code cls sev source ref data).entries, e.code = code ∧ e.source = source ∧ e.refLast = ref := by
  unfold Logbook.take
  split
  next es hes => exact logCoalesce_logs hes
  next =>
    refine ⟨_, List.mem_append_right _ (List.mem_singleton_self _), ?_⟩
    exact ⟨rfl, rfl, rfl⟩

theorem State.logged_of_log_eq_take {t : State} {l : Logbook} {code cls sev source ref : Nat} {data : List Byte}
    (h : t.log = l.take code cls sev source ref data) : t.logged code source ref := by
  unfold State.logged
  rw [h]
  exact l.take_logs code cls sev source ref data

@[simp] theorem State.postTo_log (s : State) (pt code cls sev source ref : Nat) (data : List Byte) :
    (s.postTo pt code cls sev source ref data).log = s.log := by
  unfold State.postTo
  generalize mailboxesOf pt = mbs
  induction mbs generalizing s with
  | nil => rfl
  | cons mb mbs ih =>
    rw [List.foldl_cons, ih]
    dsimp only
    split
    · split <;> simp
    · rfl

theorem State.post_log (s : State) (code source cls sev : Nat) (data : List Byte) (h : eventInfo code = some (cls, sev)) :
    (s.post code source data).log = s.log.take code cls sev source (s.now (source / 128)) data := by
  simp [State.post, State.postFor, h]

/-! ### Retirement (07: R228) -/

theorem dieUnit_div (die : Nat) : dieUnit die / 128 = die := by
  unfold dieUnit unitId
  omega

theorem State.die_congr {s t : State} (h : t.dies = s.dies) (die : Nat) : t.die die = s.die die := by
  rw [State.die, h, State.die]

theorem State.retireDie_dies (s : State) (die : Nat) :
    (s.retireDie die).dies = (s.setDie die { s.die die with life := .retired, resetWait := none }).dies := by
  simp only [State.retireDie]
  split <;> simp

theorem State.retireDie_life (s : State) (die : Nat) : ((s.retireDie die).die die).life = .retired := by
  rw [State.die_congr (s.retireDie_dies die), State.die_setDie]

/-- A retirement is logged once, at the count that the die had. -/
theorem State.retireDie_log (s : State) (die : Nat) :
    (s.retireDie die).log = s.log.take 0x0042 7 2 (dieUnit die) (s.now die) (leBytes 1 die) := by
  simp only [State.retireDie]
  split <;>
    simp [State.post_log _ 0x0042 _ 7 2 _ rfl, dieUnit_div, State.now, State.die_congr (State.fenceLink_dies _ _ _)]

theorem State.retireDie_logged (s : State) (die : Nat) : (s.retireDie die).logged 0x0042 (dieUnit die) (s.now die) :=
  State.logged_of_log_eq_take (s.retireDie_log die)

/-! ### The fourth fence (07: R225, R228) -/

/-- The fences of a die within the last hour, one for a new cause with them; DIE_RESET counts none (13: R422). -/
def State.fencesWithin (s : State) (die cause : Nat) : List Nat :=
  let recent := (s.die die).fences.filter (fun r => decide (subMod 64 s.now0 r < 3600 * 156250000))
  if cause = 5 then recent else s.now0 :: recent

/-- The record of a die in service after a fence. -/
def State.fencedRecord (s : State) (die cause : Nat) : Die :=
  { s.die die with
    life := .fenced, fenceCause := cause, fences := s.fencesWithin die cause
    attempts := if s.switching die then (s.die die).attempts + 1 else 0 }

/-- A die in service cut off: its record written, its link down, its packets lost and its work ended. -/
def State.cutOff (s : State) (die cause : Nat) : State :=
  let s := (s.setDie die (s.fencedRecord die cause)).fenceLink die .fenced
  let s := { s with hubQ := s.hubQ.filter (fun q => decide (queuePlace q.1 ≠ die)) }
  let toDie := s.hubOut.filter (fun p => decide (p.dst / 128 = die))
  let s := toDie.foldl State.lostTo (s.dropPkts (fun p => decide (p.dst / 128 = die)))
  let s := s.post 0x0040 (dieUnit die) (leBytes 1 die ++ leBytes 1 cause)
  if die < 12 then (((s.fenceStages die).fencePipes die).fenceChans die).dropGates die else (s.fenceBeacon (die - 16)).gapsWithout

/-- The fence of a die in service cuts it off, and then retires it where its fences or its attempts are used up. -/
theorem State.fenceDie_of_up (s : State) (die cause : Nat) (retire : Bool) (hf : fenceable die = true) (hup : (s.die die).life = .up) :
    s.fenceDie die cause retire =
      if retire || decide (4 ≤ (s.fencesWithin die cause).length) || decide (3 ≤ (s.fencedRecord die cause).attempts) then
        (s.cutOff die cause).retireDie die
      else s.cutOff die cause := by
  unfold State.fenceDie
  extract_lets x
  rw [if_neg (by simp [x, hf, hup]), if_neg (by simp [x, hup])]
  rfl

theorem State.cutOff_dies (s : State) (die cause : Nat) : (s.cutOff die cause).dies = (s.setDie die (s.fencedRecord die cause)).dies := by
  simp only [State.cutOff]
  split <;> simp [foldl_dies]

/-- Cutting a die off leaves its reference count. -/
theorem State.cutOff_now (s : State) (die cause : Nat) : (s.cutOff die cause).now die = s.now die := by
  rw [State.now, State.die_congr (s.cutOff_dies die cause), State.die_setDie, State.fencedRecord, State.now]

/-- Three fences within the hour make a new cause the fourth. -/
theorem State.four_le_fencesWithin (s : State) (die cause r1 r2 r3 : Nat) (old : List Nat) (hc : cause ≠ 5)
    (h : (s.die die).fences = r1 :: r2 :: r3 :: old) (hrecent : ∀ r ∈ [r1, r2, r3], subMod 64 s.now0 r < 3600 * 156250000) :
    4 ≤ (s.fencesWithin die cause).length := by
  have h1 := hrecent r1 (by simp)
  have h2 := hrecent r2 (by simp)
  have h3 := hrecent r3 (by simp)
  simp [State.fencesWithin, hc, h, h1, h2, h3]

/-! ### The rows -/

theorem exec_dieFence_eq (die cause : Nat) (s : State) (hd : s.detects = true) :
    exec (.dieFence die cause) s = .next (s.fenceDie die cause false) :=
  congrArg Host.Outcome.next (if_pos hd)

/-- An attempt that fails counts, and the third retires the die. -/
theorem exec_dieReadmission_failed (die : Nat) (rings : List Nat) (s : State) (hd : s.detects = true) (hg : s.boot.gap = false)
    (hl : (s.die die).life = .fenced) :
    exec (.dieReadmission die false rings) s = .next
      (let t := s.setDie die { s.die die with attempts := (s.die die).attempts + 1 }
       if 3 ≤ (s.die die).attempts + 1 then t.retireDie die else t) := by
  change execDieReadmission die false rings s = _
  simp [execDieReadmission, hd, hg, hl]

theorem exec_dieReadmission_of_ne_fenced (die : Nat) (ok : Bool) (rings : List Nat) (s : State) (hl : (s.die die).life ≠ .fenced) :
    exec (.dieReadmission die ok rings) s = .next s := by
  change execDieReadmission die ok rings s = _
  simp [execDieReadmission, hl]

/-! ### The obligation -/

/-- Settles O56: the third failure and the fourth fence both end in `State.retireDie`, whose report carries the count that the die's record still has. -/
theorem failedReadmissionsRetireTheDie : Obligations.FailedReadmissionsRetireTheDie := by
  unfold Obligations.FailedReadmissionsRetireTheDie
  refine ⟨fun s die rings _ hd hg hl => ⟨fun hlt => ?again, fun heq => ?third⟩,
    fun s die cause r1 r2 r3 old hf hd hup hc hfences hrecent => ?fourth, fun s die ok rings hl => ?retired⟩
  case again =>
    refine ⟨_, exec_dieReadmission_failed die rings s hd hg hl, ?_⟩
    have h3 : ¬ 3 ≤ (s.die die).attempts + 1 := by omega
    simp [h3, hl]
  case third =>
    refine ⟨_, exec_dieReadmission_failed die rings s hd hg hl, ?_⟩
    have h3 : 3 ≤ (s.die die).attempts + 1 := by omega
    simp [h3, State.retireDie_life, State.retireDie_log, State.now, dieUnit_div]
  case fourth =>
    have h4 := s.four_le_fencesWithin die cause r1 r2 r3 old hc hfences hrecent
    refine ⟨(s.cutOff die cause).retireDie die, ?_, State.retireDie_life _ die, ?_⟩
    · rw [exec_dieFence_eq die cause s hd, s.fenceDie_of_up die cause false hf hup, if_pos (by simp [h4])]
    · rw [← s.cutOff_now die cause]
      exact State.retireDie_logged _ die
  case retired => exact exec_dieReadmission_of_ne_fenced die ok rings s (by simp [hl])

end Sys2Proof.Machine

/-!
Before the device reports ready (13: R399): the check that every Helm command meets first, the rows that are such commands, and what the six commands answer
that pass it.
-/
namespace Sys2Proof.Machine

open Sys2Proof

/-! ### A command that its mailbox takes before READY -/

@[simp] theorem State.isReady_taken (s : State) (mb seq : Nat) (body : List Byte) : (s.taken mb seq body).isReady = s.isReady := rfl

/-- A mailbox that takes the command runs it whole. -/
theorem State.runHelm_of_takes (s : State) (code : Nat) (pt0 : Bool) (sizes : Option (List Nat)) (mb seq : Nat) (body : List Byte)
    (run : Waiter → List Byte → State → Ans) (ht : s.takes mb seq body) :
    s.runHelm code pt0 sizes mb seq body run =
      .next ((s.taken mb seq body).helmRun code pt0 sizes (mb, seq) (body.drop 4) run) := by
  obtain ⟨hon, hpart, hfree, hqueue⟩ := ht
  simp [State.runHelm, hon, hpart, Mailbox.starts_of _ seq body hfree hqueue, State.taken]

theorem State.helmRun_notReady (s : State) (code : Nat) (pt0 : Bool) (sizes : Option (List Nat)) (w : Waiter) (q : List Byte)
    (run : Waiter → List Byte → State → Ans) (hr : s.isReady = false) (hc : earlyCodes.contains code = false) :
    s.helmRun code pt0 sizes w q run = s.answerCmd w code 0xE [] := by
  rw [State.helmRun, if_pos (by rw [hr, hc]; rfl)]

/-- A command off the list of six is answered NOT_READY, whatever its payload holds. -/
theorem State.runHelm_notReady (s : State) (code : Nat) (pt0 : Bool) (sizes : Option (List Nat)) (mb seq : Nat) (body : List Byte)
    (run : Waiter → List Byte → State → Ans) (ht : s.takes mb seq body) (hr : s.isReady = false) (hc : earlyCodes.contains code = false) :
    ∃ t, s.runHelm code pt0 sizes mb seq body run = .next t ∧ t.answered mb code 0xE seq [] ∧ s.onlyMailbox t mb := by
  obtain ⟨hans, honly, -⟩ := (s.taken mb seq body).answerCmd_spec mb seq code 0xE [] (s.taken_running mb seq body)
  refine ⟨_, ?_, hans, State.onlyMailbox_trans (s.taken_only mb seq body) honly⟩
  rw [s.runHelm_of_takes code pt0 sizes mb seq body run ht, State.helmRun_notReady _ _ _ _ _ _ _ (by simpa using hr) hc]

/-! ### The rows that wait for READY -/

theorem readyRows_not_early : ∀ x ∈ readyRows, earlyCodes.contains x.2.1 = false := by decide

theorem readyRows_updateStage : ∀ x ∈ readyRows, x.2.2 = none → x.2.1 = 0x0055 → x.1 = .updateStage := by
  simp [readyRows]

/-- A row that is its CODE's only one is a Helm command by definition. UPDATE_STAGE has a check before. -/
theorem readyRows_plain : ∀ x ∈ readyRows, x.2.2 = none → x.2.1 ≠ 0x0055 →
    ∃ pt0 sizes run, ∀ mb seq body s, exec (x.1 mb seq body) s = s.runHelm x.2.1 pt0 sizes mb seq body run := by
  simp only [readyRows, List.cons_append, List.nil_append, List.forall_mem_cons, List.not_mem_nil, reduceCtorEq, false_implies,
    ne_eq, Nat.reduceEqDiff, not_true_eq_false, not_false_eq_true, forall_const, implies_true, true_and, and_true]
  and_intros
  all_goals exact ⟨_, _, _, fun _ _ _ _ => rfl⟩

/-- Every other row is its CODE's for the byte that it names. -/
theorem readyRows_mode : ∀ x ∈ readyRows, ∀ off mode, x.2.2 = some (off, mode) →
    ∃ pt0 sizes most run, ∀ mb seq body s, exec (x.1 mb seq body) s = s.runMode x.2.1 pt0 sizes off mode most mb seq body run := by
  simp only [readyRows, List.cons_append, List.nil_append, List.forall_mem_cons, List.not_mem_nil, reduceCtorEq, false_implies,
    Option.some.injEq, Prod.mk.injEq, and_imp, forall_apply_eq_imp_iff, forall_eq', implies_true, true_and, and_true]
  and_intros
  all_goals exact ⟨_, _, _, _, fun _ _ _ _ => rfl⟩

/-- Before READY the check of UPDATE_STAGE finds nothing to wait for (06: R176). -/
theorem exec_updateStage_of_notReady (mb seq : Nat) (body : List Byte) (s : State) (hr : s.isReady = false) :
    exec (.updateStage mb seq body) s = s.runHelm 0x0055 true (some [8, 4, 4]) mb seq body updateStageRun := by
  change execUpdateStage mb seq body s = _
  simp [execUpdateStage, hr]

/-- Nor does CAST_COMMIT wait for a key (06: R175). -/
theorem exec_castCommit_of_notReady (mb seq : Nat) (body : List Byte) (draws : List (List Nat)) (s : State) (hr : s.isReady = false) :
    exec (.castCommit mb seq body draws) s = s.runMode 0x0053 true (some [1, 1, 6]) 0 0 2 mb seq body (castCommitRun draws) := by
  change execCastCommit mb seq body draws s = _
  simp [execCastCommit, hr]

theorem exec_unlockChallenge_eq (mb seq : Nat) (body rand : List Byte) (s : State) :
    exec (.unlockChallenge mb seq body rand) s = s.runHelm 0x0061 true (some [1, 3]) mb seq body (unlockChallengeRun rand) := rfl

/-- Before READY a row of the list is the Helm command of its CODE where the payload names the row. -/
theorem readyRows_runHelm (s : State) (mb seq : Nat) (h p : List Byte) (hl : h.length = 4) (hr : s.isReady = false) :
    ∀ x ∈ readyRows, (∀ off mode, x.2.2 = some (off, mode) → field p off 1 = mode) →
      ∃ pt0 sizes run, exec (x.1 mb seq (h ++ p)) s = s.runHelm x.2.1 pt0 sizes mb seq (h ++ p) run := by
  intro x hx hpick
  cases hsel : x.2.2 with
  | some sel =>
    obtain ⟨off, mode⟩ := sel
    obtain ⟨pt0, sizes, most, run, hexec⟩ := readyRows_mode x hx off mode hsel
    exact ⟨pt0, sizes, run, (hexec _ _ _ _).trans (s.runMode_hit _ _ _ _ _ _ _ _ _ _ _ hl (hpick off mode hsel))⟩
  | none =>
    by_cases hstage : x.2.1 = 0x0055
    · rw [readyRows_updateStage x hx hsel hstage, hstage]
      exact ⟨_, _, _, exec_updateStage_of_notReady mb seq (h ++ p) s hr⟩
    · obtain ⟨pt0, sizes, run, hexec⟩ := readyRows_plain x hx hsel hstage
      exact ⟨pt0, sizes, run, hexec _ _ _ _⟩

/-! ### The six commands that do not wait -/

/-- A command's meaning answers at once, with another status than NOT_READY, and leaves its mailbox running it. -/
def AnswersAtOnce (run : Waiter → List Byte → State → Ans) : Prop :=
  ∀ w q s, ∃ status payload t, run w q s = .done status payload t ∧ status ≠ 0xE ∧ (t.mbox w.1).running = (s.mbox w.1).running

theorem queryCapsRun_answersAtOnce : AnswersAtOnce queryCapsRun := fun _ _ _ => ⟨_, _, _, rfl, by decide, rfl⟩

theorem deviceStateRun_answersAtOnce : AnswersAtOnce deviceStateRun := fun _ _ _ => ⟨_, _, _, rfl, by decide, rfl⟩

theorem logbookReadRun_answersAtOnce : AnswersAtOnce logbookReadRun := by
  intro w q s
  by_cases hmax : field q 2 2 = 0 ∨ 128 < field q 2 2
  · exact ⟨1, _, s, if_pos hmax, by decide, rfl⟩
  · exact ⟨0, _, s, if_neg hmax, by decide, rfl⟩

theorem attestRun_answersAtOnce : AnswersAtOnce attestRun := by
  intro w q s
  by_cases hret : s.nor.fuses.lifecycle = 2
  · exact ⟨0xA, _, s, if_pos hret, by decide, rfl⟩
  · exact ⟨0, _, s, if_neg hret, by decide, rfl⟩

theorem State.running_setMbox_mask (s : State) (k mask mb : Nat) :
    ((s.setMbox k { s.mbox k with mask := mask }).mbox mb).running = (s.mbox mb).running := by
  by_cases hk : mb = k
  · simp [hk]
  · rw [State.mbox_setMbox_ne s k mb _ hk]

theorem subscribeRun_answersAtOnce : AnswersAtOnce subscribeRun := by
  intro w q s
  simp only [subscribeRun, errAns, badAns]
  repeat' split
  all_goals exact ⟨_, _, _, rfl, by decide, by simp [State.running_setMbox_mask]⟩

theorem telemetryReadRun_answersAtOnce : AnswersAtOnce telemetryReadRun := by
  intro w q s
  simp only [telemetryReadRun, errAns, badAns]
  repeat' split
  all_goals exact ⟨_, _, _, rfl, by decide, rfl⟩

/-- The shared checks answer NOT_READY to no command of the list, and its own meaning does not either. -/
theorem State.helmRun_early (s : State) (code : Nat) (pt0 : Bool) (sizes : Option (List Nat)) (w : Waiter) (q : List Byte)
    (run : Waiter → List Byte → State → Ans) (hc : earlyCodes.contains code = true) (hrun : AnswersAtOnce run) :
    ∃ status payload, ∃ t : State, s.helmRun code pt0 sizes w q run = t.answerCmd w code status payload ∧ status ≠ 0xE ∧
      (t.mbox w.1).running = (s.mbox w.1).running := by
  simp only [State.helmRun, hc, Bool.not_true, Bool.and_false, Bool.false_eq_true, if_false]
  split
  · exact ⟨1, _, s, rfl, by decide, rfl⟩
  split
  · exact ⟨6, _, s, rfl, by decide, rfl⟩
  split
  · exact ⟨1, _, s, rfl, by decide, rfl⟩
  · obtain ⟨status, payload, t, hdone, hst, hmbox⟩ := hrun w q s
    exact ⟨status, payload, t, by rw [hdone], hst, hmbox⟩

theorem State.runHelm_early (s : State) (code : Nat) (pt0 : Bool) (sizes : Option (List Nat)) (mb seq : Nat) (body : List Byte)
    (run : Waiter → List Byte → State → Ans) (ht : s.takes mb seq body) (hc : earlyCodes.contains code = true) (hrun : AnswersAtOnce run) :
    ∃ t status payload, s.runHelm code pt0 sizes mb seq body run = .next t ∧ t.answered mb code status seq payload ∧ status ≠ 0xE := by
  obtain ⟨status, payload, u, hu, hst, hmbox⟩ :=
    (s.taken mb seq body).helmRun_early code pt0 sizes (mb, seq) (body.drop 4) run hc hrun
  refine ⟨_, status, payload, ?_, (u.answerCmd_spec mb seq code status payload (hmbox.trans (s.taken_running mb seq body))).1, hst⟩
  rw [s.runHelm_of_takes code pt0 sizes mb seq body run ht, hu]

theorem earlyRows_runHelm : ∀ x ∈ earlyRows, ∃ pt0 sizes run, AnswersAtOnce run ∧
    ∀ mb seq body s, exec (x.1 mb seq body) s = s.runHelm x.2 pt0 sizes mb seq body run := by
  simp only [earlyRows, List.forall_mem_cons, List.not_mem_nil, false_implies, implies_true, and_true]
  exact ⟨⟨_, _, _, queryCapsRun_answersAtOnce, fun _ _ _ _ => rfl⟩, ⟨_, _, _, deviceStateRun_answersAtOnce, fun _ _ _ _ => rfl⟩,
    ⟨_, _, _, logbookReadRun_answersAtOnce, fun _ _ _ _ => rfl⟩, ⟨_, _, _, subscribeRun_answersAtOnce, fun _ _ _ _ => rfl⟩,
    ⟨_, _, _, attestRun_answersAtOnce, fun _ _ _ _ => rfl⟩, ⟨_, _, _, telemetryReadRun_answersAtOnce, fun _ _ _ _ => rfl⟩⟩

theorem earlyRows_early : ∀ x ∈ earlyRows, earlyCodes.contains x.2 = true := by decide

/-! ### The obligation -/

/-- Settles O54: every row is the Helm command of its CODE, whose first check refuses all but the six; these pass it, and none of the answers that they can
give is NOT_READY. -/
theorem commandsWaitForReady : Obligations.CommandsWaitForReady := by
  unfold Obligations.CommandsWaitForReady
  intro s mb seq h p hl hr ht
  refine ⟨fun x hx hpick => ?ready, fun draws _ hmode => ?castCommit, fun rand => ?unlockChallenge, fun x hx => ?early⟩
  case ready =>
    obtain ⟨pt0, sizes, run, hexec⟩ := readyRows_runHelm s mb seq h p hl hr x hx (fun off mode hsel => (hpick off mode hsel).2)
    rw [hexec]
    exact s.runHelm_notReady x.2.1 pt0 sizes mb seq (h ++ p) run ht hr (readyRows_not_early x hx)
  case castCommit =>
    rw [exec_castCommit_of_notReady mb seq (h ++ p) draws s hr, s.runMode_hit _ _ _ _ _ _ _ _ _ _ _ hl hmode]
    exact s.runHelm_notReady _ _ _ mb seq (h ++ p) _ ht hr (by decide)
  case unlockChallenge =>
    rw [exec_unlockChallenge_eq]
    exact s.runHelm_notReady _ _ _ mb seq (h ++ p) _ ht hr (by decide)
  case early =>
    obtain ⟨pt0, sizes, run, hrun, hexec⟩ := earlyRows_runHelm x hx
    rw [hexec]
    exact s.runHelm_early x.2 pt0 sizes mb seq (h ++ p) run ht (earlyRows_early x hx) hrun

end Sys2Proof.Machine
